-- ==== Sys2Proof/Word.lean ====
section
/-! DEFINITION. The word types of the KL9 (R2, R289, R296) and their plainest readings. -/

namespace Sys2Proof

/-- One byte. -/
abbrev Byte := BitVec 8
/-- 16, 32, 64 and 96 bit words. -/
abbrev W16 := BitVec 16
abbrev W32 := BitVec 32
abbrev W64 := BitVec 64
abbrev W96 := BitVec 96
/-- A lane mask or `em`: bit l stands for lane l (R107). -/
abbrev Mask := BitVec 64
/-- `scc`: bit 0 Z, bit 1 N, bit 2 C, bit 3 V (R345). -/
abbrev Scc := BitVec 4
/-- Floating flags laid out as `fpflags` [4:0]: NX, UF, OF, DZ, NV from bit 0 (R318). -/
abbrev FpFlags := BitVec 5

/-- A table in canonical form: keys strictly rising, and no entry equal to what an unlisted key reads as. -/
abbrev Tab (α : Type) := List (Nat × α)

end Sys2Proof
end

