-- ==== Sys2Proof/Machine/Bits.lean ====
section
/-! DEFINITION. Bit fields, sign extension, byte order and exact integer readings (R2, R7, R311). -/

namespace Sys2Proof

/-- `x[h:l]` as an unsigned number (R7). -/
def bits (x h l : Nat) : Nat := (x >>> l) % 2 ^ (h + 1 - l)

/-- Bit `i` of a number. -/
def bit (x i : Nat) : Bool := (x >>> i) % 2 == 1

/-- 1 for true, 0 for false. -/
def b2n (b : Bool) : Nat := if b then 1 else 0

/-- The number `x` with its field [h:l] replaced by `v`. -/
def setBits (x h l v : Nat) : Nat :=
  let w := h + 1 - l
  let hi := x >>> (h + 1)
  let lo := x % 2 ^ l
  (hi <<< (h + 1)) + ((v % 2 ^ w) <<< l) + lo

/-- The two's complement value of the low `w` bits of `x` (R311). -/
def sval (w x : Nat) : Int :=
  let y := x % 2 ^ w
  if y < 2 ^ (w - 1) then (y : Int) else (y : Int) - (2 ^ w : Nat)

/-- An integer modulo 2^w. -/
def wrap (w : Nat) (z : Int) : Nat := (z % ((2 ^ w : Nat) : Int)).toNat

/-- Sign extension of the low `w` bits of `x` to 64 bits. -/
def sext64 (w x : Nat) : W64 := BitVec.ofInt 64 (sval w x)

/-- The bytes of a number, lowest first (R2). -/
def toBytes : Nat → Nat → List Byte
  | 0, _ => []
  | n + 1, x => BitVec.ofNat 8 x :: toBytes n (x / 256)

/-- The number that bytes hold, lowest first (R2). -/
def ofBytes : List Byte → Nat
  | [] => 0
  | b :: r => b.toNat + 256 * ofBytes r

/-- The numbers lo, lo + 1, ..., lo + n - 1. -/
def upFrom (lo : Nat) : Nat → List Nat
  | 0 => []
  | n + 1 => lo :: upFrom (lo + 1) n

/-- The numbers below `n` whose bit in `m` is 1, ascending. -/
def lanesOf (m : Mask) (n : Nat) : List Nat := (upFrom 0 n).filter (fun l => m.getLsbD l)

/-- The mask of a list of lanes. -/
def maskOf : List Nat → Mask
  | [] => 0
  | l :: r => BitVec.ofNat 64 (2 ^ l) ||| maskOf r

/-- Number of 1 bits among the low `n` bits. -/
def popcount : Nat → Nat → Nat
  | 0, _ => 0
  | n + 1, x => x % 2 + popcount n (x / 2)

/-- Leading zeros of a value of width `n`. -/
def clzW : Nat → Nat → Nat
  | 0, _ => 0
  | n + 1, x => if bit x n then 0 else 1 + clzW n x

/-- Trailing zeros among the low `n` bits; `n` when they are all 0. -/
def ctzW : Nat → Nat → Nat
  | 0, _ => 0
  | n + 1, x => if bit x 0 then 0 else 1 + ctzW n (x / 2)

/-- Replaces element `i` of width `e` of a 64-bit word (R296). -/
def setElem (e i : Nat) (w : W64) (v : Nat) : W64 := BitVec.ofNat 64 (setBits w.toNat (e * i + e - 1) (e * i) v)

/-- Element `i` of width `e` of a 64-bit word (R296). -/
def elem (e i : Nat) (w : W64) : Nat := (w.toNat >>> (e * i)) % 2 ^ e

/-- A word built from its elements of width `e`, lowest first (R296). -/
def ofElems (e : Nat) : List Nat → Nat
  | [] => 0
  | v :: r => v % 2 ^ e + 2 ^ e * ofElems e r

/-- `floor(x / 2^k)` for a signed exponent: a left shift when `k` is negative. -/
def shiftBy (x : Nat) (k : Int) : Nat := if k < 0 then x <<< (-k).toNat else x >>> k.toNat

/-- A permutation of a list chosen by a number: each permutation is the choice of some number. -/
def permuteBy {α : Type} : Nat → Nat → List α → List α
  | 0, _, l => l
  | _, _, [] => []
  | fuel + 1, seed, l =>
    let n := l.length
    match l[seed % n]? with
    | none => l
    | some x => x :: permuteBy fuel (seed / n) (l.eraseIdx (seed % n))

/-- Canonical under Sv57: bits [63:57] all equal bit [56] (R140). -/
def canonical (a : W64) : Bool := bits a.toNat 63 56 == 0 || bits a.toNat 63 56 == 255

/-- Division rounded up. -/
def ceilDiv (a b : Nat) : Nat := (a + b - 1) / b

end Sys2Proof
end

