-- ==== Sys2Proof/Syntax.lean ====
section
/-! DEFINITION. The syntax of the model: one constructor of `Instr` for each row of spec/opcode_table.json, and the
operand types those constructors carry. A row that the spec encodes (scalar words, SX pairs, lane instructions, the
trailer) carries its encoded fields; a row that is a device event carries what the outside party or the unit supplies. -/

namespace Sys2Proof

/-- The raw fields of a lane instruction beside its OP (R295): which values are defined is said in WellFormed. -/
structure Lane where
  sub : BitVec 4
  ty : BitVec 4
  la : BitVec 4
  msel : BitVec 4
  mneg : Bool
  mod : BitVec 7
  d : Byte
  a : Byte
  b : Byte
  c : Byte
  imm : W32
  deriving DecidableEq, Repr

/-- A path: the coil's context number (R412), the strand number, and 15 for the root path or a split-table entry 0 to 7 (R113, R122). -/
structure PathId where
  coil : Nat
  strand : Nat
  path : Nat
  deriving DecidableEq, Repr

/-- The trap causes of R256, codes 1 to 28. -/
inductive Cause where
  | illegalInstruction | illegalCourse | roleViolation | regUnreserved | gangInvalid | gangMismatch | gangAbandoned
  | reorderDivergent | splitDeadlock | plyState | snapshotRevoked | poison | addrNoncanonical | misaligned | scratchRange
  | fifoAccess | sysSpaceAccess | fabricAccess | fabricUnreachable | fabricTimeout | translation | barArmedWrite | mxOperand
  | watchpoint | upcallDisabled | trapInsn | watchdogInsn | watchdogTime
  deriving DecidableEq, Repr

/-- The 6-bit code of a cause (R256). -/
def Cause.code : Cause → Nat
  | .illegalInstruction => 1 | .illegalCourse => 2 | .roleViolation => 3 | .regUnreserved => 4 | .gangInvalid => 5
  | .gangMismatch => 6 | .gangAbandoned => 7 | .reorderDivergent => 8 | .splitDeadlock => 9 | .plyState => 10
  | .snapshotRevoked => 11 | .poison => 12 | .addrNoncanonical => 13 | .misaligned => 14 | .scratchRange => 15
  | .fifoAccess => 16 | .sysSpaceAccess => 17 | .fabricAccess => 18 | .fabricUnreachable => 19 | .fabricTimeout => 20
  | .translation => 21 | .barArmedWrite => 22 | .mxOperand => 23 | .watchpoint => 24 | .upcallDisabled => 25
  | .trapInsn => 26 | .watchdogInsn => 27 | .watchdogTime => 28

/-- Kinds of access, numbered as fault records number them: 1 read, 2 write, 3 atomic, 4 execute (R157). -/
inductive AccessKind where
  | read | write | atomic | execute
  deriving DecidableEq, Repr

/-- What a trap record of R261 holds beside its upcall index. -/
structure TrapInfo where
  cause : Cause
  splint : Nat := 0
  stream : Nat := 0
  pos : Nat := 0
  doneAfter : Nat := 0
  ipc : W64 := 0
  spc : W64 := 0
  laneMask : Mask := 0
  other : Mask := 0
  active : Mask := 0
  performed : Mask := 0
  insn : W96 := 0
  /-- Lane causes and lane addresses (R261), by lane; an unlisted lane holds 0. -/
  lcause : Tab Nat := []
  laddr : Tab W64 := []
  /-- Raised after issue under R392 or R410: only SKIP and KILL answer it. -/
  deferred : Bool := false
  /-- A memory instruction: RETRY_OTHERS is allowed (R262). -/
  memory : Bool := false
  deriving DecidableEq, Repr

/-- A record waiting to be posted on the upcall ring (R64, R65). -/
structure UpcallReq where
  kind : Nat
  splint : Nat := 0
  service : Nat := 0
  hamper : Nat := 0
  slot : Nat := 0
  bolt : Nat := 0
  x : Nat := 0
  y : Nat := 0
  z : Nat := 0
  asid : Nat := 0
  arg0 : W64 := 0
  arg1 : W64 := 0
  arg2 : W64 := 0
  arg3 : W64 := 0
  /-- The parked path: the caller for kind 1, the trapped path for kind 3. -/
  waiter : Option PathId := none
  /-- The record area's contents for kind 3. -/
  trap : Option TrapInfo := none
  /-- Holver has written RESULT and STATUS in its slot (R68). -/
  served : Bool := false
  deriving DecidableEq, Repr

/-- The four power domains of R19. -/
inductive PowerDomain where
  | matrix | lanes | hbm | fabric
  deriving DecidableEq, Repr

/-- What a power domain draws in an interval of the limiter, in watts (R19). -/
structure PowerReading where
  domain : PowerDomain
  watts : Nat
  deriving DecidableEq, Repr

/-- What a power domain has drawn in intervals of the limiter, the newest first (R19). -/
structure PowerHistory where
  domain : PowerDomain
  watts : List Nat
  deriving DecidableEq, Repr

/-- One hourly reading of the health monitors (R21, R22). -/
structure HealthReading where
  drift : Tab W16
  trend : Tab W32
  margin : Tab Byte
  /-- Corrected-error rate of each channel (R22, R161). -/
  ceRate : Tab Nat
  deriving DecidableEq, Repr

/-- Completion status of a PCI Express request (R143). -/
inductive CplStatus where
  | ok | poisoned | unsupported | abort
  deriving DecidableEq, Repr

/-- How a fabric response ends: with data, with a copy of the line granted, poisoned, or refused (R42, R49, R54). -/
inductive FabStatus where
  | ok | granted | poisoned | refused
  deriving DecidableEq, Repr

/-- The atomic operations of R378 and R380, integer and floating. -/
inductive AtomicOp where
  | add | min | max | and | or | xor | swap | cas | fadd | fmin | fmax
  deriving DecidableEq, Repr

/-- A request that arrives over the fabric (R42, R47): the sender's peer identity, its job key, the 40-bit offset. -/
structure FabReq where
  id : Nat
  src : Nat
  key : W16
  off : Nat
  size : Nat
  data : List Byte := []
  /-- Bytes written: bit i stands for byte i of data. -/
  byteMask : Nat := 0
  op : AtomicOp := .add
  ty : BitVec 4 := 3
  comparand : W64 := 0
  /-- The 64-byte granules, from that of the first byte, in which it stores poisoned words (R160, R330). -/
  bad : Nat := 0
  /-- The requester wants a copy and the port has the coherence extension (R49). -/
  wantsCopy : Bool := false
  deriving DecidableEq, Repr

/-- A write of the host, or of a peer over PCI Express, through BAR 2, or an AtomicOp of such a peer: its operand is the data (R26, R56). -/
structure Bar2Req where
  data : List Byte
  poisoned : Bool := false
  atom : Option AtomicOp := none
  comparand : W64 := 0
  deriving DecidableEq, Repr

/-- An RDMA transfer arriving over Ethernet (R57, R58, R60): the identity in its header, the physical address, the bytes. -/
structure RdmaReq where
  target : Nat
  pa : Nat
  size : Nat
  data : List Byte := []
  deriving DecidableEq, Repr

/-- The completion of an RDMA chunk at its source (R57, R59): BTE queue, packet number, chunk, READ data. -/
structure RdmaResp where
  queue : Nat
  number : Nat
  chunk : Nat
  data : List Byte := []
  deriving DecidableEq, Repr

/-- The memory operations of a Yoke hart; an AMO with whether it compares signed values (R61). -/
inductive YokeKind where
  | load | store | amo (op : AtomicOp) (signed : Bool) | lr | sc
  /-- A FENCE whose sets include i or o, or one whose sets include r and w (R61). -/
  | fence (sys : Bool)
  deriving DecidableEq, Repr

/-- One memory operation of a Yoke hart at a physical address its own translation gave, or a virtual address in a window. -/
structure YokeAccess where
  hart : Nat
  kind : YokeKind
  asid : Nat
  va : W64
  pa : Nat
  size : Nat
  value : W64
  comparand : W64
  /-- The aq and rl bits (R61). -/
  aq : Bool := false
  rl : Bool := false
  deriving DecidableEq, Repr

/-- A host-to-device mailbox request as taken from its slot (R28, R70). -/
structure MbxReq where
  kind : Nat
  len : Nat
  seq : W32
  body : List Byte
  deriving DecidableEq, Repr

/-- An SPDM request: transport (false DOE, true MCTP), secured session it came in, payload (R35). -/
structure SpdmReq where
  mctp : Bool
  session : Option Nat
  payload : List Byte
  deriving DecidableEq, Repr

/-- What a PCI Express configuration request does (R24, R30). -/
inductive ConfigReq where
  | read (off : Nat)
  | setBar (bar : Nat) (base : W64) (sizeLog2 : Nat)
  | setMsix (enable : Bool)
  | setAts (enable : Bool)
  /-- Error bits of the AER capability that are cleared. -/
  | clearErrors (mask : Nat)
  | setPower (d3hot : Bool)
  deriving DecidableEq, Repr

/-- An IDE_KM message (R24): program a key slot, or switch to it. -/
inductive IdeReq where
  | setKey (session slot : Nat) (key : BitVec 256)
  | switch (session slot : Nat)
  deriving DecidableEq, Repr

/-- Where an uncorrectable error strikes (R160, R208, R264). -/
inductive ErrorSite where
  | hbm (pa : Nat)
  | l2 (pa : Nat)
  | sram (hamper off : Nat)
  | laneReg (coil strand reg lane : Nat)
  | scalarReg (p : PathId) (reg : Nat)
  | olderPly (line : Nat) (stamp : Nat)
  | l1Tag (hamper pa : Nat)
  deriving DecidableEq, Repr

/-- A trap raised after issue (R392, R410): the path and what its record holds. -/
structure DeferredTrap where
  path : PathId
  info : TrapInfo
  deriving DecidableEq, Repr

/-- The instructions and events of the KL9: one constructor for each row of spec/opcode_table.json; the encoded
rows first, then the events that the machine's own units raise, then those of the outside. -/
inductive Instr where
  /-- ADD (R332) -/
  | add (d a b : BitVec 6) (f : Bool)
  /-- SUB (R332) -/
  | sub (d a b : BitVec 6) (f : Bool)
  /-- AND (R332) -/
  | and (d a b : BitVec 6) (f : Bool)
  /-- OR (R332) -/
  | or (d a b : BitVec 6) (f : Bool)
  /-- XOR (R332) -/
  | xor (d a b : BitVec 6) (f : Bool)
  /-- ANDN (R332) -/
  | andn (d a b : BitVec 6) (f : Bool)
  /-- SHL (R332) -/
  | shl (d a b : BitVec 6) (f : Bool)
  /-- SHR (R332) -/
  | shr (d a b : BitVec 6) (f : Bool)
  /-- SRA (R332) -/
  | sra (d a b : BitVec 6) (f : Bool)
  /-- MIN_S (R332) -/
  | minS (d a b : BitVec 6)
  /-- MAX_S (R332) -/
  | maxS (d a b : BitVec 6)
  /-- MIN_N (R332) -/
  | minN (d a b : BitVec 6)
  /-- MAX_N (R332) -/
  | maxN (d a b : BitVec 6)
  /-- SADD2 (R332) -/
  | sadd2 (d a b : BitVec 6)
  /-- SADD4 (R332) -/
  | sadd4 (d a b : BitVec 6)
  /-- SADD8 (R332) -/
  | sadd8 (d a b : BitVec 6)
  /-- SEXT_S8 (R332) -/
  | sextS8 (d a : BitVec 6)
  /-- SEXT_S16 (R332) -/
  | sextS16 (d a : BitVec 6)
  /-- SEXT_S32 (R332) -/
  | sextS32 (d a : BitVec 6)
  /-- ZEXT_N8 (R332) -/
  | zextN8 (d a : BitVec 6)
  /-- ZEXT_N16 (R332) -/
  | zextN16 (d a : BitVec 6)
  /-- ZEXT_N32 (R332) -/
  | zextN32 (d a : BitVec 6)
  /-- POPC (R332) -/
  | popc (d a : BitVec 6)
  /-- CLZ (R332) -/
  | clz (d a : BitVec 6)
  /-- CTZ (R332) -/
  | ctz (d a : BitVec 6)
  /-- MUL (R334) -/
  | mul (d a b : BitVec 6)
  /-- MULH_S (R334) -/
  | mulhS (d a b : BitVec 6)
  /-- MULH_N (R334) -/
  | mulhN (d a b : BitVec 6)
  /-- MULH_SN (R334) -/
  | mulhSn (d a b : BitVec 6)
  /-- DIV_S (R334) -/
  | divS (d a b : BitVec 6)
  /-- DIV_N (R334) -/
  | divN (d a b : BitVec 6)
  /-- REM_S (R334) -/
  | remS (d a b : BitVec 6)
  /-- REM_N (R334) -/
  | remN (d a b : BitVec 6)
  /-- ADDI (R333) -/
  | addi (d a : BitVec 6) (imm : BitVec 14)
  /-- ANDI (R333) -/
  | andi (d a : BitVec 6) (imm : BitVec 14)
  /-- ORI (R333) -/
  | ori (d a : BitVec 6) (imm : BitVec 14)
  /-- XORI (R333) -/
  | xori (d a : BitVec 6) (imm : BitVec 14)
  /-- SHLI (R333) -/
  | shli (d a n : BitVec 6)
  /-- SHRI (R333) -/
  | shri (d a n : BitVec 6)
  /-- SRAI (R333) -/
  | srai (d a n : BitVec 6)
  /-- CMPI (R333) -/
  | cmpi (a : BitVec 6) (imm : BitVec 14)
  /-- LD_N8 (R335) -/
  | ldN8 (d a : BitVec 6) (imm : BitVec 14)
  /-- LD_N16 (R335) -/
  | ldN16 (d a : BitVec 6) (imm : BitVec 14)
  /-- LD_N32 (R335) -/
  | ldN32 (d a : BitVec 6) (imm : BitVec 14)
  /-- LD_B64 (R335) -/
  | ldB64 (d a : BitVec 6) (imm : BitVec 14)
  /-- ST_B8 (R335) -/
  | stB8 (d a : BitVec 6) (imm : BitVec 14)
  /-- ST_B16 (R335) -/
  | stB16 (d a : BitVec 6) (imm : BitVec 14)
  /-- ST_B32 (R335) -/
  | stB32 (d a : BitVec 6) (imm : BitVec 14)
  /-- ST_B64 (R335) -/
  | stB64 (d a : BitVec 6) (imm : BitVec 14)
  /-- ATOM (R380) -/
  | atom (d a b : BitVec 6) (p s : BitVec 3) (q : BitVec 2)
  /-- B (R336) -/
  | b (c : BitVec 5) (off : BitVec 21)
  /-- BZ (R336) -/
  | bz (k : BitVec 4) (off : BitVec 21)
  /-- BNZ (R336) -/
  | bnz (k : BitVec 4) (off : BitVec 21)
  /-- CALL (R336) -/
  | call (off : BitVec 21)
  /-- JALR (R337) -/
  | jalr (d a : BitVec 6) (imm : BitVec 14)
  /-- KAND (R338) -/
  | kand (d a b : BitVec 4)
  /-- KOR (R338) -/
  | kor (d a b : BitVec 4)
  /-- KXOR (R338) -/
  | kxor (d a b : BitVec 4)
  /-- KANDN (R338) -/
  | kandn (d a b : BitVec 4)
  /-- KNOT (R338) -/
  | knot (d a : BitVec 4)
  /-- KMOV (R338) -/
  | kmov (d a : BitVec 4)
  /-- KFROMS (R339) -/
  | kfroms (d : BitVec 4) (s : BitVec 6)
  /-- KTOS (R339) -/
  | ktos (a : BitVec 4) (s : BitVec 6)
  /-- KPOPC (R339) -/
  | kpopc (a : BitVec 4) (s : BitVec 6)
  /-- KFFS (R339) -/
  | kffs (a : BitVec 4) (s : BitVec 6)
  /-- KTEST (R339) -/
  | ktest (a b : BitVec 4)
  /-- SPLIT (R122) -/
  | split (k : BitVec 4) (off : BitVec 21)
  /-- JOIN (R124) -/
  | join (off : BitVec 21)
  /-- NOP (R347) -/
  | nop
  /-- END (R126) -/
  | endPath
  /-- TRAP (R349) -/
  | trap (n : BitVec 6)
  /-- WAIT_PATH (R342) -/
  | waitPath (a : BitVec 6) (c : BitVec 4)
  /-- WAIT_MX (R343) -/
  | waitMx (a : BitVec 6) (s : BitVec 3)
  /-- WAIT_TRV (R343) -/
  | waitTrv (a : BitVec 6) (s : BitVec 3)
  /-- WAIT_COV (R343) -/
  | waitCov (a : BitVec 6) (s : BitVec 3)
  /-- WAIT_MEM (R344) -/
  | waitMem (a b : BitVec 6) (s : BitVec 3)
  /-- SRD (R345) -/
  | srd (d : BitVec 6) (n : BitVec 8)
  /-- SWR (R345) -/
  | swr (a : BitVec 6) (n : BitVec 8)
  /-- FENCE (R381) -/
  | fence (s : BitVec 3) (q : BitVec 2)
  /-- BAR_INIT (R386) -/
  | barInit (a : BitVec 6) (b : BitVec 4)
  /-- BAR_DROP (R386) -/
  | barDrop (b : BitVec 4)
  /-- BAR_ARRIVE (R387) -/
  | barArrive (d : BitVec 6) (b : BitVec 4)
  /-- BAR_WAIT (R386) -/
  | barWait (a : BitVec 6) (b : BitVec 4)
  /-- BAR_SYNC (R386) -/
  | barSync (d : BitVec 6) (b : BitVec 4)
  /-- HOOP_INIT (R388) -/
  | hoopInit (a : BitVec 6) (h : BitVec 4)
  /-- HOOP_WFILL (R388) -/
  | hoopWfill (d a b : BitVec 6) (h : BitVec 4)
  /-- HOOP_FILLED (R388) -/
  | hoopFilled (a : BitVec 6) (h : BitVec 4)
  /-- HOOP_WTAKE (R388) -/
  | hoopWtake (d a b : BitVec 6) (h : BitVec 4)
  /-- HOOP_TAKEN (R388) -/
  | hoopTaken (a : BitVec 6) (h : BitVec 4)
  /-- HOOP_RD (R388) -/
  | hoopRd (d : BitVec 6) (h : BitVec 4)
  /-- TWAIT (R389) -/
  | twait (d a b : BitVec 6) (c : BitVec 4)
  /-- MX_MMA (R393) -/
  | mxMma (d a b : BitVec 6) (l : Bool) (f : BitVec 4)
  /-- MX_GANG (R397) -/
  | mxGang (d a b : BitVec 6) (l : Bool) (f : BitVec 4)
  /-- MX_CBLD (R399) -/
  | mxCbld (d a : BitVec 6) (s : BitVec 3)
  /-- MX_CLR (R400) -/
  | mxClr (d : BitVec 6) (t : BitVec 4)
  /-- MX_DRAIN (R401) -/
  | mxDrain (d a b : BitVec 6) (x : Bool) (r : Bool)
  /-- CP_PUSH (R412) -/
  | cpPush (d a b : BitVec 6)
  /-- CP_TEST (R414) -/
  | cpTest (d a b : BitVec 6) (s : BitVec 3)
  /-- CP_WAIT (R414) -/
  | cpWait (d a b : BitVec 6) (s : BitVec 3)
  /-- CP_CANCEL (R416) -/
  | cpCancel (d a b : BitVec 6)
  /-- RQ_BUILD (R420) -/
  | rqBuild (d a : BitVec 6)
  /-- RQ_REFIT (R420) -/
  | rqRefit (d a : BitVec 6)
  /-- COV_TILE (R423) -/
  | covTile (d a : BitVec 6)
  /-- COV_TILE_CLR (R423) -/
  | covTileClr (d a : BitVec 6)
  /-- COV_RESOLVE (R423) -/
  | covResolve (d a : BitVec 6) (r : BitVec 2)
  /-- PLY_BEGIN (R428) -/
  | plyBegin (d a : BitVec 6) (c : BitVec 2)
  /-- PLY_BEGIN_COIL (R428) -/
  | plyBeginCoil (d a : BitVec 6) (c : BitVec 2)
  /-- PLY_COMMIT (R201) -/
  | plyCommit (d : BitVec 6)
  /-- PLY_COMMIT_COIL (R201) -/
  | plyCommitCoil (d : BitVec 6)
  /-- PLY_ABORT (R429) -/
  | plyAbort (d : BitVec 6)
  /-- PLY_ABORT_COIL (R429) -/
  | plyAbortCoil (d : BitVec 6)
  /-- PLY_SNAP (R430) -/
  | plySnap (d : BitVec 6)
  /-- PLY_DROP (R430) -/
  | plyDrop (a : BitVec 6)
  /-- PLY_STAMP (R430) -/
  | plyStamp (d a : BitVec 6) (c : BitVec 2)
  /-- PLY_CLOCK (R430) -/
  | plyClock (d : BitVec 6)
  /-- LI (R293) -/
  | li (d : BitVec 6) (imm : W32)
  /-- LIH (R293) -/
  | lih (d : BitVec 6) (imm : W32)
  /-- ADDX (R293) -/
  | addx (d a : BitVec 6) (imm : W32)
  /-- CRS (R340) -/
  | crs (a : BitVec 6) (n : BitVec 4) (off : W32)
  /-- UPCALL (R346) -/
  | upcall (d a : BitVec 6) (service : W16)
  /-- COURSE_TRAILER (R300) -/
  | courseTrailer (n : BitVec 4) (kind : BitVec 8) (yield : Bool) (slots : W64)
  /-- V_ADD (R356) -/
  | vAdd (o : Lane)
  /-- V_SUB (R356) -/
  | vSub (o : Lane)
  /-- V_MUL (R356) -/
  | vMul (o : Lane)
  /-- V_MULH (R356) -/
  | vMulh (o : Lane)
  /-- V_MAD (R356) -/
  | vMad (o : Lane)
  /-- V_MIN (R356) -/
  | vMin (o : Lane)
  /-- V_MAX (R356) -/
  | vMax (o : Lane)
  /-- V_ABS (R356) -/
  | vAbs (o : Lane)
  /-- V_NEG (R356) -/
  | vNeg (o : Lane)
  /-- V_ADDS (R356) -/
  | vAdds (o : Lane)
  /-- V_SUBS (R356) -/
  | vSubs (o : Lane)
  /-- V_DIV (R356) -/
  | vDiv (o : Lane)
  /-- V_REM (R356) -/
  | vRem (o : Lane)
  /-- V_SAD (R356) -/
  | vSad (o : Lane)
  /-- V_DOT4 (R356) -/
  | vDot4 (o : Lane)
  /-- V_AND (R357) -/
  | vAnd (o : Lane)
  /-- V_OR (R357) -/
  | vOr (o : Lane)
  /-- V_XOR (R357) -/
  | vXor (o : Lane)
  /-- V_NOT (R357) -/
  | vNot (o : Lane)
  /-- V_SHL (R357) -/
  | vShl (o : Lane)
  /-- V_SHR (R357) -/
  | vShr (o : Lane)
  /-- V_BFX (R357) -/
  | vBfx (o : Lane)
  /-- V_BFI (R357) -/
  | vBfi (o : Lane)
  /-- V_POPC (R357) -/
  | vPopc (o : Lane)
  /-- V_CLZ (R357) -/
  | vClz (o : Lane)
  /-- V_CMP (R360) -/
  | vCmp (o : Lane)
  /-- V_TEST (R360) -/
  | vTest (o : Lane)
  /-- V_FADD (R361) -/
  | vFadd (o : Lane)
  /-- V_FSUB (R361) -/
  | vFsub (o : Lane)
  /-- V_FMUL (R361) -/
  | vFmul (o : Lane)
  /-- V_FMA (R361) -/
  | vFma (o : Lane)
  /-- V_FMIN (R361) -/
  | vFmin (o : Lane)
  /-- V_FMAX (R361) -/
  | vFmax (o : Lane)
  /-- V_FABS (R361) -/
  | vFabs (o : Lane)
  /-- V_FNEG (R361) -/
  | vFneg (o : Lane)
  /-- V_FSGN (R361) -/
  | vFsgn (o : Lane)
  /-- V_FINT (R361) -/
  | vFint (o : Lane)
  /-- V_FSCL (R361) -/
  | vFscl (o : Lane)
  /-- V_FCLS (R361) -/
  | vFcls (o : Lane)
  /-- V_FDIV (R362) -/
  | vFdiv (o : Lane)
  /-- V_FSQRT (R362) -/
  | vFsqrt (o : Lane)
  /-- V_FRCP (R362) -/
  | vFrcp (o : Lane)
  /-- V_FRSQ (R362) -/
  | vFrsq (o : Lane)
  /-- V_FEXP2 (R362) -/
  | vFexp2 (o : Lane)
  /-- V_FLOG2 (R362) -/
  | vFlog2 (o : Lane)
  /-- V_FSIN (R362) -/
  | vFsin (o : Lane)
  /-- V_FCOS (R362) -/
  | vFcos (o : Lane)
  /-- V_FCMP (R363) -/
  | vFcmp (o : Lane)
  /-- V_CVT (R364) -/
  | vCvt (o : Lane)
  /-- V_PACK (R364) -/
  | vPack (o : Lane)
  /-- V_UNPACK (R364) -/
  | vUnpack (o : Lane)
  /-- V_BSCL (R365) -/
  | vBscl (o : Lane)
  /-- V_MOV (R366) -/
  | vMov (o : Lane)
  /-- V_SEL (R366) -/
  | vSel (o : Lane)
  /-- V_KMOV (R366) -/
  | vKmov (o : Lane)
  /-- V_SHFL (R367) -/
  | vShfl (o : Lane)
  /-- V_BCAST (R367) -/
  | vBcast (o : Lane)
  /-- V_ROT (R367) -/
  | vRot (o : Lane)
  /-- V_VOTE (R368) -/
  | vVote (o : Lane)
  /-- V_SRED (R369) -/
  | vSred (o : Lane)
  /-- V_SCAN (R369) -/
  | vScan (o : Lane)
  /-- V_TOS (R368) -/
  | vTos (o : Lane)
  /-- V_FROMS (R368) -/
  | vFroms (o : Lane)
  /-- V_XTR (R367) -/
  | vXtr (o : Lane)
  /-- V_INS (R367) -/
  | vIns (o : Lane)
  /-- REORDER (R128) -/
  | reorder (o : Lane)
  /-- V_LD (R375) -/
  | vLd (o : Lane)
  /-- V_ST (R375) -/
  | vSt (o : Lane)
  /-- V_ATOM (R377) -/
  | vAtom (o : Lane)
  /-- V_RED (R377) -/
  | vRed (o : Lane)
  /-- V_CPA (R382) -/
  | vCpa (o : Lane)
  /-- V_FPUSH (R384) -/
  | vFpush (o : Lane)
  /-- V_FPOP (R384) -/
  | vFpop (o : Lane)
  /-- MX_PEEK (R404) -/
  | mxPeek (o : Lane)
  /-- MX_RD (R404) -/
  | mxRd (o : Lane)
  /-- MX_WR (R404) -/
  | mxWr (o : Lane)
  /-- RQ_RAY (R417) -/
  | rqRay (o : Lane)
  /-- RQ_BEAM (R419) -/
  | rqBeam (o : Lane)
  /-- COV_SEG (R424) -/
  | covSeg (o : Lane)
  /-- COV_BIN (R425) -/
  | covBin (o : Lane)
  /-- ATL_REQ (R426) -/
  | atlReq (o : Lane)
  /-- UPCALL_POST (R65) -/
  | upcallPost (u : UpcallReq)
  /-- QUADRANT_PICK (R116) -/
  | quadrantPick (hamper quadrant : Nat)
  /-- COURSE_BEGIN (R301) -/
  | courseBegin (coil strand : Nat)
  /-- LANE_LONG_COMPLETE (R120) -/
  | laneLongComplete (op : Nat)
  /-- LANE_ACCESS_FINISH (R153) -/
  | laneAccessFinish (op : Nat)
  /-- BTE_POLL (R221) -/
  | btePoll (q : Nat)
  /-- BTE_CHUNK (R226) -/
  | bteChunk (q number k : Nat)
  /-- MX_K_STEP (R396) -/
  | mxKStep (op : Nat)
  /-- MX_CBLD_COMPLETE (R399) -/
  | mxCbldComplete (op : Nat)
  /-- MX_CLR_COMPLETE (R400) -/
  | mxClrComplete (op : Nat)
  /-- MX_DRAIN_COMPLETE (R403) -/
  | mxDrainComplete (op : Nat)
  /-- DEFERRED_TRAP (R392) -/
  | deferredTrap (t : DeferredTrap)
  /-- RAY_LANE_COMPLETE (R418) -/
  | rayLaneComplete (op : Nat)
  /-- BEAM_COMPLETE (R419) -/
  | beamComplete (op : Nat)
  /-- BUILD_COMPLETE (R421) -/
  | buildComplete (op : Nat)
  /-- REFIT_COMPLETE (R421) -/
  | refitComplete (op : Nat)
  /-- COV_OP_COMPLETE (R422) -/
  | covOpComplete (op : Nat)
  /-- COIL_PLACE (R104) -/
  | coilPlace
  /-- LAUNCH_ACCEPT (R86) -/
  | launchAccept (q : Nat)
  /-- COIL_SAVE (R131) -/
  | coilSave (coil : Nat)
  /-- COIL_RESTORE (R135) -/
  | coilRestore (coil : Nat)
  /-- WATCHDOG_INSN_EXPIRY (R138) -/
  | watchdogInsnExpiry (coil : Nat)
  /-- WATCHDOG_TIME_EXPIRY (R138) -/
  | watchdogTimeExpiry (coil : Nat)
  /-- SCANNER_POLL (R80) -/
  | scannerPoll (q : Nat)
  /-- WORKER_ASSIGN (R81) -/
  | workerAssign
  /-- WAIT_PACKET_POLL (R90) -/
  | waitPacketPoll (q : Nat)
  /-- NOP_PACKET (R83) -/
  | nopPacket (q : Nat)
  /-- LAUNCH (R86) -/
  | launch (q : Nat)
  /-- INDIRECT (R87) -/
  | indirect (q : Nat)
  /-- PREDICATE (R88) -/
  | predicate (q : Nat)
  /-- LOOP (R89) -/
  | loop (q : Nat)
  /-- WAIT_PACKET (R90) -/
  | waitPacket (q : Nat)
  /-- SIGNAL (R91) -/
  | signal (q : Nat)
  /-- FETCH_FENCE (R92) -/
  | fetchFence (q : Nat)
  /-- BANK_ROLE_CHANGE (R147) -/
  | bankRoleChange (hamper bank : Nat)
  /-- PLY_RGN_RETIRE (R189) -/
  | plyRgnRetire (i : Nat)
  /-- PWR_MODE_CHANGE (R18) -/
  | pwrModeChange
  /-- WAIT_MEM_RECHECK (R344) -/
  | waitMemRecheck (p : PathId)
  /-- CP_WAIT_RECHECK (R414) -/
  | cpWaitRecheck (p : PathId)
  /-- BTE_DRAIN_EXPIRY (R229) -/
  | bteDrainExpiry (q : Nat)
  /-- PICKER_FREE (R205) -/
  | pickerFree
  /-- TWAIT_HINT_EXPIRY (R129) -/
  | twaitHintExpiry (p : PathId)
  /-- MODULE_RESET (R29) -/
  | moduleReset
  /-- FLR (R29) -/
  | flr
  /-- BOOT_STAGE_ADVANCE (R30) -/
  | bootStageAdvance (selfTestOk trainOk : Bool)
  /-- HST_RECOVER_GO (R33) -/
  | hstRecoverGo
  /-- PING (R70) -/
  | ping (r : MbxReq)
  /-- MBX_ALLOC (R70) -/
  | mbxAlloc (r : MbxReq)
  /-- MBX_FREE (R70) -/
  | mbxFree (r : MbxReq)
  /-- QUEUE_OPEN (R95) -/
  | queueOpen (r : MbxReq)
  /-- QUEUE_CLOSE (R70) -/
  | queueClose (r : MbxReq)
  /-- MBX_UNKNOWN_KIND (R70) -/
  | mbxUnknownKind (r : MbxReq)
  /-- GET_VERSION (R35) -/
  | getVersion (r : SpdmReq)
  /-- GET_CAPABILITIES (R35) -/
  | getCapabilities (r : SpdmReq)
  /-- NEGOTIATE_ALGORITHMS (R36) -/
  | negotiateAlgorithms (r : SpdmReq)
  /-- GET_DIGESTS (R35) -/
  | getDigests (r : SpdmReq)
  /-- GET_CERTIFICATE (R36) -/
  | getCertificate (r : SpdmReq)
  /-- CHALLENGE (R35) -/
  | challenge (r : SpdmReq)
  /-- GET_MEASUREMENTS (R37) -/
  | getMeasurements (r : SpdmReq)
  /-- KEY_EXCHANGE (R35) -/
  | keyExchange (r : SpdmReq)
  /-- FINISH (R35) -/
  | finish (r : SpdmReq)
  /-- HEARTBEAT (R35) -/
  | heartbeat (r : SpdmReq)
  /-- KEY_UPDATE (R35) -/
  | keyUpdate (r : SpdmReq)
  /-- END_SESSION (R35) -/
  | endSession (r : SpdmReq)
  /-- SPDM_UNSUPPORTED_REQUEST (R35) -/
  | spdmUnsupportedRequest (r : SpdmReq)
  /-- DOE_ABORT (R30) -/
  | doeAbort
  /-- HOST_BAR2_READ (R26) -/
  | hostBar2Read (off size : Nat)
  /-- HOST_BAR2_WRITE (R26) -/
  | hostBar2Write (off : Nat) (w : Bar2Req)
  /-- HOST_ATS_INVALIDATE (R143) -/
  | hostAtsInvalidate (page : Nat)
  /-- HOST_WINDOW_TIMEOUT (R143) -/
  | hostWindowTimeout (req : Nat)
  /-- HOST_WINDOW_COMPLETION (R143) -/
  | hostWindowCompletion (req : Nat) (status : CplStatus) (data : List Byte)
  /-- PWR_MODE_WRITE (R18) -/
  | pwrModeWrite (value : W32)
  /-- LIMITER_LOWER (R19) -/
  | limiterLower (p : PowerReading)
  /-- LIMITER_RAISE (R19) -/
  | limiterRaise (p : PowerHistory)
  /-- CURRENT_TRIP (R19) -/
  | currentTrip
  /-- THERMAL_THROTTLE (R23) -/
  | thermalThrottle (above : Bool)
  /-- HBM_HOT_REFRESH (R23) -/
  | hbmHotRefresh (above : Bool)
  /-- THERMAL_TRIP (R23) -/
  | thermalTrip
  /-- HEALTH_REFRESH (R21) -/
  | healthRefresh (h : HealthReading)
  /-- REMOTE_READ (R42) -/
  | remoteRead (r : FabReq)
  /-- REMOTE_WRITE (R48) -/
  | remoteWrite (r : FabReq)
  /-- REMOTE_ATOMIC (R52) -/
  | remoteAtomic (r : FabReq)
  /-- FABRIC_RESPONSE (R48) -/
  | fabricResponse (req : Nat) (status : FabStatus) (data : List Byte) (flags : BitVec 5)
  /-- BACK_INVALIDATE (R50) -/
  | backInvalidate (home line : Nat)
  /-- BI_TIMEOUT (R51) -/
  | biTimeout (line holder : Nat)
  /-- FABRIC_TIMEOUT (R54) -/
  | fabricTimeout (req : Nat)
  /-- PORT_NARROW (R45) -/
  | portNarrow (q : Nat)
  /-- PORT_DOWN (R45) -/
  | portDown (q : Nat)
  /-- PORT_REMAP (R45) -/
  | portRemap (q : Nat)
  /-- HOME_PATH_LOSS (R51) -/
  | homePathLoss (home : Nat)
  /-- RDMA_WRITE_ARRIVAL (R60) -/
  | rdmaWriteArrival (r : RdmaReq)
  /-- RDMA_READ_ARRIVAL (R57) -/
  | rdmaReadArrival (r : RdmaReq)
  /-- QP_RETRY_LIMIT (R59) -/
  | qpRetryLimit (pod conn : Nat)
  /-- CONGESTION_NOTIFICATION (R59) -/
  | congestionNotification (conn : Nat)
  /-- QP_RATE_RECOVER (R59) -/
  | qpRateRecover (conn : Nat)
  /-- YOKE_MEMORY_ACCESS (R61) -/
  | yokeMemoryAccess (a : YokeAccess)
  /-- YOK_UPC_DONE (R66) -/
  | yokUpcDone (index : W32)
  /-- YOK_FLT_RESUME (R69) -/
  | yokFltResume (index : W32) (deny : Bool)
  /-- YOK_SVN_COMMIT (R71) -/
  | yokSvnCommit (kind : BitVec 3)
  /-- YOK_MEAS_EXTEND (R72) -/
  | yokMeasExtend (hart : Nat) (index : BitVec 3)
  /-- YOK_RING_ENABLE (R63) -/
  | yokRingEnable (fault : Bool) (value : W64)
  /-- REGISTER_WRITE (R453) -/
  | registerWrite (hart pa size : Nat) (value : W64)
  /-- REGISTER_READ_CLEAR (R4) -/
  | registerReadClear (pa size : Nat)
  /-- QRC_OPEN (R79) -/
  | qrcOpen (q : Nat)
  /-- QRC_CLOSE (R79) -/
  | qrcClose (q : Nat)
  /-- LOCKSTEP_MISMATCH (R82) -/
  | lockstepMismatch (withinMs : Bool)
  /-- TIME_SLICE_EXPIRY (R130) -/
  | timeSliceExpiry (coil : Nat)
  /-- COIL_RESUME (R138) -/
  | coilResume
  /-- COIL_KILL (R138) -/
  | coilKill
  /-- URGENCY_UPDATE (R117) -/
  | urgencyUpdate (coil : Nat)
  /-- PAGE_WALK (R154) -/
  | pageWalk (asid : Nat) (va : W64) (kind : AccessKind)
  /-- TLB_INV_PAGE (R156) -/
  | tlbInvPage (asid : Nat) (va : W64)
  /-- TLB_INV_ASID (R156) -/
  | tlbInvAsid (asid : Nat)
  /-- TLB_INV_ALL (R156) -/
  | tlbInvAll
  /-- BANK_ROLE_WRITE (R147) -/
  | bankRoleWrite (hamper : Nat) (value : W64)
  /-- UNCORRECTABLE_ERROR (R160) -/
  | uncorrectableError (site : ErrorSite)
  /-- CE_THRESHOLD (R161) -/
  | ceThreshold (channel rate : Nat)
  /-- PATROL_SCRUB (R159) -/
  | patrolScrub
  /-- PLY_RGN_DECLARE (R187) -/
  | plyRgnDeclare (i : Nat) (value : W64)
  /-- PLY_SLOT_WAIT_REVOKE (R206) -/
  | plySlotWaitRevoke
  /-- PLY_REVOKE_TIMER (R206) -/
  | plyRevokeTimer
  /-- BTE_OPEN (R231) -/
  | bteOpen (q : Nat)
  /-- BTE_CLOSE (R231) -/
  | bteClose (q : Nat)
  /-- BTE_MOVE (R231) -/
  | bteMove (q engine : Nat)
  /-- FWX_TRAP_RETRY (R262) -/
  | fwxTrapRetry (index : W32)
  /-- FWX_TRAP_SKIP (R262) -/
  | fwxTrapSkip (index : W32)
  /-- FWX_TRAP_RETRY_OTHERS (R262) -/
  | fwxTrapRetryOthers (index : W32)
  /-- FWX_TRAP_KILL (R262) -/
  | fwxTrapKill (index : W32)
  /-- DBG_STOP (R270) -/
  | dbgStop
  /-- DBG_RESUME (R272) -/
  | dbgResume
  /-- DBG_STEP (R272) -/
  | dbgStep
  /-- PC_SAMPLE (R275) -/
  | pcSample (hamper : Nat)
  /-- TRACE_LOSS_RECOVER (R281) -/
  | traceLossRecover (hamper : Nat)
  /-- TRACE_BLOCK_FLUSH (R277) -/
  | traceBlockFlush (hamper : Nat)
  /-- PREEMPT_PRIORITY (R130) -/
  | preemptPriority
  /-- MAILBOX_POLL (R28) -/
  | mailboxPoll
  /-- UALINK_PORT_TRAINING (R46) -/
  | ualinkPortTraining (q : Nat) (ext : Bool)
  /-- CONFIGURATION_REQUEST (R30) -/
  | configurationRequest (r : ConfigReq)
  /-- IDE_KM_REQUEST (R24) -/
  | ideKmRequest (r : IdeReq)
  /-- BI_ACKNOWLEDGEMENT (R50) -/
  | biAcknowledgement (line holder : Nat)
  /-- RDMA_RESPONSE_ARRIVAL (R57) -/
  | rdmaResponseArrival (r : RdmaResp)
  deriving DecidableEq, Repr

end Sys2Proof
end

