-- ==== Sys2Proof/Machine/Forms.lean ====
section
/-! DEFINITION. Which field values of each instruction are defined (R290, R293-R303 and the instruction chapters), the class and
the roles of each lane instruction (R302, R303, R108). -/

namespace Sys2Proof.Machine

open Sys2Proof

/-- Width in bits of a TYPE code (R296). -/
def tyWidth (t : Nat) : Nat :=
  match t with
  | 0 => 8 | 1 => 16 | 2 => 32 | 3 => 64 | 4 => 8 | 5 => 16 | 6 => 32 | 7 => 64
  | 8 => 16 | 9 => 16 | 10 => 32 | 11 => 64 | 12 => 8 | 13 => 8 | 14 => 4 | _ => 8

/-- An integer TYPE. -/
def tyInt (t : Nat) : Bool := t < 8
/-- A signed integer TYPE. -/
def tySigned (t : Nat) : Bool := decide (4 ≤ t) && decide (t < 8)
/-- A floating TYPE of lane arithmetic (R361). -/
def tyFloat (t : Nat) : Bool := decide (8 ≤ t) && decide (t < 12)

/-- What a specifier field of word 1 may hold (R297, R299). -/
inductive FieldKind where
  | unused
  /-- A lane operand that is read. -/
  | src
  /-- A lane operand that is read and may not be the immediate. -/
  | srcNoImm
  /-- A lane destination. -/
  | dst
  /-- v or t register. -/
  | vOrT
  /-- v0 to the given number. -/
  | vreg (max : Nat)
  /-- k1 to k15 or `em`. -/
  | mask
  /-- From lo to hi. -/
  | range (lo hi : Nat)
  | scalar
  | tile
  deriving DecidableEq, Repr

/-- Whether a field holds a value that its kind allows. -/
def fieldOk (k : FieldKind) (x : Nat) : Bool :=
  match k with
  | .unused => x == 0
  | .src => true
  | .srcNoImm => x != 0xFF
  | .dst => decide (x ≤ 0xF7) || x == 0xFD
  | .vOrT => decide (x ≤ 0xF7)
  | .vreg m => decide (x ≤ m)
  | .mask => decide (1 ≤ x) && decide (x ≤ 0x10)
  | .range lo hi => decide (lo ≤ x) && decide (x ≤ hi)
  | .scalar => decide (x < 0x40)
  | .tile => decide (x < 0x10)

/-- Whether a field of this kind reads a lane operand. -/
def FieldKind.reads : FieldKind → Bool
  | .src => true
  | .srcNoImm => true
  | _ => false

/-- Latency classes (R302). -/
inductive Latency where
  | short | long | async
  deriving DecidableEq, Repr

/-- What an opcode says of its fields. -/
structure Form where
  d : FieldKind := .unused
  a : FieldKind := .unused
  b : FieldKind := .unused
  c : FieldKind := .unused
  /-- Word 2 holds an offset or selectors. -/
  sel : Bool := false
  /-- The conditions on TYPE, SUBOP, MOD and word 2. -/
  ok : Bool := true
  lat : Latency := .short
  /-- Roles that may issue it: 1 copy, 2 matrix, 4 vector. -/
  roles : Nat := 7

/-- RED and IDX of a compare are defined (R358). -/
def cmpModOk (e mod : Nat) : Bool :=
  let red := bits mod 4 3
  let idx := bits mod 2 0
  bits mod 6 5 == 0 && red != 3 && (if red == 0 then decide (idx < 64 / e) else idx == 0)

/-- ORD, SCOPE and SHAPE fields (R372). -/
def ordOf (mod : Nat) : Nat := bits mod 6 4
def scopeOf (mod : Nat) : Nat := bits mod 3 1
def shapeOf (mod : Nat) : Nat := bits mod 0 0

/-- ORD is accepted, and SCOPE fits it (R372). -/
def ordOk (accepted : List Nat) (atomic : Bool) (mod : Nat) : Bool :=
  accepted.contains (ordOf mod) && decide (scopeOf mod ≤ 4) && (atomic || ordOf mod != 0 || scopeOf mod == 0)

/-- TYPE accepted by an atomic operation (R377). -/
def atomTypeOk (sub t : Nat) : Bool :=
  if sub ≤ 2 then t == 2 || t == 3 || t == 6 || t == 7
  else if sub ≤ 7 then t == 2 || t == 3
  else if sub == 8 then tyFloat t
  else if sub ≤ 10 then t == 10 || t == 11
  else false

/-- Number of elements a conversion moves and its ratio of widths (R364). -/
def cvtCount (es ed : Nat) : Nat := 64 / max es ed
def cvtRatio (es ed : Nat) : Nat := max es ed / min es ed

/-- The narrow formats of R365. -/
def isNarrow (t : Nat) : Bool := t == 12 || t == 13 || t == 14
/-- The wide formats of R365. -/
def isWide (t : Nat) : Bool := t == 8 || t == 9 || t == 10

/-- The form of lane opcode `op` with the fields `o`: none for a reserved opcode (R303). -/
def laneForm (op : Nat) (o : Lane) : Option Form :=
  let ty := o.ty.toNat
  let sub := o.sub.toNat
  let mod := o.mod.toNat
  let e := tyWidth ty
  let w2 := o.imm.toNat
  let plain := sub == 0 && mod == 0
  let int := tyInt ty
  let fl := tyFloat ty
  let rnd := decide (sub ≤ 3) && mod == 0
  match op with
  | 0x01 | 0x02 | 0x03 | 0x04 | 0x06 | 0x07 | 0x0A | 0x0B | 0x10 | 0x11 | 0x12 | 0x14 | 0x15 =>
    some { d := .dst, a := .src, b := .src, ok := plain && int }
  | 0x05 | 0x0E => some { d := .dst, a := .src, b := .src, c := .src, ok := plain && int }
  | 0x08 => some { d := .dst, a := .src, ok := plain && tySigned ty }
  | 0x09 | 0x13 | 0x18 | 0x19 => some { d := .dst, a := .src, ok := plain && int }
  | 0x0C | 0x0D => some { d := .dst, a := .src, b := .src, ok := plain && int, lat := .long }
  | 0x0F => some { d := .dst, a := .src, b := .src, c := .src, ok := plain && (ty == 0 || ty == 4) }
  | 0x16 =>
    some { d := .dst, a := .src, sel := true,
           ok := plain && int && bits w2 7 6 == 0 && bits w2 31 15 == 0 && decide (1 ≤ bits w2 14 8)
                   && decide (bits w2 5 0 + bits w2 14 8 ≤ e) }
  | 0x17 =>
    some { d := .dst, a := .src, b := .src, sel := true,
           ok := plain && int && bits w2 7 6 == 0 && bits w2 31 15 == 0 && decide (1 ≤ bits w2 14 8)
                   && decide (bits w2 5 0 + bits w2 14 8 ≤ e) }
  | 0x1A => some { d := .mask, a := .src, b := .src, ok := decide (sub ≤ 5) && int && cmpModOk e mod }
  | 0x1B => some { d := .mask, a := .src, b := .src, ok := decide (sub ≤ 1) && int && cmpModOk e mod }
  | 0x20 | 0x21 | 0x22 => some { d := .dst, a := .src, b := .src, ok := rnd && fl, roles := 4 }
  | 0x23 => some { d := .dst, a := .src, b := .src, c := .src, ok := rnd && fl, roles := 4 }
  | 0x24 | 0x25 | 0x2A => some { d := .dst, a := .src, b := .src, ok := plain && fl, roles := 4 }
  | 0x26 | 0x27 | 0x2B => some { d := .dst, a := .src, ok := plain && fl, roles := 4 }
  | 0x28 => some { d := .dst, a := .src, b := .src, ok := decide (sub ≤ 2) && mod == 0 && fl, roles := 4 }
  | 0x29 => some { d := .dst, a := .src, ok := decide (sub ≤ 3) && decide (mod ≤ 1) && fl, roles := 4 }
  | 0x2C => some { d := .dst, a := .src, b := .src, ok := rnd && fl, lat := .long, roles := 4 }
  | 0x2D => some { d := .dst, a := .src, ok := rnd && fl, lat := .long, roles := 4 }
  | 0x2E | 0x2F | 0x30 | 0x31 | 0x32 | 0x33 => some { d := .dst, a := .src, ok := plain && fl, lat := .long, roles := 4 }
  | 0x40 => some { d := .mask, a := .src, b := .src, ok := decide (sub ≤ 7) && fl && cmpModOk e mod, roles := 4 }
  | 0x48 => some { d := .dst, a := .src, ok := sub == 0 && bits mod 6 4 == 0, roles := 4 }
  | 0x49 =>
    let es := tyWidth (bits mod 3 0)
    some { d := .dst, a := .src, ok := bits mod 6 4 == 0 && decide (e < es) && decide (sub < cvtRatio es e), roles := 4 }
  | 0x4A =>
    let es := tyWidth (bits mod 3 0)
    some { d := .dst, a := .src, ok := bits mod 6 4 == 0 && decide (es < e) && decide (sub < cvtRatio es e), roles := 4 }
  | 0x4B =>
    let s := bits mod 3 0
    let es := tyWidth s
    some { d := .dst, a := .src, b := .src, sel := true,
           ok := bits mod 6 5 == 0 && bits w2 31 3 == 0 && decide (sub < cvtRatio es e)
                   && (if bit mod 4 then isWide s && isNarrow ty else isNarrow s && isWide ty), roles := 4 }
  | 0x58 =>
    if sub == 1 then some { d := .dst, ok := mod == 0 && ty == 3 }
    else some { d := .dst, a := .src, ok := plain && decide (ty ≤ 3) }
  | 0x59 => some { d := .dst, a := .src, b := .src, c := .mask, ok := plain && decide (ty ≤ 3) }
  | 0x5A =>
    if sub == 1 then some { d := .mask, a := .src, ok := mod == 0 && ty == 3 }
    else some { d := .dst, a := .mask, ok := plain && ty == 3 }
  | 0x60 => some { d := .dst, a := .src, b := .src, ok := plain && decide (ty ≤ 3) }
  | 0x61 =>
    some { d := .dst, a := .src, sel := true,
           ok := plain && decide (ty ≤ 3) && bits w2 7 6 == 0 && bits w2 31 14 == 0 && decide (bits w2 13 8 < 64 / e) }
  | 0x62 => some { d := .dst, a := .src, sel := true, ok := decide (sub ≤ 2) && mod == 0 && ty == 3 && bits w2 31 7 == 0 }
  | 0x63 => some { d := .scalar, a := .src, ok := decide (sub ≤ 3) && mod == 0 && ty == 3 }
  | 0x64 =>
    if int then some { d := .scalar, a := .src, ok := decide (sub ≤ 5) && mod == 0 }
    else some { d := .scalar, a := .src, ok := decide (sub ≤ 2) && mod == 0 && (ty == 10 || ty == 11), roles := 4 }
  | 0x65 => some { d := .dst, a := .src, ok := decide (sub ≤ 5) && decide (mod ≤ 1) && int }
  | 0x66 => some { d := .scalar, a := .src, sel := true, ok := plain && ty == 3 && bits w2 31 6 == 0 }
  | 0x67 => some { d := .dst, a := .scalar, ok := plain && decide (ty ≤ 3) }
  | 0x68 => some { d := .dst, a := .src, sel := true, ok := plain && int && decide (w2 < 64 / e) }
  | 0x69 => some { d := .dst, a := .src, sel := true, ok := plain && decide (ty ≤ 3) && decide (w2 < 64 / e) }
  | 0x70 => some { a := .src, ok := plain && ty == 1 && o.msel.toNat == 0 && !o.mneg, roles := 4 }
  | 0x80 =>
    let m := bits sub 1 0
    some { d := .dst, a := if m == 2 then .vOrT else .src, b := if m == 1 then .src else .unused, sel := true, lat := .long,
           ok := decide (sub ≤ 2) && ordOk [0, 1, 4] false mod && (shapeOf mod == 1 || ty != 14)
                   && (m != 1 || bits w2 31 28 == 0) && (m != 2 || bits w2 31 18 == 0) && (m != 2 || o.d != o.a) }
  | 0x90 =>
    let m := bits sub 1 0
    some { a := if m == 2 then .vOrT else .src, b := if m == 1 then .src else .unused, c := .src, sel := true,
           ok := decide (sub ≤ 2) && ordOk [0, 2, 4] false mod && (shapeOf mod == 1 || ty != 14)
                   && (m != 1 || bits w2 31 28 == 0) && (m != 2 || bits w2 31 18 == 0) }
  | 0xA0 =>
    some { d := .dst, a := .src, c := .src, sel := true, lat := .long,
           ok := ordOk [0, 1, 2, 3, 4] true mod && shapeOf mod == 0 && atomTypeOk sub ty }
  | 0xA1 =>
    some { a := .src, c := .src, sel := true,
           ok := ordOk [0, 2] true mod && shapeOf mod == 0 && atomTypeOk sub ty && sub != 6 && sub != 7 }
  | 0xB0 => some { a := .src, b := .src, c := .src, sel := true, lat := .async, ok := decide (sub ≤ 3) && ty == 3 && mod == 0,
                   roles := 5 }
  | 0xB1 => some { a := .src, sel := true,
                   ok := sub == 0 && ty == 3 && shapeOf mod == 0 && ordOk [0, 2] false mod && bits w2 31 5 == 0 }
  | 0xB2 => some { d := .dst, sel := true, lat := .long,
                   ok := sub == 0 && ty == 3 && shapeOf mod == 0 && ordOk [0, 1] false mod && bits w2 31 5 == 0 }
  | 0xC0 => some { d := .dst, a := .tile, sel := true, lat := .long, roles := 2,
                   ok := plain && ty == 3 && bits w2 7 6 == 0 && bits w2 31 13 == 0 }
  | 0xC1 => some { d := .dst, a := .tile, sel := true, lat := .long, roles := 2,
                   ok := decide (sub ≤ 1) && mod == 0 && ty == 3
                           && (if sub == 1 then w2 == 0 else bits w2 7 6 == 0 && bits w2 31 13 == 0) }
  | 0xC2 => some { d := .tile, a := .src, sel := true, roles := 2,
                   ok := plain && ty == 3 && bits w2 7 6 == 0 && bits w2 31 13 == 0 }
  | 0xC8 => some { d := .vreg 0xEE, a := .vreg 0xEE, b := .srcNoImm, lat := .async, roles := 4,
                   ok := sub == 0 && ty == 10 && decide (mod < 8) }
  | 0xC9 => some { a := .srcNoImm, b := .srcNoImm, c := .srcNoImm, lat := .async, roles := 4, ok := plain && ty == 3 }
  | 0xCC => some { d := .range 0 0xF, a := .vreg (0xEF - sub), b := .srcNoImm, c := .srcNoImm, lat := .long, roles := 4,
                   ok := decide (1 ≤ sub) && decide (sub ≤ 3) && mod == 0 && (ty == 6 || ty == 10) }
  | 0xCD => some { d := .range 1 0xE, a := .vreg (0xEF - sub), b := .src, c := .src, lat := .long, roles := 4,
                   ok := decide (1 ≤ sub) && decide (sub ≤ 3) && mod == 0 && (ty == 6 || ty == 10) }
  | 0xD0 => some { d := .range 1 0xF, a := .src, b := .srcNoImm, sel := true, lat := .long, roles := 4,
                   ok := plain && ty == 3 && bits w2 31 5 == 0 }
  | _ => none

/-- A field that reads a lane operand names the immediate. -/
def namesImm (k : FieldKind) (x : Byte) : Bool := k.reads && x == 0xFF

/-- The fields `o` are a defined encoding of opcode `op` (R295, R298, R299, R302, R303). -/
def laneDefined (op : Nat) (o : Lane) : Bool :=
  match laneForm op o with
  | none => false
  | some f =>
    let imm := namesImm f.a o.a || namesImm f.b o.b || namesImm f.c o.c
    f.ok && !(o.mneg && o.msel == 0) && fieldOk f.d o.d.toNat && fieldOk f.a o.a.toNat && fieldOk f.b o.b.toNat
      && fieldOk f.c o.c.toNat && (f.lat == .long || o.la == 0)
      && (if f.sel then !imm else imm || o.imm == 0)

/-- A slot of a trailer: listed slots hold a register of their kind, the others are zero (R300). -/
def slotOk (n kind : Nat) (slots : W64) (i : Nat) : Bool :=
  let x := elem 8 i slots
  if i < n then (if bit kind i then decide (1 ≤ x) && decide (x ≤ 0x10) else decide (x ≤ 0xEF))
  else x == 0 && !bit kind i

/-- A defined trailer (R300). -/
def trailerDefined (n : BitVec 4) (kind : Byte) (slots : W64) : Bool :=
  decide (n.toNat ≤ 8) && (upFrom 0 8).all (slotOk n.toNat kind.toNat slots)

/-- The special registers that exist (R345). -/
def specialExists (n : Nat) : Bool :=
  decide (n ≤ 4) || (decide (8 ≤ n) && decide (n ≤ 0x1E))

/-- The FMT and SCL fields of an `mx` form, and its register group (R393). -/
def mxFieldsOk (a : BitVec 6) (l : Bool) (f : BitVec 4) : Bool :=
  let fmt := f.toNat
  decide (a.toNat ≤ 60) && decide (fmt ≤ 11) && (!l || ((decide (4 ≤ fmt) && decide (fmt ≤ 7)) || fmt == 10 || fmt == 11))

/-- SRC of a `ply` form: `.new` and `.bolt` use no sa (R427). -/
def plySrcOk (a : BitVec 6) (c : BitVec 2) : Bool := c != 3 && (c == 2 || a == 0)

end Sys2Proof.Machine

namespace Sys2Proof.Machine

open Sys2Proof

/-- The lane opcode and the fields of a lane instruction (R303). -/
def laneParts : Instr → Option (Nat × Lane)
  | .vAdd o => some (0x01, o)
  | .vSub o => some (0x02, o)
  | .vMul o => some (0x03, o)
  | .vMulh o => some (0x04, o)
  | .vMad o => some (0x05, o)
  | .vMin o => some (0x06, o)
  | .vMax o => some (0x07, o)
  | .vAbs o => some (0x08, o)
  | .vNeg o => some (0x09, o)
  | .vAdds o => some (0x0A, o)
  | .vSubs o => some (0x0B, o)
  | .vDiv o => some (0x0C, o)
  | .vRem o => some (0x0D, o)
  | .vSad o => some (0x0E, o)
  | .vDot4 o => some (0x0F, o)
  | .vAnd o => some (0x10, o)
  | .vOr o => some (0x11, o)
  | .vXor o => some (0x12, o)
  | .vNot o => some (0x13, o)
  | .vShl o => some (0x14, o)
  | .vShr o => some (0x15, o)
  | .vBfx o => some (0x16, o)
  | .vBfi o => some (0x17, o)
  | .vPopc o => some (0x18, o)
  | .vClz o => some (0x19, o)
  | .vCmp o => some (0x1A, o)
  | .vTest o => some (0x1B, o)
  | .vFadd o => some (0x20, o)
  | .vFsub o => some (0x21, o)
  | .vFmul o => some (0x22, o)
  | .vFma o => some (0x23, o)
  | .vFmin o => some (0x24, o)
  | .vFmax o => some (0x25, o)
  | .vFabs o => some (0x26, o)
  | .vFneg o => some (0x27, o)
  | .vFsgn o => some (0x28, o)
  | .vFint o => some (0x29, o)
  | .vFscl o => some (0x2A, o)
  | .vFcls o => some (0x2B, o)
  | .vFdiv o => some (0x2C, o)
  | .vFsqrt o => some (0x2D, o)
  | .vFrcp o => some (0x2E, o)
  | .vFrsq o => some (0x2F, o)
  | .vFexp2 o => some (0x30, o)
  | .vFlog2 o => some (0x31, o)
  | .vFsin o => some (0x32, o)
  | .vFcos o => some (0x33, o)
  | .vFcmp o => some (0x40, o)
  | .vCvt o => some (0x48, o)
  | .vPack o => some (0x49, o)
  | .vUnpack o => some (0x4A, o)
  | .vBscl o => some (0x4B, o)
  | .vMov o => some (0x58, o)
  | .vSel o => some (0x59, o)
  | .vKmov o => some (0x5A, o)
  | .vShfl o => some (0x60, o)
  | .vBcast o => some (0x61, o)
  | .vRot o => some (0x62, o)
  | .vVote o => some (0x63, o)
  | .vSred o => some (0x64, o)
  | .vScan o => some (0x65, o)
  | .vTos o => some (0x66, o)
  | .vFroms o => some (0x67, o)
  | .vXtr o => some (0x68, o)
  | .vIns o => some (0x69, o)
  | .reorder o => some (0x70, o)
  | .vLd o => some (0x80, o)
  | .vSt o => some (0x90, o)
  | .vAtom o => some (0xA0, o)
  | .vRed o => some (0xA1, o)
  | .vCpa o => some (0xB0, o)
  | .vFpush o => some (0xB1, o)
  | .vFpop o => some (0xB2, o)
  | .mxPeek o => some (0xC0, o)
  | .mxRd o => some (0xC1, o)
  | .mxWr o => some (0xC2, o)
  | .rqRay o => some (0xC8, o)
  | .rqBeam o => some (0xC9, o)
  | .covSeg o => some (0xCC, o)
  | .covBin o => some (0xCD, o)
  | .atlReq o => some (0xD0, o)
  | _ => none

/-- The lane instruction of an opcode (R303). -/
def laneInstr (op : Nat) (o : Lane) : Option Instr :=
  match op with
  | 0x01 => some (.vAdd o)
  | 0x02 => some (.vSub o)
  | 0x03 => some (.vMul o)
  | 0x04 => some (.vMulh o)
  | 0x05 => some (.vMad o)
  | 0x06 => some (.vMin o)
  | 0x07 => some (.vMax o)
  | 0x08 => some (.vAbs o)
  | 0x09 => some (.vNeg o)
  | 0x0A => some (.vAdds o)
  | 0x0B => some (.vSubs o)
  | 0x0C => some (.vDiv o)
  | 0x0D => some (.vRem o)
  | 0x0E => some (.vSad o)
  | 0x0F => some (.vDot4 o)
  | 0x10 => some (.vAnd o)
  | 0x11 => some (.vOr o)
  | 0x12 => some (.vXor o)
  | 0x13 => some (.vNot o)
  | 0x14 => some (.vShl o)
  | 0x15 => some (.vShr o)
  | 0x16 => some (.vBfx o)
  | 0x17 => some (.vBfi o)
  | 0x18 => some (.vPopc o)
  | 0x19 => some (.vClz o)
  | 0x1A => some (.vCmp o)
  | 0x1B => some (.vTest o)
  | 0x20 => some (.vFadd o)
  | 0x21 => some (.vFsub o)
  | 0x22 => some (.vFmul o)
  | 0x23 => some (.vFma o)
  | 0x24 => some (.vFmin o)
  | 0x25 => some (.vFmax o)
  | 0x26 => some (.vFabs o)
  | 0x27 => some (.vFneg o)
  | 0x28 => some (.vFsgn o)
  | 0x29 => some (.vFint o)
  | 0x2A => some (.vFscl o)
  | 0x2B => some (.vFcls o)
  | 0x2C => some (.vFdiv o)
  | 0x2D => some (.vFsqrt o)
  | 0x2E => some (.vFrcp o)
  | 0x2F => some (.vFrsq o)
  | 0x30 => some (.vFexp2 o)
  | 0x31 => some (.vFlog2 o)
  | 0x32 => some (.vFsin o)
  | 0x33 => some (.vFcos o)
  | 0x40 => some (.vFcmp o)
  | 0x48 => some (.vCvt o)
  | 0x49 => some (.vPack o)
  | 0x4A => some (.vUnpack o)
  | 0x4B => some (.vBscl o)
  | 0x58 => some (.vMov o)
  | 0x59 => some (.vSel o)
  | 0x5A => some (.vKmov o)
  | 0x60 => some (.vShfl o)
  | 0x61 => some (.vBcast o)
  | 0x62 => some (.vRot o)
  | 0x63 => some (.vVote o)
  | 0x64 => some (.vSred o)
  | 0x65 => some (.vScan o)
  | 0x66 => some (.vTos o)
  | 0x67 => some (.vFroms o)
  | 0x68 => some (.vXtr o)
  | 0x69 => some (.vIns o)
  | 0x70 => some (.reorder o)
  | 0x80 => some (.vLd o)
  | 0x90 => some (.vSt o)
  | 0xA0 => some (.vAtom o)
  | 0xA1 => some (.vRed o)
  | 0xB0 => some (.vCpa o)
  | 0xB1 => some (.vFpush o)
  | 0xB2 => some (.vFpop o)
  | 0xC0 => some (.mxPeek o)
  | 0xC1 => some (.mxRd o)
  | 0xC2 => some (.mxWr o)
  | 0xC8 => some (.rqRay o)
  | 0xC9 => some (.rqBeam o)
  | 0xCC => some (.covSeg o)
  | 0xCD => some (.covBin o)
  | 0xD0 => some (.atlReq o)
  | _ => none

/-- Whether the fields of an instruction are defined for it (R290-R303 and the instruction chapters). Events carry no fields. -/
def instrDefined (i : Instr) : Bool :=
  match i with
  | .atom _ _ _ _ s _ => decide (s.toNat ≤ 4)
  | .b c _ => decide (c.toNat < 15)
  | .waitPath _ c => decide (c.toNat ≤ 6)
  | .waitMx _ s => decide (s.toNat ≤ 4)
  | .waitTrv _ s => decide (s.toNat ≤ 4)
  | .waitCov _ s => decide (s.toNat ≤ 4)
  | .waitMem _ _ s => decide (s.toNat ≤ 4)
  | .srd _ n => specialExists n.toNat
  | .swr _ n => specialExists n.toNat
  | .fence s _ => decide (s.toNat ≤ 4)
  | .twait _ _ _ c => decide (c.toNat ≤ 11)
  | .mxMma _ a _ l f => mxFieldsOk a l f
  | .mxGang _ a _ l f => mxFieldsOk a l f
  | .mxDrain _ a _ _ _ => decide (a.toNat ≤ 56)
  | .cpPush _ _ b => decide (b.toNat ≤ 56)
  | .cpTest _ _ _ s => decide (s.toNat ≤ 4)
  | .cpWait _ _ _ s => decide (s.toNat ≤ 4)
  | .rqBuild _ a => decide (a.toNat ≤ 60)
  | .rqRefit _ a => decide (a.toNat ≤ 60)
  | .plyBegin _ a c => plySrcOk a c
  | .plyBeginCoil _ a c => plySrcOk a c
  | .plyStamp _ a c => plySrcOk a c
  | .crs a n off => decide (n.toNat ≤ 4) && decide (a.toNat + n.toNat ≤ 64) && (n != 0 || a == 0) && bits off.toNat 1 0 == 0
  | .upcall _ a _ => decide (a.toNat ≤ 60)
  | .courseTrailer n kind _ slots => trailerDefined n kind slots
  | i => match laneParts i with
    | some (op, o) => laneDefined op o
    | none => true

end Sys2Proof.Machine
end

