-- ==== Sys2Proof/WellFormed.lean ====
section
/-! DEFINITION. Well-formed instructions: every field holds a value that the spec defines for it (R290-R303). -/

namespace Sys2Proof

/-- An instruction whose encoding is defined (R294, R300, R303). -/
def Instr.wellFormed (i : Instr) : Bool := Machine.instrDefined i

/-- A row of the opcode table that has an encoding: every instruction but the events. -/
def Instr.encoded (i : Instr) : Bool :=
  decide (i.ctorIdx < 202)

end Sys2Proof
end

