-- ==== Sys2Proof/Decode.lean ====
section
/-! DEFINITION. The decoder of the scalar stream and of the lane stream, and the encoder beside it (R285-R303). -/

namespace Sys2Proof

open Sys2Proof.Machine

/-- Fields of a scalar word (R289). -/
def fSd (w : Nat) : BitVec 6 := BitVec.ofNat 6 (bits w 25 20)
def fSa (w : Nat) : BitVec 6 := BitVec.ofNat 6 (bits w 19 14)
def fSb (w : Nat) : BitVec 6 := BitVec.ofNat 6 (bits w 13 8)
def fImm (w : Nat) : BitVec 14 := BitVec.ofNat 14 (bits w 13 0)
def fOff (w : Nat) : BitVec 21 := BitVec.ofNat 21 (bits w 20 0)
def fKd (w : Nat) : BitVec 4 := BitVec.ofNat 4 (bits w 25 22)
def fKa (w : Nat) : BitVec 4 := BitVec.ofNat 4 (bits w 21 18)
def fKb (w : Nat) : BitVec 4 := BitVec.ofNat 4 (bits w 17 14)
/-- cond[24:21] of the SB format, a mask of `bz`, `bnz` and `split` (R292). -/
def fKc (w : Nat) : BitVec 4 := BitVec.ofNat 4 (bits w 24 21)
/-- fn[6:4] and fn[7:4] (R342, R386). -/
def fScope (w : Nat) : BitVec 3 := BitVec.ofNat 3 (bits w 6 4)
def fHi4 (w : Nat) : BitVec 4 := BitVec.ofNat 4 (bits w 7 4)
def fLo4 (w : Nat) : BitVec 4 := BitVec.ofNat 4 (bits w 3 0)

/-- The instruction when the fields that its form leaves unused are zero (R290). -/
def whenZero (x : Nat) (i : Instr) : Option Instr := if x = 0 then some i else none

/-- Opcode 0x01 (R332). -/
def decodeAlu (w : Nat) : Option Instr :=
  let d := fSd w
  let a := fSa w
  let b := fSb w
  let f := bit w 7
  match bits w 6 0 with
  | 0x00 => some (.add d a b f)
  | 0x01 => some (.sub d a b f)
  | 0x02 => some (.and d a b f)
  | 0x03 => some (.or d a b f)
  | 0x04 => some (.xor d a b f)
  | 0x05 => some (.andn d a b f)
  | 0x06 => some (.shl d a b f)
  | 0x07 => some (.shr d a b f)
  | 0x08 => some (.sra d a b f)
  | 0x09 => if f then none else some (.minS d a b)
  | 0x0A => if f then none else some (.maxS d a b)
  | 0x0B => if f then none else some (.minN d a b)
  | 0x0C => if f then none else some (.maxN d a b)
  | 0x0D => if f then none else some (.sadd2 d a b)
  | 0x0E => if f then none else some (.sadd4 d a b)
  | 0x0F => if f then none else some (.sadd8 d a b)
  | 0x10 => if f then none else whenZero (bits w 13 8) (.sextS8 d a)
  | 0x11 => if f then none else whenZero (bits w 13 8) (.sextS16 d a)
  | 0x12 => if f then none else whenZero (bits w 13 8) (.sextS32 d a)
  | 0x13 => if f then none else whenZero (bits w 13 8) (.zextN8 d a)
  | 0x14 => if f then none else whenZero (bits w 13 8) (.zextN16 d a)
  | 0x15 => if f then none else whenZero (bits w 13 8) (.zextN32 d a)
  | 0x16 => if f then none else whenZero (bits w 13 8) (.popc d a)
  | 0x17 => if f then none else whenZero (bits w 13 8) (.clz d a)
  | 0x18 => if f then none else whenZero (bits w 13 8) (.ctz d a)
  | _ => none

/-- Opcode 0x02 (R334). -/
def decodeMul (w : Nat) : Option Instr :=
  let d := fSd w
  let a := fSa w
  let b := fSb w
  match bits w 7 0 with
  | 0 => some (.mul d a b)
  | 1 => some (.mulhS d a b)
  | 2 => some (.mulhN d a b)
  | 3 => some (.mulhSn d a b)
  | 4 => some (.divS d a b)
  | 5 => some (.divN d a b)
  | 6 => some (.remS d a b)
  | 7 => some (.remN d a b)
  | _ => none

/-- Opcode 0x07: imm14[13:12] selects the shift, [11:6] is zero (R333). -/
def decodeShiftImm (w : Nat) : Option Instr :=
  let n := BitVec.ofNat 6 (bits w 5 0)
  if bits w 11 6 = 0 then
    match bits w 13 12 with
    | 0 => some (.shli (fSd w) (fSa w) n)
    | 1 => some (.shri (fSd w) (fSa w) n)
    | 2 => some (.srai (fSd w) (fSa w) n)
    | _ => none
  else none

/-- Opcode 0x16 (R338). -/
def decodeMaskLogic (w : Nat) : Option Instr :=
  match bits w 13 0 with
  | 0 => some (.kand (fKd w) (fKa w) (fKb w))
  | 1 => some (.kor (fKd w) (fKa w) (fKb w))
  | 2 => some (.kxor (fKd w) (fKa w) (fKb w))
  | 3 => some (.kandn (fKd w) (fKa w) (fKb w))
  | 4 => whenZero (bits w 17 14) (.knot (fKd w) (fKa w))
  | 5 => whenZero (bits w 17 14) (.kmov (fKd w) (fKa w))
  | _ => none

/-- Opcode 0x17: fn[13:8] names a scalar register (R339). -/
def decodeMaskMove (w : Nat) : Option Instr :=
  match bits w 7 0 with
  | 0 => whenZero (bits w 21 14) (.kfroms (fKd w) (fSb w))
  | 1 => whenZero (bits w 25 22 + bits w 17 14) (.ktos (fKa w) (fSb w))
  | 2 => whenZero (bits w 25 22 + bits w 17 14) (.kpopc (fKa w) (fSb w))
  | 3 => whenZero (bits w 25 22 + bits w 17 14) (.kffs (fKa w) (fSb w))
  | 4 => whenZero (bits w 25 22 + bits w 13 8) (.ktest (fKa w) (fKb w))
  | _ => none

/-- Opcode 0x1A (R347-R349). -/
def decodeControl (w : Nat) : Option Instr :=
  if bits w 25 14 = 0 then
    match bits w 7 0 with
    | 0 => whenZero (bits w 13 8) .nop
    | 1 => whenZero (bits w 13 8) .endPath
    | 2 => some (.trap (fSb w))
    | _ => none
  else none

/-- Opcode 0x1B (R342). -/
def decodeWait (w : Nat) : Option Instr :=
  if bits w 25 20 = 0 ∧ bits w 7 7 = 0 then
    match bits w 3 0 with
    | 8 => whenZero (bits w 13 8) (.waitMx (fSa w) (fScope w))
    | 9 => whenZero (bits w 13 8) (.waitTrv (fSa w) (fScope w))
    | 10 => whenZero (bits w 13 8) (.waitCov (fSa w) (fScope w))
    | 11 => some (.waitMem (fSa w) (fSb w) (fScope w))
    | _ => whenZero (bits w 13 8 + bits w 6 4) (.waitPath (fSa w) (fLo4 w))
  else none

/-- Opcode 0x1F (R386). -/
def decodeBar (w : Nat) : Option Instr :=
  if bits w 13 8 = 0 then
    match bits w 3 0 with
    | 0 => whenZero (bits w 25 20) (.barInit (fSa w) (fHi4 w))
    | 1 => whenZero (bits w 25 14) (.barDrop (fHi4 w))
    | 2 => whenZero (bits w 19 14) (.barArrive (fSd w) (fHi4 w))
    | 3 => whenZero (bits w 25 20) (.barWait (fSa w) (fHi4 w))
    | 4 => whenZero (bits w 19 14) (.barSync (fSd w) (fHi4 w))
    | _ => none
  else none

/-- Opcode 0x20 (R388). -/
def decodeHoop (w : Nat) : Option Instr :=
  match bits w 3 0 with
  | 0 => whenZero (bits w 25 20 + bits w 13 8) (.hoopInit (fSa w) (fHi4 w))
  | 1 => some (.hoopWfill (fSd w) (fSa w) (fSb w) (fHi4 w))
  | 2 => whenZero (bits w 25 20 + bits w 13 8) (.hoopFilled (fSa w) (fHi4 w))
  | 3 => some (.hoopWtake (fSd w) (fSa w) (fSb w) (fHi4 w))
  | 4 => whenZero (bits w 25 20 + bits w 13 8) (.hoopTaken (fSa w) (fHi4 w))
  | 5 => whenZero (bits w 19 8) (.hoopRd (fSd w) (fHi4 w))
  | _ => none

/-- Opcode 0x28 (R411). -/
def decodeCopy (w : Nat) : Option Instr :=
  if bits w 7 7 = 0 then
    match bits w 3 0 with
    | 0 => whenZero (bits w 6 4) (.cpPush (fSd w) (fSa w) (fSb w))
    | 1 => some (.cpTest (fSd w) (fSa w) (fSb w) (fScope w))
    | 2 => some (.cpWait (fSd w) (fSa w) (fSb w) (fScope w))
    | 3 => whenZero (bits w 6 4) (.cpCancel (fSd w) (fSa w) (fSb w))
    | _ => none
  else none

/-- Opcode 0x2A (R423). -/
def decodeCover (w : Nat) : Option Instr :=
  if bits w 13 8 = 0 ∧ bits w 7 6 = 0 then
    match bits w 3 0 with
    | 0 =>
      if bits w 5 4 = 0 then some (.covTile (fSd w) (fSa w))
      else if bits w 5 4 = 1 then some (.covTileClr (fSd w) (fSa w)) else none
    | 1 => some (.covResolve (fSd w) (fSa w) (BitVec.ofNat 2 (bits w 5 4)))
    | _ => none
  else none

/-- Opcode 0x2B (R427). -/
def decodePly (w : Nat) : Option Instr :=
  let d := fSd w
  let a := fSa w
  let c := BitVec.ofNat 2 (bits w 5 4)
  if bits w 13 8 = 0 ∧ bits w 7 6 = 0 then
    match bits w 3 0 with
    | 0 => some (.plyBegin d a c)
    | 1 => some (.plyBeginCoil d a c)
    | 2 => whenZero (bits w 19 14 + bits w 5 4) (.plyCommit d)
    | 3 => whenZero (bits w 19 14 + bits w 5 4) (.plyCommitCoil d)
    | 4 => whenZero (bits w 19 14 + bits w 5 4) (.plyAbort d)
    | 5 => whenZero (bits w 19 14 + bits w 5 4) (.plyAbortCoil d)
    | 6 => whenZero (bits w 19 14 + bits w 5 4) (.plySnap d)
    | 7 => whenZero (bits w 25 20 + bits w 5 4) (.plyDrop a)
    | 8 => some (.plyStamp d a c)
    | 9 => whenZero (bits w 19 14 + bits w 5 4) (.plyClock d)
    | _ => none
  else none

/-- Opcode 0x3F: xop selects, `x` is the second word (R293). -/
def decodeSx (w x : Nat) : Option Instr :=
  let imm := BitVec.ofNat 32 x
  match bits w 13 8 with
  | 1 => whenZero (bits w 19 14 + bits w 7 0) (.li (fSd w) imm)
  | 2 => whenZero (bits w 19 14 + bits w 7 0) (.lih (fSd w) imm)
  | 3 => whenZero (bits w 7 0) (.addx (fSd w) (fSa w) imm)
  | 4 => whenZero (bits w 25 20 + bits w 7 4) (.crs (fSa w) (fLo4 w) imm)
  | 5 => whenZero (bits w 7 0 + bits x 31 16) (.upcall (fSd w) (fSa w) (BitVec.ofNat 16 x))
  | _ => none

/-- The instruction that the fields of a scalar word select, by the opcode map (R294). -/
def decodeFields (w x : Nat) : Option Instr :=
  let d := fSd w
  let a := fSa w
  let b := fSb w
  let i := fImm w
  match bits w 31 26 with
  | 0x01 => decodeAlu w
  | 0x02 => decodeMul w
  | 0x03 => some (.addi d a i)
  | 0x04 => some (.andi d a i)
  | 0x05 => some (.ori d a i)
  | 0x06 => some (.xori d a i)
  | 0x07 => decodeShiftImm w
  | 0x08 => whenZero (bits w 25 20) (.cmpi a i)
  | 0x09 => some (.ldN8 d a i)
  | 0x0A => some (.ldN16 d a i)
  | 0x0B => some (.ldN32 d a i)
  | 0x0C => some (.ldB64 d a i)
  | 0x0D => some (.stB8 d a i)
  | 0x0E => some (.stB16 d a i)
  | 0x0F => some (.stB32 d a i)
  | 0x10 => some (.stB64 d a i)
  | 0x11 => some (.atom d a b (BitVec.ofNat 3 (bits w 7 5)) (BitVec.ofNat 3 (bits w 4 2)) (BitVec.ofNat 2 (bits w 1 0)))
  | 0x12 => some (.b (BitVec.ofNat 5 (bits w 25 21)) (fOff w))
  | 0x13 => if bit w 25 then some (.bnz (fKc w) (fOff w)) else some (.bz (fKc w) (fOff w))
  | 0x14 => whenZero (bits w 25 21) (.call (fOff w))
  | 0x15 => some (.jalr d a i)
  | 0x16 => decodeMaskLogic w
  | 0x17 => decodeMaskMove w
  | 0x18 => whenZero (bits w 25 25) (.split (fKc w) (fOff w))
  | 0x19 => whenZero (bits w 25 21) (.join (fOff w))
  | 0x1A => decodeControl w
  | 0x1B => decodeWait w
  | 0x1C => whenZero (bits w 19 8) (.srd d (BitVec.ofNat 8 (bits w 7 0)))
  | 0x1D => whenZero (bits w 25 20 + bits w 13 8) (.swr a (BitVec.ofNat 8 (bits w 7 0)))
  | 0x1E => whenZero (bits w 25 5) (.fence (BitVec.ofNat 3 (bits w 4 2)) (BitVec.ofNat 2 (bits w 1 0)))
  | 0x1F => decodeBar w
  | 0x20 => decodeHoop w
  | 0x21 => whenZero (bits w 7 4) (.twait d a b (fLo4 w))
  | 0x22 => whenZero (bits w 7 5) (.mxMma d a b (bit w 4) (fLo4 w))
  | 0x23 => whenZero (bits w 7 5) (.mxGang d a b (bit w 4) (fLo4 w))
  | 0x24 => whenZero (bits w 13 3) (.mxCbld d a (BitVec.ofNat 3 (bits w 2 0)))
  | 0x25 => whenZero (bits w 19 4) (.mxClr d (fLo4 w))
  | 0x26 => whenZero (bits w 7 2) (.mxDrain d a b (bit w 1) (bit w 0))
  | 0x28 => decodeCopy w
  | 0x29 => if bits w 13 0 = 0 then some (.rqBuild d a) else if bits w 13 0 = 1 then some (.rqRefit d a) else none
  | 0x2A => decodeCover w
  | 0x2B => decodePly w
  | 0x3F => decodeSx w x
  | _ => none

/-- A scalar word is the first of two (R289). -/
def isSx (w : Nat) : Bool := bits w 31 26 == 0x3F

/-- The scalar instruction whose words are `w` and, for SX, `x`; none where the encoding is undefined (R294). -/
def decodeScalar (w x : Nat) : Option Instr := (decodeFields w x).filter Instr.wellFormed

/-- The fields of a lane instruction (R295). -/
def laneFields (w0 w1 w2 : Nat) : Lane where
  sub := BitVec.ofNat 4 (bits w0 23 20)
  ty := BitVec.ofNat 4 (bits w0 19 16)
  la := BitVec.ofNat 4 (bits w0 15 12)
  msel := BitVec.ofNat 4 (bits w0 11 8)
  mneg := bit w0 7
  mod := BitVec.ofNat 7 (bits w0 6 0)
  d := BitVec.ofNat 8 (bits w1 31 24)
  a := BitVec.ofNat 8 (bits w1 23 16)
  b := BitVec.ofNat 8 (bits w1 15 8)
  c := BitVec.ofNat 8 (bits w1 7 0)
  imm := BitVec.ofNat 32 w2

/-- A 32-bit word with its bytes in the opposite order: SLOT0 lies in [31:24] (R300). -/
def swap4 (w : Nat) : Nat := ofElems 8 [bits w 31 24, bits w 23 16, bits w 15 8, bits w 7 0]

/-- A trailer (R300). -/
def decodeTrailer (w0 w1 w2 : Nat) : Option Instr :=
  if bits w0 11 1 = 0 then
    some (.courseTrailer (BitVec.ofNat 4 (bits w0 23 20)) (BitVec.ofNat 8 (bits w0 19 12)) (bit w0 0)
      (BitVec.ofNat 64 (swap4 w1 + 2 ^ 32 * swap4 w2)))
  else none

/-- The lane instruction or trailer whose words are `w0`, `w1`, `w2`; none where the encoding is undefined (R300, R303). -/
def decodeLane (w0 w1 w2 : Nat) : Option Instr :=
  if bits w0 31 24 = 0xFF then (decodeTrailer w0 w1 w2).filter Instr.wellFormed
  else (laneInstr (bits w0 31 24) (laneFields w0 w1 w2)).filter Instr.wellFormed

/-- A scalar instruction from the bytes at its address, and the bytes that follow it (R285). -/
def decodeBytes (l : List Byte) : Option (Instr × List Byte) :=
  if l.length < 4 then none
  else
    let w := ofBytes (l.take 4)
    if isSx w then
      if l.length < 8 then none
      else (decodeScalar w (ofBytes ((l.drop 4).take 4))).map (fun i => (i, l.drop 8))
    else (decodeScalar w 0).map (fun i => (i, l.drop 4))

/-- A lane instruction from its 12 bytes, and the bytes that follow it (R286). -/
def decodeLaneBytes (l : List Byte) : Option (Instr × List Byte) :=
  if l.length < 12 then none
  else (decodeLane (ofBytes (l.take 4)) (ofBytes ((l.drop 4).take 4)) (ofBytes ((l.drop 8).take 4))).map
    (fun i => (i, l.drop 12))

/-- The instruction of `nbits` bits `w`, zeros above them: a lane instruction of 96 bits, else a scalar one. -/
def decodeTableWord (nbits w : Nat) : Option Instr :=
  if nbits > 64 then (decodeLaneBytes (toBytes 12 w)).map Prod.fst
  else (decodeBytes (toBytes 8 w)).map Prod.fst

/-- The SR format (R289). -/
def wordSr (op d a b fn : Nat) : Nat := op * 2 ^ 26 + d * 2 ^ 20 + a * 2 ^ 14 + b * 2 ^ 8 + fn
/-- The SI format. -/
def wordSi (op d a imm : Nat) : Nat := op * 2 ^ 26 + d * 2 ^ 20 + a * 2 ^ 14 + imm
/-- The SB format. -/
def wordSb (op cond off : Nat) : Nat := op * 2 ^ 26 + cond * 2 ^ 21 + off
/-- The SK format. -/
def wordSk (op kd ka kb fn : Nat) : Nat := op * 2 ^ 26 + kd * 2 ^ 22 + ka * 2 ^ 18 + kb * 2 ^ 14 + fn

/-- The three words of a lane instruction (R295, R351). -/
def laneWords (op : Nat) (o : Lane) : List Nat :=
  [op * 2 ^ 24 + o.sub.toNat * 2 ^ 20 + o.ty.toNat * 2 ^ 16 + o.la.toNat * 2 ^ 12 + o.msel.toNat * 2 ^ 8
     + b2n o.mneg * 2 ^ 7 + o.mod.toNat,
   o.d.toNat * 2 ^ 24 + o.a.toNat * 2 ^ 16 + o.b.toNat * 2 ^ 8 + o.c.toNat,
   o.imm.toNat]

/-- The 32-bit words of an instruction, the first first; an event has none. -/
def encode : Instr → List Nat
  | .add d a b f => [wordSr 0x01 d.toNat a.toNat b.toNat (b2n f * 128 + 0x00)]
  | .sub d a b f => [wordSr 0x01 d.toNat a.toNat b.toNat (b2n f * 128 + 0x01)]
  | .and d a b f => [wordSr 0x01 d.toNat a.toNat b.toNat (b2n f * 128 + 0x02)]
  | .or d a b f => [wordSr 0x01 d.toNat a.toNat b.toNat (b2n f * 128 + 0x03)]
  | .xor d a b f => [wordSr 0x01 d.toNat a.toNat b.toNat (b2n f * 128 + 0x04)]
  | .andn d a b f => [wordSr 0x01 d.toNat a.toNat b.toNat (b2n f * 128 + 0x05)]
  | .shl d a b f => [wordSr 0x01 d.toNat a.toNat b.toNat (b2n f * 128 + 0x06)]
  | .shr d a b f => [wordSr 0x01 d.toNat a.toNat b.toNat (b2n f * 128 + 0x07)]
  | .sra d a b f => [wordSr 0x01 d.toNat a.toNat b.toNat (b2n f * 128 + 0x08)]
  | .minS d a b => [wordSr 0x01 d.toNat a.toNat b.toNat 0x09]
  | .maxS d a b => [wordSr 0x01 d.toNat a.toNat b.toNat 0x0A]
  | .minN d a b => [wordSr 0x01 d.toNat a.toNat b.toNat 0x0B]
  | .maxN d a b => [wordSr 0x01 d.toNat a.toNat b.toNat 0x0C]
  | .sadd2 d a b => [wordSr 0x01 d.toNat a.toNat b.toNat 0x0D]
  | .sadd4 d a b => [wordSr 0x01 d.toNat a.toNat b.toNat 0x0E]
  | .sadd8 d a b => [wordSr 0x01 d.toNat a.toNat b.toNat 0x0F]
  | .sextS8 d a => [wordSr 0x01 d.toNat a.toNat 0 0x10]
  | .sextS16 d a => [wordSr 0x01 d.toNat a.toNat 0 0x11]
  | .sextS32 d a => [wordSr 0x01 d.toNat a.toNat 0 0x12]
  | .zextN8 d a => [wordSr 0x01 d.toNat a.toNat 0 0x13]
  | .zextN16 d a => [wordSr 0x01 d.toNat a.toNat 0 0x14]
  | .zextN32 d a => [wordSr 0x01 d.toNat a.toNat 0 0x15]
  | .popc d a => [wordSr 0x01 d.toNat a.toNat 0 0x16]
  | .clz d a => [wordSr 0x01 d.toNat a.toNat 0 0x17]
  | .ctz d a => [wordSr 0x01 d.toNat a.toNat 0 0x18]
  | .mul d a b => [wordSr 0x02 d.toNat a.toNat b.toNat 0]
  | .mulhS d a b => [wordSr 0x02 d.toNat a.toNat b.toNat 1]
  | .mulhN d a b => [wordSr 0x02 d.toNat a.toNat b.toNat 2]
  | .mulhSn d a b => [wordSr 0x02 d.toNat a.toNat b.toNat 3]
  | .divS d a b => [wordSr 0x02 d.toNat a.toNat b.toNat 4]
  | .divN d a b => [wordSr 0x02 d.toNat a.toNat b.toNat 5]
  | .remS d a b => [wordSr 0x02 d.toNat a.toNat b.toNat 6]
  | .remN d a b => [wordSr 0x02 d.toNat a.toNat b.toNat 7]
  | .addi d a imm => [wordSi 0x03 d.toNat a.toNat imm.toNat]
  | .andi d a imm => [wordSi 0x04 d.toNat a.toNat imm.toNat]
  | .ori d a imm => [wordSi 0x05 d.toNat a.toNat imm.toNat]
  | .xori d a imm => [wordSi 0x06 d.toNat a.toNat imm.toNat]
  | .ldN8 d a imm => [wordSi 0x09 d.toNat a.toNat imm.toNat]
  | .ldN16 d a imm => [wordSi 0x0A d.toNat a.toNat imm.toNat]
  | .ldN32 d a imm => [wordSi 0x0B d.toNat a.toNat imm.toNat]
  | .ldB64 d a imm => [wordSi 0x0C d.toNat a.toNat imm.toNat]
  | .stB8 d a imm => [wordSi 0x0D d.toNat a.toNat imm.toNat]
  | .stB16 d a imm => [wordSi 0x0E d.toNat a.toNat imm.toNat]
  | .stB32 d a imm => [wordSi 0x0F d.toNat a.toNat imm.toNat]
  | .stB64 d a imm => [wordSi 0x10 d.toNat a.toNat imm.toNat]
  | .jalr d a imm => [wordSi 0x15 d.toNat a.toNat imm.toNat]
  | .shli d a n => [wordSi 0x07 d.toNat a.toNat (0 * 2 ^ 12 + n.toNat)]
  | .shri d a n => [wordSi 0x07 d.toNat a.toNat (1 * 2 ^ 12 + n.toNat)]
  | .srai d a n => [wordSi 0x07 d.toNat a.toNat (2 * 2 ^ 12 + n.toNat)]
  | .cmpi a imm => [wordSi 0x08 0 a.toNat imm.toNat]
  | .atom d a b p s q => [wordSr 0x11 d.toNat a.toNat b.toNat (p.toNat * 32 + s.toNat * 4 + q.toNat)]
  | .b c off => [wordSb 0x12 c.toNat off.toNat]
  | .bz k off => [wordSb 0x13 k.toNat off.toNat]
  | .bnz k off => [wordSb 0x13 (16 + k.toNat) off.toNat]
  | .call off => [wordSb 0x14 0 off.toNat]
  | .kand d a b => [wordSk 0x16 d.toNat a.toNat b.toNat 0]
  | .kor d a b => [wordSk 0x16 d.toNat a.toNat b.toNat 1]
  | .kxor d a b => [wordSk 0x16 d.toNat a.toNat b.toNat 2]
  | .kandn d a b => [wordSk 0x16 d.toNat a.toNat b.toNat 3]
  | .knot d a => [wordSk 0x16 d.toNat a.toNat 0 4]
  | .kmov d a => [wordSk 0x16 d.toNat a.toNat 0 5]
  | .kfroms d s => [wordSk 0x17 d.toNat 0 0 (s.toNat * 256)]
  | .ktos a s => [wordSk 0x17 0 a.toNat 0 (s.toNat * 256 + 1)]
  | .kpopc a s => [wordSk 0x17 0 a.toNat 0 (s.toNat * 256 + 2)]
  | .kffs a s => [wordSk 0x17 0 a.toNat 0 (s.toNat * 256 + 3)]
  | .ktest a b => [wordSk 0x17 0 a.toNat b.toNat 4]
  | .split k off => [wordSb 0x18 k.toNat off.toNat]
  | .join off => [wordSb 0x19 0 off.toNat]
  | .nop => [wordSr 0x1A 0 0 0 0]
  | .endPath => [wordSr 0x1A 0 0 0 1]
  | .trap n => [wordSr 0x1A 0 0 n.toNat 2]
  | .waitPath a c => [wordSr 0x1B 0 a.toNat 0 c.toNat]
  | .waitMx a s => [wordSr 0x1B 0 a.toNat 0 (s.toNat * 16 + 8)]
  | .waitTrv a s => [wordSr 0x1B 0 a.toNat 0 (s.toNat * 16 + 9)]
  | .waitCov a s => [wordSr 0x1B 0 a.toNat 0 (s.toNat * 16 + 10)]
  | .waitMem a b s => [wordSr 0x1B 0 a.toNat b.toNat (s.toNat * 16 + 11)]
  | .srd d n => [wordSr 0x1C d.toNat 0 0 n.toNat]
  | .swr a n => [wordSr 0x1D 0 a.toNat 0 n.toNat]
  | .fence s q => [wordSr 0x1E 0 0 0 (s.toNat * 4 + q.toNat)]
  | .barInit a b => [wordSr 0x1F 0 a.toNat 0 (b.toNat * 16)]
  | .barDrop b => [wordSr 0x1F 0 0 0 (b.toNat * 16 + 1)]
  | .barArrive d b => [wordSr 0x1F d.toNat 0 0 (b.toNat * 16 + 2)]
  | .barWait a b => [wordSr 0x1F 0 a.toNat 0 (b.toNat * 16 + 3)]
  | .barSync d b => [wordSr 0x1F d.toNat 0 0 (b.toNat * 16 + 4)]
  | .hoopInit a h => [wordSr 0x20 0 a.toNat 0 (h.toNat * 16)]
  | .hoopWfill d a b h => [wordSr 0x20 d.toNat a.toNat b.toNat (h.toNat * 16 + 1)]
  | .hoopFilled a h => [wordSr 0x20 0 a.toNat 0 (h.toNat * 16 + 2)]
  | .hoopWtake d a b h => [wordSr 0x20 d.toNat a.toNat b.toNat (h.toNat * 16 + 3)]
  | .hoopTaken a h => [wordSr 0x20 0 a.toNat 0 (h.toNat * 16 + 4)]
  | .hoopRd d h => [wordSr 0x20 d.toNat 0 0 (h.toNat * 16 + 5)]
  | .twait d a b c => [wordSr 0x21 d.toNat a.toNat b.toNat c.toNat]
  | .mxMma d a b l f => [wordSr 0x22 d.toNat a.toNat b.toNat (b2n l * 16 + f.toNat)]
  | .mxGang d a b l f => [wordSr 0x23 d.toNat a.toNat b.toNat (b2n l * 16 + f.toNat)]
  | .mxCbld d a s => [wordSr 0x24 d.toNat a.toNat 0 s.toNat]
  | .mxClr d t => [wordSr 0x25 d.toNat 0 0 t.toNat]
  | .mxDrain d a b x r => [wordSr 0x26 d.toNat a.toNat b.toNat (b2n x * 2 + b2n r)]
  | .cpPush d a b => [wordSr 0x28 d.toNat a.toNat b.toNat 0]
  | .cpTest d a b s => [wordSr 0x28 d.toNat a.toNat b.toNat (s.toNat * 16 + 1)]
  | .cpWait d a b s => [wordSr 0x28 d.toNat a.toNat b.toNat (s.toNat * 16 + 2)]
  | .cpCancel d a b => [wordSr 0x28 d.toNat a.toNat b.toNat 3]
  | .rqBuild d a => [wordSr 0x29 d.toNat a.toNat 0 0]
  | .rqRefit d a => [wordSr 0x29 d.toNat a.toNat 0 1]
  | .covTile d a => [wordSr 0x2A d.toNat a.toNat 0 0]
  | .covTileClr d a => [wordSr 0x2A d.toNat a.toNat 0 0x10]
  | .covResolve d a r => [wordSr 0x2A d.toNat a.toNat 0 (r.toNat * 16 + 1)]
  | .plyBegin d a c => [wordSr 0x2B d.toNat a.toNat 0 (c.toNat * 16)]
  | .plyBeginCoil d a c => [wordSr 0x2B d.toNat a.toNat 0 (c.toNat * 16 + 1)]
  | .plyCommit d => [wordSr 0x2B d.toNat 0 0 2]
  | .plyCommitCoil d => [wordSr 0x2B d.toNat 0 0 3]
  | .plyAbort d => [wordSr 0x2B d.toNat 0 0 4]
  | .plyAbortCoil d => [wordSr 0x2B d.toNat 0 0 5]
  | .plySnap d => [wordSr 0x2B d.toNat 0 0 6]
  | .plyDrop a => [wordSr 0x2B 0 a.toNat 0 7]
  | .plyStamp d a c => [wordSr 0x2B d.toNat a.toNat 0 (c.toNat * 16 + 8)]
  | .plyClock d => [wordSr 0x2B d.toNat 0 0 9]
  | .li d imm => [wordSr 0x3F d.toNat 0 1 0, imm.toNat]
  | .lih d imm => [wordSr 0x3F d.toNat 0 2 0, imm.toNat]
  | .addx d a imm => [wordSr 0x3F d.toNat a.toNat 3 0, imm.toNat]
  | .crs a n off => [wordSr 0x3F 0 a.toNat 4 n.toNat, off.toNat]
  | .upcall d a service => [wordSr 0x3F d.toNat a.toNat 5 0, service.toNat]
  | .courseTrailer n kind y slots =>
    [0xFF * 2 ^ 24 + n.toNat * 2 ^ 20 + kind.toNat * 2 ^ 12 + b2n y, swap4 (bits slots.toNat 31 0), swap4 (bits slots.toNat 63 32)]
  | i => match laneParts i with
    | some (op, o) => laneWords op o
    | none => []

/-- The bytes of an instruction as they lie in memory (R2). -/
def encodeBytes (i : Instr) : List Byte := (encode i).flatMap (toBytes 4)

/-- What the decoder of its stream reads from the words of an instruction. -/
def decodeWords (l : List Nat) : Option Instr :=
  match l with
  | [w] => decodeScalar w 0
  | [w, x] => decodeScalar w x
  | [w0, w1, w2] => decodeLane w0 w1 w2
  | _ => none

end Sys2Proof
end

