-- ==== Sys2Proof/Machine/Flags.lean ====
section
/-! DEFINITION. The flag computations: `scc` of the scalar stream (R292, R331) and the floating flags (R318). -/

namespace Sys2Proof.Machine

open Sys2Proof

/-- The flags Z, N, C, V as `scc` holds them (R345). -/
def sccOf (z n c v : Bool) : Scc := BitVec.ofNat 4 (b2n z + 2 * b2n n + 4 * b2n c + 8 * b2n v)

/-- A signed 64-bit sum or difference is outside -2^63 .. 2^63 - 1. -/
def signedOut (z : Int) : Bool := decide (z < -9223372036854775808) || decide (9223372036854775807 < z)

/-- Flag kinds of R331. -/
inductive FlagKind where
  | add | sub | other
  deriving DecidableEq, Repr

/-- `set_flags` of R331. -/
def setFlags (k : FlagKind) (a b r : W64) : Scc :=
  let z := r == 0
  let n := r.getLsbD 63
  match k with
  | .add => sccOf z n (decide (2 ^ 64 ≤ a.toNat + b.toNat)) (signedOut (a.toInt + b.toInt))
  | .sub => sccOf z n (decide (a.toNat < b.toNat)) (signedOut (a.toInt - b.toInt))
  | .other => sccOf z n false false

def sccZ (c : Scc) : Bool := c.getLsbD 0
def sccN (c : Scc) : Bool := c.getLsbD 1
def sccC (c : Scc) : Bool := c.getLsbD 2
def sccV (c : Scc) : Bool := c.getLsbD 3

/-- The condition of `b` holds on the flags (R292). -/
def condHolds (cond : Nat) (c : Scc) : Bool :=
  match cond with
  | 0 => true
  | 1 => sccZ c
  | 2 => !sccZ c
  | 3 => sccN c != sccV c
  | 4 => sccN c == sccV c
  | 5 => sccZ c || sccN c != sccV c
  | 6 => !sccZ c && sccN c == sccV c
  | 7 => sccC c
  | 8 => !sccC c
  | 9 => sccC c || sccZ c
  | 10 => !sccC c && !sccZ c
  | 11 => sccN c
  | 12 => !sccN c
  | 13 => sccV c
  | 14 => !sccV c
  | _ => false

/-- The flags of R318. -/
def fNX : FpFlags := 1
def fUF : FpFlags := 2
def fOF : FpFlags := 4
def fDZ : FpFlags := 8
def fNV : FpFlags := 16

/-- A flag, raised or not. -/
def flagIf (b : Bool) (f : FpFlags) : FpFlags := if b then f else 0

end Sys2Proof.Machine
end

