-- ==== Sys2Proof/Config.lean ====
section
/-! DEFINITION. What the implementation fixes and the spec leaves open. Every `opaque` constant is a free value: nothing can be
proved of it, and a statement holds whatever it is. -/

namespace Sys2Proof

/-- Which piece of work in hand moves next (log 1). -/
opaque Config.schedule : Nat → Nat

/-- Choices that the spec leaves to the machine: orders of lanes, placement, granules, ports of call (R7, R104, R118, R146, R378). -/
opaque Config.choice : Nat → Nat

/-- Core clocks that a step takes (R3, log 2). -/
opaque Config.elapsed : Nat → Nat

/-- Microseconds that a step takes (R137, log 2). -/
opaque Config.micros : Nat → Nat

/-- Which of several hits an ANY query returns (R237). -/
opaque Config.anyHit : Nat → Nat

/-- The topology, layout and box slack that a build chooses: a function of N, PRIM_BASE, GEOM_ID and the triangle words alone (R421). -/
opaque Config.buildSeed : Nat → Nat → Nat → List Nat → Nat → Nat

/-- A byte that a refit of a hierarchy not built from its inputs writes (R421). -/
opaque Config.refitByte : Nat → Nat → BitVec 8

/-- Whether a beam's box tests also reach a leaf that its region only may meet (R241). -/
opaque Config.beamReach : Nat → Nat → Bool

/-- Fields of results whose value the spec does not state (R237, R240, R252). -/
opaque Config.spare : Nat → Nat → W64

/-- The L2 set of a superblock (R151). -/
opaque Config.l2Set : Nat → Nat

/-- What a register or mask bit of a lane that received nothing at a `reorder` then holds (R128, log 21). -/
opaque Config.vacantLane : Nat → Nat → W64

/-- Contents of SPDM messages that the spec leaves open: certificates, nonces, key shares, optional capabilities (R35, R36). -/
opaque Config.spdmByte : Nat → Nat → Nat → BitVec 8

/-- The RSASSA signature of the device identity key over some bytes (R36, R37). -/
opaque Config.signature : List (BitVec 8) → Nat

/-- Length of the certificates of the device identity chain (R36). -/
opaque Config.chainLength : Nat

/-- Holver's choices: the address of an allocation, its version, a vector (R68, R70). -/
opaque Config.holver : Nat → Nat → Nat

/-- The digest of the boot ROM, and that of the fuse block, whose encoding the spec leaves open: a function of the key hashes, the revoked key slots
and the SVN floors that it holds (R34; log 61). -/
opaque Config.romDigest : BitVec 256
opaque Config.fuseDigest : List (Nat × BitVec 256) → List (Nat × Bool) → List (Nat × Nat) → BitVec 256

/-- The digest of the configuration in force at READY, of the registers and the key slots of R34, whose encoding the spec leaves open. -/
opaque Config.configDigest : Nat → Nat → Nat → List Nat → BitVec 256

/-- What a word of the configuration space holds that the spec does not describe (R24). -/
opaque Config.cfgSpace : Nat → W64

/-- Package power and other measured quantities (R17). -/
opaque Config.measured : Nat → Nat

/-- The day on which the 90-day trend of a monitor reaches a floor, from its readings, the newest first, and the units that are left (R22; log
97). -/
opaque Config.trendDay : Nat → List (List Nat) → List Nat → Nat

/-- How a rate that is no whole number of MHz is reported: rounded down or up (R17, R19). -/
opaque Config.roundUp : Nat → Bool

/-- Enabled UALink lanes, Hampers of die 0 and of die 1, GiB of memory and HBM channels of the part modelled (R12, log 3). -/
def Config.ualLanes : Nat := 72
def Config.hampersD0 : Nat := 96
def Config.hampersD1 : Nat := 96
def Config.memGib : Nat := 512
def Config.hbmChannels : Nat := 256

/-- What a byte of memory or SRAM that nothing has written reads as (log 4). -/
def Config.blank : Byte := 0

end Sys2Proof
end

