-- ==== Sys2Proof/Machine/Tab.lean ====
section
/-! DEFINITION. Tables in one canonical form (memory, registers, marks) and dictionaries (coils, bolts, records). -/

namespace Sys2Proof

/-- What key `k` reads as: its entry, or `d` when it has none. -/
def Tab.get {α : Type} (d : α) : Tab α → Nat → α
  | [], _ => d
  | (a, x) :: r, k => if a = k then x else if k < a then d else Tab.get d r k

/-- The table in which `k` reads as `v`, in canonical form: writing the value an unlisted key reads as removes the entry (in a table out of
order, with the entries below it that hide behind it, so that every other key reads as before). -/
def Tab.set {α : Type} [DecidableEq α] (d : α) : Tab α → Nat → α → Tab α
  | [], k, v => if v = d then [] else [(k, v)]
  | (a, x) :: r, k, v =>
    if k < a then (if v = d then (a, x) :: r else (k, v) :: (a, x) :: r)
    else if a = k then (if v = d then r.dropWhile (fun e => decide (e.1 ≤ k)) else (k, v) :: r)
    else (a, x) :: Tab.set d r k v

/-- Every key of the table is above `b`, keys rise strictly, and no entry equals `d`. -/
def Tab.wfFrom {α : Type} [DecidableEq α] (d : α) : Nat → Tab α → Bool
  | _, [] => true
  | b, (a, x) :: r => decide (b ≤ a) && !decide (x = d) && Tab.wfFrom d (a + 1) r

/-- The canonical form of a table whose unlisted keys read as `d`. -/
abbrev Tab.wf {α : Type} [DecidableEq α] (d : α) (t : Tab α) : Bool := Tab.wfFrom d 0 t

/-- Writes a list of entries in order. -/
def Tab.setAll {α : Type} [DecidableEq α] (d : α) (t : Tab α) : List (Nat × α) → Tab α
  | [] => t
  | (k, v) :: r => Tab.setAll d (Tab.set d t k v) r

/-- Writes consecutive values from key `k` on. -/
def Tab.setRun {α : Type} [DecidableEq α] (d : α) (t : Tab α) (k : Nat) : List α → Tab α
  | [] => t
  | v :: r => Tab.setRun d (Tab.set d t k v) (k + 1) r

/-- Reads `n` consecutive values from key `k` on. -/
def Tab.getRun {α : Type} (d : α) (t : Tab α) (k : Nat) : Nat → List α
  | 0 => []
  | n + 1 => Tab.get d t k :: Tab.getRun d t (k + 1) n

/-- Removes the entries with keys from `lo` to `hi - 1`. -/
def Tab.clearRange {α : Type} (t : Tab α) (lo hi : Nat) : Tab α :=
  t.filter (fun e => !(decide (lo ≤ e.1) && decide (e.1 < hi)))

/-- A dictionary: keys strictly rising, each with a value; an unlisted key has none. -/
abbrev Dict (α : Type) := List (Nat × α)

/-- The value of a key, if it has one. -/
def Dict.find? {α : Type} : Dict α → Nat → Option α
  | [], _ => none
  | (a, x) :: r, k => if a = k then some x else Dict.find? r k

/-- Gives `k` the value `v`. -/
def Dict.put {α : Type} : Dict α → Nat → α → Dict α
  | [], k, v => [(k, v)]
  | (a, x) :: r, k, v =>
    if k < a then (k, v) :: (a, x) :: r else if a = k then (k, v) :: r else (a, x) :: Dict.put r k v

/-- Removes `k`. -/
def Dict.del {α : Type} : Dict α → Nat → Dict α
  | [], _ => []
  | (a, x) :: r, k => if a = k then Dict.del r k else (a, x) :: Dict.del r k

/-- Changes the value of `k`, if it has one. -/
def Dict.upd {α : Type} : Dict α → Nat → (α → α) → Dict α
  | [], _, _ => []
  | (a, x) :: r, k, f => if a = k then (a, f x) :: r else (a, x) :: Dict.upd r k f

/-- The lowest number, counting from `n`, that is no key; at most `fuel` numbers are tried. -/
def Dict.freshFrom {α : Type} (t : Dict α) : Nat → Nat → Nat
  | 0, n => n
  | fuel + 1, n => match Dict.find? t n with
    | none => n
    | some _ => Dict.freshFrom t fuel (n + 1)

/-- The lowest number that is no key. -/
def Dict.fresh {α : Type} (t : Dict α) : Nat := Dict.freshFrom t t.length 0

end Sys2Proof
end

