-- ==== Sys2Proof/Machine/State.lean ====
section
/-! DEFINITION. The state of the KL9 as plain data: everything the spec gives the machine, and State.reset. -/

namespace Sys2Proof.Machine

open Sys2Proof

/-- Why the machine stops. -/
inductive Fault where
  /-- Raised by step after a thermal trip: every clock is stopped until a module reset (R23). Safe: the spec stops there. -/
  | clocksStopped
  deriving DecidableEq, Repr

/-- Why an instruction has no meaning in the state it is given. -/
inductive Refusal where
  /-- An arm of exec not yet written. Safe. -/
  | notModelled (mnemonic : String)
  /-- A strand instruction in a state in which no path has the turn to issue. Safe: the machine never issues so. -/
  | noIssuer
  /-- An event that names work, a queue or a unit that the machine does not hold. Safe: no such event occurs. -/
  | noSuchWork
  deriving DecidableEq, Repr

/-- A snapshot held (R191, R193): its stamp, its table entry and that entry's generation. -/
structure Snap where
  stamp : Nat
  entry : Nat
  gen : Nat
  deriving DecidableEq, Repr

/-- A strand or coil transaction (R196, R200, R454). -/
structure Txn where
  tag : Nat
  snap : Snap
  /-- It took a new snapshot, which it releases at its end (R193). -/
  holds : Bool
  /-- The cause recorded by an abort (R202), and its register value for CONFLICT. -/
  aborted : Option Nat
  deriving DecidableEq, Repr

/-- Why a parked path waits (R115, R133). -/
inductive Park where
  | running
  | barrier (b : Nat) (phase : W32)
  | hoop (h i : Nat) (parity take : Bool) (d : BitVec 6)
  | gang (members : Mask)
  | upcall (index : Option Nat) (d : BitVec 6)
  /-- Fault records waited on with the lanes of each; whether one was denied, and its lanes; the stream that waits: 0 scalar, 1 lane, 2 the
  start of a course; the address of each lane's failure. -/
  | fault (waits : List (Nat × Mask)) (deny : Bool) (denied : Mask) (stream : Nat) (addrs : Tab W64)
  | join (addr label : W64)
  | ending
  | twait (cond : BitVec 4) (late : Bool) (operand : W64) (seen : Option W64) (d : BitVec 6)
  | waitPath (sel threshold : Nat)
  | waitTimeline (ctx : Nat) (threshold : W64) (scope : BitVec 3)
  | waitMem (va threshold : W64) (scope : BitVec 3)
  | cpWait (va mask : W64) (d : BitVec 6) (scope : BitVec 3)
  | reorder
  /-- The mask as it was read, and the target. -/
  | splitWait (k : Mask) (target : W64)
  | plyRdv (commit : Bool) (src : BitVec 2) (handle : W64) (d : BitVec 6)
  /-- A trap, its upcall index; and the trap of the scalar stream over which a trap of an earlier course stands, with its index (R259). -/
  | trap (info : TrapInfo) (index : Option Nat) (under : Option (TrapInfo × Option Nat))
  deriving DecidableEq, Repr

/-- A path: the root of a strand or a split-table entry (R113, R122, R133). -/
structure PathState where
  pc : W64
  em : Mask
  scc : Scc
  seq : W32
  /-- 15 for the root path, 0 to 7 for an entry (R122). -/
  parent : Nat
  splitSince : Bool
  park : Park
  /-- Lanes to which a reissue after a trap answer is restricted (R262). -/
  only : Option Mask
  /-- A breakpoint on its next scalar instruction, or on its next course, at which it has stopped once and does not match again (R273). -/
  bpPass : Bool
  bpCourse : Bool
  /-- A trap of the scalar stream that stands while the lane stream is parked for a reason of its own, with its upcall index (R259). -/
  standing : Option (TrapInfo × Option Nat) := none
  deriving DecidableEq, Repr

/-- A course as `crs` queues it (R119, R340), with its number in the strand's order. -/
structure Course where
  addr : W64
  params : List W64
  path : Nat
  number : Nat
  deriving DecidableEq, Repr

/-- The running course: its words as fetched at its start (R288), and the position that issues next (R120). -/
structure Running where
  course : Course
  words : List W96
  pos : Nat
  /-- Where the course goes on after a reissue at `pos` (R260): set by an answer to a trap. -/
  after : Option Nat
  deriving DecidableEq, Repr

/-- A long or remote instruction's writes that are still pending (R120, R121). -/
structure LongOp where
  /-- Width of its sub-elements, each of which an instruction inside its window may see before or after the write (R120). -/
  width : Nat := 64
  path : Nat
  courseNumber : Nat
  /-- Position in the course; 255 for a scalar access, which the path's PC still stands at. -/
  pos : Nat
  la : Nat
  /-- Lane register writes: key v × 64 + lane, value, poisoned. -/
  vWrites : List (Nat × W64 × Bool)
  /-- Mask writes: 1 to 15 for k1 to k15, 16 for `em`; the lanes written; their bits. -/
  kWrites : List (Nat × Mask × Mask)
  /-- Scalar writes by key: value, poisoned. -/
  sWrites : List (Nat × W64 × Bool)
  flags : FpFlags
  /-- Requests to other devices or the host that have not returned. -/
  remote : List Nat
  /-- A listed slot of the trailer, or always awaited: a later use waits (R121). -/
  awaited : Bool
  /-- The course that holds it has executed its trailer. -/
  ended : Bool
  /-- Its masks come when an engine operation completes (R425). -/
  held : Bool := false
  /-- Active lanes, and lanes whose access the outside refused: cause and address (R258). -/
  act : Mask := 0
  fails : List (Nat × Cause × W64) := []
  insn : W96 := 0
  /-- Entries of the outstanding-transaction table (R152); the scope of an acquire whose answers have not come (R165). -/
  ott : Nat := 0
  acq : Option Nat := none
  deriving DecidableEq, Repr

/-- One unit of an in-flight counter (R153): 0 G, 1 S, 2 T, 3 to 6 A0 to A3; the operation; whether it has finished. -/
structure Flight where
  sel : Nat
  op : Nat
  done : Bool
  deriving DecidableEq, Repr

/-- A strand (R107, R133). -/
structure Strand where
  root : PathState
  entries : Dict PathState
  /-- Scalar registers: key r for s0 to s47, 64 × (path + 1) + r for a path's own s48 to s63 (R123). -/
  sregs : Tab W64
  spoison : Tab Bool
  /-- Lane registers and temporaries: key specifier × 64 + lane (R297). -/
  vregs : Tab W64
  vpoison : Tab Bool
  kregs : Tab W64
  live : Mask
  tids : Tab W16
  /-- `cvtmode` [31:0]; SEQ is each path's (R321). -/
  cvt : W32
  fpf : FpFlags
  mxp : W64
  gang : W64
  /-- m0 base, m0 length, ... m3 length (R345). -/
  mregs : Tab W64
  queue : List Course
  /-- Courses the strand has enqueued. -/
  courses : Nat
  running : Option Running
  longs : Dict LongOp
  flight : List Flight
  txn : Option Txn
  slot : Nat
  ended : Bool
  /-- Gang instructions executed, or parked in, by member set (R133). -/
  gangRuns : Tab Nat
  /-- Progress count P and urgency (R117). -/
  progress : Nat
  urgent : Bool
  deriving DecidableEq, Repr

/-- A bolt descriptor (R97). -/
structure Desc where
  scode : W64
  lcode : W64
  karg : W64
  gridX : Nat
  gridY : Nat
  gridZ : Nat
  /-- Lanes of a strand: 16, 32 or 64. -/
  lanes : Nat
  pair : Bool
  cores : Bool
  trapKill : Bool
  nstr : Nat
  ncopy : Nat
  nmtx : Nat
  vregs : Nat
  sregs : Nat
  splits : Nat
  bars : Nat
  scratch : Nat
  hoops : Nat
  acc : Nat
  cbslot : Nat
  insnBudget : Nat
  wallUs : Nat
  rflags : W64
  /-- The address it was read from (R132). -/
  addr : W64
  deriving DecidableEq, Repr

/-- A bolt from its acceptance to its completion (R84, R100, R104). -/
structure Bolt where
  queue : Nat
  asid : Nat
  desc : Desc
  snap : Option Snap
  /-- Order in which the pair accepted it (R81). -/
  order : Nat
  prio : Nat
  nextCoil : Nat
  endedCoils : Nat
  killed : Option Cause
  /-- Code words fetched ahead and not yet read again: physical address, value, poison (R288). -/
  code : List (Nat × Nat × Bool) := []
  deriving DecidableEq, Repr

/-- A gang latch (R110, R397): one arrival for each member that has come. -/
structure GangArrival where
  strand : Nat
  d : BitVec 6
  gang : W64
  fmt : Nat
  scl : Bool
  /-- A, SA, B, SB and the shape word. -/
  a : W64
  sa : W64
  b : W64
  sb : W64
  shape : W64
  word : W32
  pc : W64
  deriving DecidableEq, Repr

/-- Where a coil is, with the CAUSE of its stop (R130-R132, R138, R270); cause 5 is a kill (R139). -/
inductive Residency where
  | resident
  | stopping (cause : Nat)
  | saved (slot cause : Nat)
  | inPlace (cause : Nat)
  deriving DecidableEq, Repr

/-- A coil from its start to its end (R101, R107, R132). -/
structure Coil where
  bolt : Nat
  x : Nat
  y : Nat
  z : Nat
  /-- Logical Hamper; the even one of a paired coil. -/
  hamper : Nat
  strands : List Strand
  /-- Barrier words, their armed tags and their arrival bits (R385). -/
  bars : Tab W64
  barArmed : Tab Bool
  barArrived : Tab Mask
  barPoison : Tab Bool
  hoops : Tab W64
  hoopInit : Tab Bool
  codebook : Tab Byte
  /-- Accumulator words: key ((16 × half + tile) × 64 + row) × 64 + column (R209). -/
  acc : Tab W32
  accPoison : Tab Bool
  accStat : Tab W32
  /-- Timelines: numbers assigned, counter, numbers completed out of order; 0 matrix, 1 traversal, 2 coverage (R178, R179). -/
  tlIssued : Tab Nat
  tlCount : Tab Nat
  tlDone : List (Nat × Nat)
  insnUsed : Nat
  wallUsed : Nat
  handles : List Snap
  txn : Option Txn
  plyArrived : Mask
  /-- Strands to which the aborted coil transaction has reported its cause (R201). -/
  plyReported : Mask
  latches : List (Mask × List GangArrival)
  /-- Scratchpad granules of the even and of the odd half (R146). -/
  granules : List Nat
  granulesOdd : List Nat
  residency : Residency
  /-- Stopped by a debugger until RESUME (R270). -/
  debugStop : Bool
  /-- STEP: the strand and path that alone issue, and whether its scalar stream has issued its one instruction (R272). -/
  stepOnly : Option (Nat × Nat × Bool)
  /-- STOP_CAUSE and WHICH of its last stop (R271). -/
  stopWhy : Nat × Nat
  /-- When it was placed, in placements made (R130). -/
  placedAt : Nat
  /-- The words of its saved context with their poison; none while it is not saved (R132-R134). -/
  image : List (W64 × Bool)
  deriving DecidableEq, Repr

/-- Who waits on a fault record (R157, R158, R69). -/
inductive FaultWaiter where
  | path (p : PathId) (lanes : Mask)
  | engine (op : Nat)
  | bte (queue number chunk : Nat)
  | queue (q : Nat) (userHalf : Bool)
  | reduction (p : PathId) (flags : FpFlags)
  deriving DecidableEq, Repr

/-- A fault record posted and not yet answered (R157). -/
structure FaultRec where
  asid : Nat
  page : Nat
  kind : AccessKind
  cause : Nat
  waiters : List FaultWaiter
  /-- Waiters that the posting path still is to be counted in, 16 bits, stops at 0xFFFF. -/
  count : Nat
  deriving DecidableEq, Repr

/-- A level of the translation caches: of a Hamper, of a Creel, shared by a die (R155). -/
inductive TlbLevel where
  | micro (hamper : Nat)
  | creel (n : Nat)
  | shared (die : Nat)
  deriving DecidableEq, Repr

/-- A translation that a TLB holds, at a level (R155): page base and size, physical base, the leaf's permissions, D set. -/
structure TlbEntry where
  level : TlbLevel := .micro 0
  asid : Nat
  vbase : Nat
  size : Nat
  pbase : Nat
  r : Bool
  w : Bool
  x : Bool
  dirty : Bool
  deriving DecidableEq, Repr

/-- A superblock in the L1 of a Hamper: 512 bytes of device memory from 512 × `base` (R148, R149). -/
structure L1Block where
  hamper : Nat
  base : Nat
  /-- The bank that holds it. -/
  way : Nat
  /-- Valid bits of its four lines: those that have been fetched. -/
  filled : Nat
  /-- Bytes by their offset; only fetched and dirty ones count. -/
  data : Tab Byte
  /-- Dirty bit of each byte. -/
  dirty : Nat
  /-- Poisoned 8-byte granules (R160). -/
  poison : Nat
  /-- Fetched lines over which an engine of the Hamper has written at the L2 since (R181, R211). -/
  behind : Nat
  deriving DecidableEq, Repr

/-- One entry of the live-snapshot table (R193). -/
structure SnapEntry where
  stamp : Nat
  holders : Nat
  gen : Nat
  revoked : Bool
  deriving DecidableEq, Repr

/-- An older ply (R186, R192): its line, its stamp, the stamp of its successor, its bytes, its poisoned granules. -/
structure OldPly where
  line : Nat
  stamp : Nat
  next : Nat
  bytes : List Byte
  poison : List Bool
  deriving DecidableEq, Repr

/-- A tentative ply (R198): its transaction, its line, the virtual line address that made it, its bytes. -/
structure Tentative where
  tag : Nat
  line : Nat
  va : Nat
  bytes : List Byte
  poison : List Bool
  deriving DecidableEq, Repr

/-- One member's share of a multiply-accumulate (R396, R397). -/
structure MmaShare where
  strand : Nat
  a : W64
  sa : W64
  m : Nat
  tile : Nat
  vsa : Nat
  bsa : Nat
  cba : Nat
  deriving DecidableEq, Repr

/-- A lane of `cov.bin` (R425): its number, its buffer, C, its control points, whether it is rejected. -/
structure BinLane where
  lane : Nat
  buffer : W64
  c : W64
  points : List (Int × Int)
  rejected : Bool
  deriving DecidableEq, Repr

/-- What an engine operation does (R393-R404, R417-R425). -/
inductive OpKind where
  | mma (fmt : Nat) (scl gang : Bool) (shares : List MmaShare) (b sb : W64) (n ksteps vsb bsb cbb bStrand steps : Nat)
  | cbld (slot : Nat) (addr : W64)
  | clr (tile : Nat)
  /-- `cvtmode` as it stood at acceptance; the stores that have been made; the flags raised. -/
  | drain (regs : List W64) (ctl : W64) (resEn dropEn : Bool) (cvt : W32) (next : Nat) (flags : FpFlags)
  | ray (lane : Nat) (d : Nat) (o : List W32) (tmin : W32) (dir : List W32) (tmax : W32) (root : W64) (flags : Nat)
  | beam (root : W64) (desc : List Byte) (out : W64) (lane : Nat)
  | build (tri out : W64) (n primBase geom : Nat)
  | refit (tri out : W64) (n primBase geom : Nat)
  /-- The tile word, and the rows still to be cleared. -/
  | covTile (word : W64) (rows : List Nat)
  | covResolve (word : W64) (rule : Nat) (rows : List Nat)
  /-- The additions still to be made: x, y, value with 20 fraction bits. -/
  | covSeg (word : W64) (adds : List (Nat × Nat × Int))
  /-- KIND; the lanes still to be binned; whether one has been reported FULL; the two masks so far; the first mask register; the pending
  operation of the masks. -/
  | covBin (kind : Nat) (lanes : List BinLane) (isFull : Bool) (full order : Mask) (d long : Nat)
  deriving DecidableEq, Repr

/-- An accepted engine operation that has not completed; keys rise in acceptance order (R178, R212). -/
structure EngineOp where
  coil : Nat
  strand : Nat
  path : Nat
  /-- 0 matrix, 1 traversal, 2 coverage, 3 a query counted on T. -/
  ctx : Nat
  number : Nat
  half : Nat
  pc : W64
  word : W96
  kind : OpKind
  /-- It waits on a fault record. -/
  faulted : Bool
  /-- Its writes have been sent. -/
  sent : Bool := false
  /-- The registers as read at acceptance, and the `gang` value of a gang (R134). -/
  regs : List W64 := []
  gang : W64 := 0
  /-- The instructions of a gang's members, each with its strand and its address (R214). -/
  froms : List (Nat × W64 × W96) := []
  deriving DecidableEq, Repr

/-- A lane of a per-lane copy that has not finished (R382, R383): the destination's 32 bytes, and the poison of its four words. -/
structure CpaLane where
  p : PathId
  lane : Nat
  dst : W64
  bytes : List Byte
  poison : List Bool
  deriving DecidableEq, Repr

/-- A BTE packet in progress (R221-R230): its layout records as read when it began (source, destination, index), its chunks as bit
masks, and the outcome of chunks whose record is still to be written. -/
structure BtePacket where
  number : Nat
  bytes : List Byte
  started : Bool
  /-- A record of it waits on a fault. -/
  waiting : Bool
  recs : List (List Byte)
  chunks : Nat
  done : Nat
  err : Nat
  begun : Nat
  /-- Chunks whose writes have been sent. -/
  writing : Nat
  results : List (Nat × Nat)
  /-- The code with which every remaining chunk fails; 0 for none. -/
  failAll : Nat
  noRecord : Bool
  /-- Squashed until its coil is restored (R229, R230). -/
  held : Bool
  deriving DecidableEq, Repr

/-- The engine's side of a BTE queue (R218-R232, R416). -/
structure BteQueue where
  accAtOpen : Nat
  packets : List BtePacket
  /-- Packet numbers against which a cancel is recorded. -/
  cancels : List Nat
  /-- A CLOSE or a MOVE that waits for the drain: its hart, its OP, its ENGINE (R229, R231). -/
  draining : Option (Nat × Nat × Nat)
  /-- A read of its header or ring waits on a fault. -/
  waiting : Bool
  /-- The write index last observed (R282). -/
  seenWr : Nat
  /-- Mirrors still to be written: offset in the header, bytes, value (R219). -/
  due : List (Nat × Nat × Nat)
  /-- Packets in the save area: number, coil context, whether the coil's bolt has been killed (R232). -/
  kept : List (Nat × Nat × Bool)
  deriving DecidableEq, Repr

/-- A level of a command stream (R87, R89): words left in a buffer or a loop body. -/
inductive Frame where
  | buffer (addr : W64) (words done : Nat)
  | loop (addr : W64) (body count iter done : Nat) (ring : Bool)
  deriving DecidableEq, Repr

/-- The firmware's side of a command queue (R76, R80, R81, R84). -/
structure CmdQueue where
  prio : Nat
  paused : Bool
  interval : Nat
  frames : List Frame
  worker : Bool
  /-- A WAIT in progress: the value last loaded and its interval (R90). -/
  wait : Option (W64 × Nat)
  /-- A launch that the pair has not accepted: its descriptor's address, SNAP (R86). -/
  launch : Option (W64 × Bool)
  /-- An access waits on a fault record; it was to a word that a packet names (R85). -/
  waitingFault : Bool
  dataFault : Bool
  /-- RD_MIRROR is still to be written (R84). -/
  mirrorDue : Bool
  /-- Packets still to be skipped (R88). -/
  skip : Nat
  /-- LAST_WR at which the next packet's words were not all there (R83). -/
  starved : Option Nat
  closing : Bool
  /-- The packet at which its worker stands has begun (R76). -/
  begun : Bool
  executed : Nat
  /-- Words of the stream read ahead of their packets: virtual address, value (R93). -/
  ahead : List (Nat × Nat) := []
  /-- The words of the packet that has begun (R93). -/
  words : List Nat := []
  /-- Words of the descriptor that the pair has read already: virtual address, value (R99). -/
  desc : List (Nat × Nat) := []
  /-- The poll of the user half waits on a fault record, or for room to post one (R69, R76). -/
  userFault : Bool := false
  unposted : Bool := false
  deriving DecidableEq, Repr

/-- A lane's share of a request: its address, where its bytes lie in the request's data, the key of the register it fills
(v × 64 + lane, or 2^16 + scalar key; 2^20 for none; of a copy, 4 × the copy lane's number + the word). -/
structure RemotePart where
  lane : Nat
  va : W64
  pos : Nat
  len : Nat
  dst : Nat
  deriving DecidableEq, Repr

/-- Who reads outside the device before it can go on: an instruction or a fetch of a path (0 scalar, 1 lane, 2 the start of a course, 3 a
parked `cp.wait`, 4 a `cp.push`, 5 a request of a lane instruction),
an engine operation, a chunk or the records of a BTE packet, a command queue, a Yoke hart (R61, R143, R214, R226). -/
inductive Reader where
  | path (p : PathId) (stream : Nat)
  | engine (op : Nat)
  | chunk (q number k : Nat)
  | packet (q number : Nat)
  | bteQueue (q : Nat)
  | queue (q : Nat)
  | yoke (hart : Nat)
  deriving DecidableEq, Repr

/-- What has come back for a reader: the address asked for, the bytes, their poison, or the cause met. -/
structure Arrived where
  reader : Reader
  kind : AccessKind
  va : Nat
  size : Nat
  bytes : List Byte
  poisoned : Bool
  cause : Option Cause
  deriving DecidableEq, Repr

/-- A request to another device, another pod or the host that has not returned (R47, R48, R143). -/
structure RemoteReq where
  p : PathId
  /-- The pending operation of the strand that waits for it, or the copy lane. -/
  op : Nat
  copy : Bool := false
  parts : List RemotePart
  kind : AccessKind
  size : Nat
  signed : Bool := false
  /-- A read for a parked wait, which its answer lets through or repeats (R344, R389, R414). -/
  poll : Bool := false
  /-- The reader that its answer is kept for. -/
  reader : Option Reader := none
  /-- A reduction: its flags go to the reduction-flags word (R320). -/
  red : Bool := false
  /-- Port of R43; 255 for the host port, 254 for a peer over PCI Express, 253 for an RDMA transfer (its pod as `board`, its connection as
  `device`). -/
  port : Nat := 255
  /-- Held for a draining port, with what is sent when the port is remapped (R45). -/
  held : Bool := false
  board : Nat := 0
  device : Nat := 0
  off : Nat := 0
  key : W16 := 0
  data : List Byte := []
  byteMask : Nat := 0
  /-- An atomic's operation and TYPE; its data hold the operand, then the comparand of a compare-and-swap. -/
  atom : Option (AtomicOp × Nat) := none
  /-- The 64-byte granules, from that of its first byte, in which it stores poisoned words (R160, R330). -/
  bad : Nat := 0
  /-- It left on a port with the coherence extension (R49). -/
  ext : Bool := false
  /-- An acquire of a Yoke hart: the hart's later accesses wait (R61). -/
  acq : Bool := false
  /-- Its translation is asked for first (R143). -/
  ats : Bool := false
  /-- Nothing waits for its answer any more; it is outstanding all the same (R45). -/
  gone : Bool := false
  deriving DecidableEq, Repr

/-- What the device sends to the outside: the last message first. -/
inductive OutMsg where
  | msix (vector : Nat)
  /-- A completion of a read or an AtomicOp through BAR 2; the last field marks it poisoned. -/
  | hostRead (unsupported : Bool) (data : List Byte) (bad : Bool)
  | barRead (data : List Byte)
  | cfgRetry
  | cfgData (off : Nat) (value : W64)
  | spdm (mctp : Bool) (code : Nat) (payload : List Byte)
  | doeAbort
  | atsDone (page : Nat)
  /-- A PCI Express request; its address has been translated (R143); it carries poison. -/
  | hostReq (id : Nat) (kind : AccessKind) (addr size : Nat) (data : List Byte) (atom : Option (AtomicOp × Nat)) (translated bad : Bool)
  /-- The translation of a page of host memory is asked for (R143). -/
  | atsReq (id page : Nat)
  | fabReq (id : Nat) (kind : AccessKind) (port board device off size : Nat) (key : W16) (data : List Byte) (byteMask : Nat)
      (atom : Option (AtomicOp × Nat)) (bad : Nat) (wantsCopy : Bool)
  | fabReply (id : Nat) (status : FabStatus) (data : List Byte) (flags : FpFlags)
  | backInvalidate (holder line : Nat)
  | biAck (home line : Nat)
  | yokeResult (hart : Nat) (value : W64) (poisoned : Bool)
  | yokeFault (hart : Nat) (store : Bool)
  | rdmaReply (data : List Byte)
  /-- An RDMA transfer of a chunk: queue, packet and chunk, Ethernet port, the connection record's bytes, target identity, its parts as offset,
  length and bytes (R57, R58). -/
  | rdmaReq (queue number chunk port : Nat) (conn : List Byte) (target : Nat) (write : Bool) (parts : List (Nat × Nat × List Byte))
  | thermalTrip
  deriving DecidableEq, Repr

/-- A snoop-filter entry (R50): the holders of a line, those whose acknowledgement is awaited, and when it was last granted, in grants. -/
structure Snoop where
  holders : List Nat
  awaiting : List Nat
  grantedAt : Nat
  deriving DecidableEq, Repr

/-- A secured session or a connection of the SPDM responder (R35). -/
structure SpdmConn where
  version : Bool
  algorithms : Bool
  sessions : List (Nat × Bool)
  deriving DecidableEq, Repr

/-- Recovery in progress (R33): the image's header, the bytes of it consumed, the kind awaited. -/
structure Recovery where
  kind : Nat
  header : List Byte
  bytes : Nat
  body : List Byte
  lastSeen : Bool
  deriving DecidableEq, Repr

/-- The trace of one Hamper (R277-R281). -/
structure TraceState where
  block : List Byte
  lastClock : Nat
  lost : Nat
  /-- Bytes each path has written since its SYNC. -/
  since : List (PathId × Nat)
  /-- Place of the path that wrote last, in the order of R113. -/
  lastPlace : Nat
  deriving DecidableEq, Repr

/-- Rotation of a quadrant (R116) and of its sampling (R275); the paths that have been found not ready since it last issued (R115). -/
structure Rotation where
  last : Nat
  again : Bool
  sample : Nat
  skip : List PathId := []
  deriving DecidableEq, Repr

/-- A path to issue, and from which of its streams (R114); whether something has issued in this turn; its quadrant, and the quadrant's rotation
before the pick. -/
structure Turn where
  id : PathId
  lane : Bool
  used : Bool := false
  back : Option (Nat × Rotation) := none
  deriving DecidableEq, Repr

/-- Ply memory (R186, R190-R204): stamps issued, PUB, the snapshot table and its generations, the stamp of each line's
current ply, older and tentative plies, transaction tags given. -/
structure PlyMem where
  issued : Nat
  pub : Nat
  snaps : Dict SnapEntry
  gens : Tab Nat
  lineStamp : Tab Nat
  olds : List OldPly
  tents : List Tentative
  nextTag : Nat
  /-- While the stores of one instruction or chunk are made, the lines in which they have committed (R204). -/
  group : Option (List Nat) := none
  deriving DecidableEq, Repr

/-- Boot, host link and attestation (R24-R37). -/
structure HostLink where
  /-- Images by slot × 8 + kind, signed headers first (R31). -/
  flash : Dict (List Byte)
  keyHash : Tab (BitVec 256)
  revoked : Tab Bool
  fuseSvn : Tab Nat
  runningSvn : Tab Nat
  /-- The highest of the stages 0 to 4 that boot has reached since the reset (R27, R30). -/
  reached : Nat
  /-- The images loaded since the reset: kind, LOAD_ADDR, BODY_LEN, KEY_SLOT (R32). -/
  images : List (Nat × Nat × Nat × Nat)
  /-- Private memories of the lock-step pair and of the packet workers: key kind × 2^26 + address (R32). -/
  priv : Tab Byte
  meas : Tab (BitVec 256)
  recovery : Option Recovery
  staging : Tab Byte
  /-- Mailbox rings: the host-to-device ring, then the device-to-host ring (R28). -/
  mailbox : Tab Byte
  seq : W32
  /-- `HST_H2D_WR` as last observed; a ring that the device ignores until a reset (R28). -/
  mbxSeen : Nat
  mbxDead : Bool
  /-- Device messages that wait for a free slot: KIND and body (R70). -/
  mail : List (Nat × List Byte)
  /-- Allocations: virtual address, bytes, physical address plus 1 or 0 (R70); queues the host opened (R95). -/
  allocs : List (Nat × Nat × Nat)
  /-- Live allocations of the ALLOC upcall: address space, virtual address, bytes (R68). -/
  userAllocs : List (Nat × Nat × Nat)
  queues : List Nat
  /-- The host ASID of R96, and the page-table pages that Holver has taken for it. -/
  hostAsid : Nat
  tables : Nat
  bars : Tab W64
  barSize : Tab Nat
  msixEnable : Bool
  atsEnable : Bool
  d3hot : Bool
  /-- The error bits of the AER capability (R24; log 7). -/
  aer : Nat
  /-- Pages in the address translation cache with their translations, the one used last first (R143). -/
  atc : List (Nat × Nat)
  ideKeys : Tab (BitVec 256)
  ideSlot : Tab Nat
  spdmDoe : SpdmConn
  spdmMctp : SpdmConn
  deriving DecidableEq, Repr

/-- Power, temperature and retirement (R15-R23). -/
structure Power where
  /-- A mode written that is not yet in force (R18). -/
  pending : Option Nat
  /-- Rate of each domain in 2^20ths of its ceiling: 0 matrix, 1 lanes, 2 HBM, 3 fabric (R19). -/
  rate : Tab Nat
  hot : Bool
  hotRefresh : Bool
  /-- Every clock stopped by the thermal trip (R23). -/
  stopped : Bool
  retireCreels : List Nat
  retireChannels : List Nat
  crossed : Tab Bool
  /-- Enabled channels of each HBM stack (R10, R14); the readings of the last 90 days, the newest first (R21, R22). -/
  stackChannels : Tab Nat
  history : List HealthReading
  deriving DecidableEq, Repr

/-- The fabric (R38-R60). -/
structure Fabric where
  /-- Ports whose requests are held (R45). -/
  held : List Nat
  /-- Copies of other devices' lines in the L2: home, line (R49). -/
  copies : List (Nat × Nat)
  snoop : Dict Snoop
  /-- By how many 2^20ths of the full rate each queue pair's rate is lowered (R59). -/
  rate : Tab Nat
  /-- Requests of other devices that wait at the L2: requester, number, physical address (R42). -/
  accepted : List (Nat × Nat × Nat)
  /-- Copies granted (R50). -/
  grants : Nat
  /-- Arrivals numbered under R55. -/
  arrivals : Nat
  deriving DecidableEq, Repr

/-- Debug, trace and replay (R268-R284). -/
structure Debug where
  trace : Dict TraceState
  hostWrites : Nat
  /-- Instructions that each Yoke core has retired (R55). -/
  retired : Tab Nat
  lost : Nat
  /-- The hart that wrote a STOP that may not have taken effect; 16 for none (R270). -/
  commander : Nat := 16
  deriving DecidableEq, Repr

/-- The state of the KL9. -/
structure State where
  /-- The model's own: work in hand and inputs to come, the path that issues next, free values drawn (log 1, 2). -/
  agenda : List Instr
  turn : Option Turn
  tick : Nat
  /-- The model's own: the event that has just come up must wait, and stays in hand. -/
  again : Bool
  /-- The model's own: lines with remote copies that the step has come to write, so that it must wait (R50). -/
  blocked : List Nat
  /-- `DBG_CLOCK` (R269). -/
  clock : Nat
  /-- Every memory-mapped register at its physical slot address; an unlisted one holds its reset value (R4, R5). -/
  regs : Tab W64
  /-- `YOK_MEAS_DATA` of each hart: key 4 × hart + i (R63). -/
  measData : Tab W64
  mem : Tab Byte
  /-- Poisoned 64-byte granules (R160). -/
  poison : Tab Bool
  /-- Reservations of LR: hart, address, bytes (R61). -/
  resv : List (Nat × Nat × Nat)
  tlb : List TlbEntry
  /-- Hamper SRAM: key Hamper × 2^19 + byte; poisoned 8-byte granules. -/
  sram : Tab Byte
  sramPoison : Tab Bool
  /-- Bank roles in force: key Hamper × 32 + bank (R147). -/
  roles : Tab Nat
  /-- The L1s of all Hampers, the superblock used last first; of entries of one Hamper and one superblock the first counts (R148). -/
  l1 : List L1Block
  /-- FIFO banks: key Hamper × 32 + bank; entries oldest first, with poison (R145). -/
  fifos : Dict (List (W64 × Bool))
  rotations : Tab Rotation
  coils : Dict Coil
  bolts : Dict Bolt
  boltOrder : Nat
  placements : Nat
  ops : Dict EngineOp
  copies : Dict CpaLane
  /-- Numbers given to engine operations, long operations and requests. -/
  nextOp : Nat
  remotes : Dict RemoteReq
  arrived : List Arrived
  faults : Dict FaultRec
  /-- Pending kind-1 upcalls by index, and the paths stopped at traps by index (R66, R262). -/
  upcalls : Dict UpcallReq
  traps : Dict PathId
  /-- Supervisor external interrupt of each hart. -/
  seip : Tab Bool
  ply : PlyMem
  queues : Dict CmdQueue
  /-- LAUNCH packets issued by each queue number (R100). -/
  launches : Tab Nat
  lastServed : Nat
  /-- The firmware complex has halted (R82), and whether its last reread mismatched. -/
  halted : Bool
  lastMismatch : Bool
  bte : Dict BteQueue
  /-- Save slots in use (R130). -/
  slots : List Nat
  link : HostLink
  /-- What the device has sent to the outside, the last first. -/
  outbox : List OutMsg
  power : Power
  fabric : Fabric
  debugUnit : Debug
  deriving DecidableEq, Repr

/-- A quadrant that has not issued. -/
def Rotation.start : Rotation := { last := 0, again := false, sample := 0 }

/-- An SPDM connection before GET_VERSION. -/
def SpdmConn.start : SpdmConn := { version := false, algorithms := false, sessions := [] }

/-- Ply memory with no region and no snapshot (R190, R193; log 13). -/
def PlyMem.reset : PlyMem :=
  { issued := 0, pub := 0, snaps := [], gens := [], lineStamp := [], olds := [], tents := [], nextTag := 0 }

/-- The host link before the boot ROM runs; fuses and flash of a part nothing has programmed (log 4, 5, 6, 7). -/
def HostLink.reset : HostLink where
  flash := []
  keyHash := []
  revoked := []
  fuseSvn := []
  runningSvn := []
  reached := 0
  images := []
  priv := []
  meas := []
  recovery := none
  staging := []
  mailbox := []
  seq := 0
  mbxSeen := 0
  mbxDead := false
  mail := []
  allocs := []
  userAllocs := []
  queues := []
  hostAsid := 0
  tables := 0
  bars := []
  barSize := []
  msixEnable := false
  atsEnable := false
  d3hot := false
  aer := 0
  atc := []
  ideKeys := []
  ideSlot := []
  spdmDoe := SpdmConn.start
  spdmMctp := SpdmConn.start

/-- Nothing limited, nothing retired. -/
def Power.reset : Power :=
  { pending := none, rate := [], hot := false, hotRefresh := false, stopped := false, retireCreels := [],
    retireChannels := [], crossed := [], stackChannels := [], history := [] }

/-- No request, no copy; queue pairs at full rate (log 9). -/
def Fabric.reset : Fabric := { held := [], copies := [], snoop := [], rate := [], accepted := [], grants := 0, arrivals := 0 }

/-- No trace. -/
def Debug.reset : Debug := { trace := [], hostWrites := 0, retired := [], lost := 0 }

/-- The machine right after a module reset (R29): every register at its Reset value, no bolt, nothing in hand (log 1 to 11). -/
def State.reset : State where
  agenda := []
  turn := none
  tick := 0
  again := false
  blocked := []
  clock := 0
  regs := []
  measData := []
  mem := []
  poison := []
  resv := []
  tlb := []
  sram := []
  sramPoison := []
  roles := []
  l1 := []
  fifos := []
  rotations := []
  coils := []
  bolts := []
  boltOrder := 0
  placements := 0
  ops := []
  copies := []
  nextOp := 0
  remotes := []
  arrived := []
  faults := []
  upcalls := []
  traps := []
  seip := []
  ply := PlyMem.reset
  queues := []
  launches := []
  lastServed := 0
  halted := false
  lastMismatch := false
  bte := []
  slots := []
  link := HostLink.reset
  outbox := []
  power := Power.reset
  fabric := Fabric.reset
  debugUnit := Debug.reset

end Sys2Proof.Machine
end

