-- ==== Sys2Proof/Machine/Regs.lean ====
section
/-! DEFINITION. The memory-mapped registers: their addresses, the access type of their fields and their Reset values
(R4, R5, R13, R26, R39, R63, R78, R144, R184, R231, R269). -/

namespace Sys2Proof.Machine

open Sys2Proof

/-- Bases of the register spaces; `hstBase` stands for BAR 0, which has no device physical address (R26). -/
def yokBase : Nat := 0x8000000000
def fwxBase : Nat := 0x8000001000
def memBase : Nat := 0x8000002000
def plyBase : Nat := 0x8000006000
def bteBase : Nat := 0x8000007000
def dbgBase : Nat := 0x8000008000
def modBase : Nat := 0x800000A000
def fabBase : Nat := 0x8000010000
def hstBase : Nat := 0x1000000000000000

def aUpcBase : Nat := yokBase
def aUpcCfg : Nat := yokBase + 0x08
def aUpcWr : Nat := yokBase + 0x10
def aUpcRd : Nat := yokBase + 0x18
def aUpcDone : Nat := yokBase + 0x20
def aFltBase : Nat := yokBase + 0x40
def aFltCfg : Nat := yokBase + 0x48
def aFltWr : Nat := yokBase + 0x50
def aFltRd : Nat := yokBase + 0x58
def aFltResume : Nat := yokBase + 0x60
def aSvnCommit : Nat := yokBase + 0x80
def aMeasExtend : Nat := yokBase + 0x88
def aMeasData : Nat := yokBase + 0x90
def aYokErr : Nat := yokBase + 0xC0

def aShadowBase : Nat := fwxBase
def aQrcCfg : Nat := fwxBase + 0x08
def aQrcCmd : Nat := fwxBase + 0x10
def aFwxStat : Nat := fwxBase + 0x18
def aPreempt : Nat := fwxBase + 0x20
def aCtxBase : Nat := fwxBase + 0x28
def aCtxCfg : Nat := fwxBase + 0x30
def aCoilBolt : Nat := fwxBase + 0x38
def aCoilPos : Nat := fwxBase + 0x40
def aCoilCmd : Nat := fwxBase + 0x48
def aTrapBase : Nat := fwxBase + 0x50
def aTrapCmd : Nat := fwxBase + 0x58
def aQrcErr (j : Nat) : Nat := fwxBase + 0x100 + 8 * j

def aSwin (i : Nat) : Nat := memBase + 8 * i
def aTlbVa : Nat := memBase + 0x200
def aTlbCmd : Nat := memBase + 0x208
def aMemErr : Nat := memBase + 0x210
def aMemErrAddr : Nat := memBase + 0x218
def aAsidBase : Nat := memBase + 0x220
def aWatchAddr (n : Nat) : Nat := memBase + 0x300 + 16 * n
def aWatchCtl (n : Nat) : Nat := memBase + 0x308 + 16 * n
def aBankRole (h : Nat) : Nat := memBase + 0x1000 + 8 * h
def aBankState (h : Nat) : Nat := memBase + 0x1800 + 8 * h
def aFifoAsid (h : Nat) : Nat := memBase + 0x2000 + 8 * h
def aCeCh (c : Nat) : Nat := memBase + 0x2800 + 8 * c

def aPlyCfg : Nat := plyBase
def aPlyClock : Nat := plyBase + 0x08
def aPlyLow : Nat := plyBase + 0x10
def aPlySnaps : Nat := plyBase + 0x18
def aPlySlots : Nat := plyBase + 0x20
def aPlyErr : Nat := plyBase + 0x28
def aPlyRgn (i : Nat) : Nat := plyBase + 0x800 + 8 * i

def aBteQtab : Nat := bteBase
def aBteCfg : Nat := bteBase + 0x08
def aBteQcmd : Nat := bteBase + 0x10
def aBteSave : Nat := bteBase + 0x18
def aBteErr (j : Nat) : Nat := bteBase + 0x100 + 8 * j

def aDbgCfg : Nat := dbgBase
def aDbgSelBolt : Nat := dbgBase + 0x08
def aDbgSelPos : Nat := dbgBase + 0x10
def aDbgCmd : Nat := dbgBase + 0x18
def aDbgDump : Nat := dbgBase + 0x20
def aDbgClock : Nat := dbgBase + 0x28
def aSmpCfg : Nat := dbgBase + 0x40
def aSmpBase : Nat := dbgBase + 0x48
def aSmpWr : Nat := dbgBase + 0x50
def aSmpRd : Nat := dbgBase + 0x58
def aSmpDrop : Nat := dbgBase + 0x60
def aTrcCfg : Nat := dbgBase + 0x80
def aTrcBase : Nat := dbgBase + 0x88
def aLogCfg : Nat := dbgBase + 0xC0
def aLogBase : Nat := dbgBase + 0xC8
def aLogWr : Nat := dbgBase + 0xD0
def aLogRd : Nat := dbgBase + 0xD8
def aLogLost : Nat := dbgBase + 0xE0
def aBpAddr (n : Nat) : Nat := dbgBase + 0x100 + 16 * n
def aBpCtl (n : Nat) : Nat := dbgBase + 0x108 + 16 * n
def aTrcWr (h : Nat) : Nat := dbgBase + 0x800 + 16 * h
def aTrcRd (h : Nat) : Nat := dbgBase + 0x808 + 16 * h

def aModUnits : Nat := modBase
def aModMem : Nat := modBase + 0x08
def aPwrMode : Nat := modBase + 0x10
def aPwrState : Nat := modBase + 0x18
def aPwrPkg : Nat := modBase + 0x20
def aPwrThrottle : Nat := modBase + 0x28
def aHltEol : Nat := modBase + 0x30
def aHltTrend (s : Nat) : Nat := modBase + 0x40 + 8 * s
def aHltMargin (p : Nat) : Nat := modBase + 0x80 + 8 * p
def aHltDrift (n : Nat) : Nat := modBase + 0x200 + 8 * n

def aFabId : Nat := fabBase
def aFabCfg : Nat := fabBase + 0x08
def aFabErr : Nat := fabBase + 0x10
def aFabReplay : Nat := fabBase + 0x18
def aRoceBase : Nat := fabBase + 0x20
def aPciePeer (d : Nat) : Nat := fabBase + 0x40 + 8 * d
def aPortStat (q : Nat) : Nat := fabBase + 0x100 + 8 * q
def aAskey (i : Nat) : Nat := fabBase + 0x400 + 8 * i
def aExport (g : Nat) : Nat := fabBase + 0x2000 + 8 * g
def aPodRoute (p : Nat) : Nat := fabBase + 0x8000 + 8 * p

def aHstBoot : Nat := hstBase
def aHstWin : Nat := hstBase + 0x08
def aRecGo : Nat := hstBase + 0x10
def aRecCtl : Nat := hstBase + 0x18
def aRecStat : Nat := hstBase + 0x20
def aMbxIdx : Nat := hstBase + 0x180000
def aMbxIdx2 : Nat := hstBase + 0x180008

/-- The bits of a register by access type, and its Reset value; every other bit is reserved (R4, R5). -/
structure RegInfo where
  rw : Nat := 0
  w1c : Nat := 0
  rc : Nat := 0
  reset : Nat := 0
  deriving DecidableEq, Repr

/-- All ones in the bits [h:l]. -/
def field (h l : Nat) : Nat := (2 ^ (h + 1 - l) - 1) * 2 ^ l

/-- `a` is slot `base + 8 × j` with `j` below `n`. -/
def inSlots (a base n : Nat) : Bool := decide (base ≤ a) && decide (a < base + 8 * n)

/-- Yoke, firmware and memory spaces (R63, R78, R130, R138, R144, R261, R266). -/
def regInfoCore (a : Nat) : RegInfo :=
  if a == aUpcBase || a == aFltBase then { rw := field 63 6 }
  else if a == aUpcCfg || a == aFltCfg then { rw := field 31 16 + 32 + field 4 0, reset := 6 }
  else if a == aUpcRd || a == aUpcDone || a == aFltRd then { rw := field 31 0 }
  else if a == aFltResume then { rw := field 32 0 }
  else if a == aSvnCommit || a == aMeasExtend then { rw := 7 }
  else if inSlots a aMeasData 4 then { rw := field 63 0 }
  else if a == aYokErr then { w1c := 7 }
  else if a == aShadowBase || a == aCtxBase || a == aTrapBase then { rw := field 63 12 }
  else if a == aQrcCfg then { rw := field 63 48 + field 44 32 + field 23 20 + field 12 0, reset := 8 * 2 ^ 20 + 250 }
  else if a == aQrcCmd then { rw := field 13 0 }
  else if a == aPreempt then { rw := field 31 0 }
  else if a == aCtxCfg then { rw := field 15 0 }
  else if a == aCoilBolt then { rw := field 63 0 }
  else if a == aCoilPos then { rw := field 63 32 + field 30 0 }
  else if a == aCoilCmd then { rw := 3 }
  else if a == aTrapCmd then { rw := field 34 0 }
  else if inSlots a (aQrcErr 0) 64 then { w1c := field 63 0 }
  else if inSlots a (aSwin 0) 64 then { rw := field 56 21 + field 16 0 }
  else if a == aTlbVa then { rw := field 56 12 }
  else if a == aTlbCmd then { rw := field 31 16 + 3 }
  else if a == aMemErr then { w1c := 15 }
  else if a == aAsidBase then { rw := field 63 20 }
  else if inSlots a (aWatchAddr 0) 16 then
    if (a - aWatchAddr 0) % 16 == 0 then { rw := field 63 0 }
    else { rw := field 47 32 + field 13 8 + 15, reset := 3 * 2 ^ 8 }
  else if inSlots a (aBankRole 0) 192 then { rw := field 59 0 }
  else if inSlots a (aFifoAsid 0) 192 then { rw := field 15 0 }
  else {}

/-- Ply, BTE and debug spaces (R184, R231, R269). -/
def regInfoUnits (a : Nat) : RegInfo :=
  if a == aPlyCfg then { rw := field 31 16 + field 6 0 }
  else if a == aPlyErr then { w1c := 15 }
  else if inSlots a (aPlyRgn 0) 256 then { rw := 2 ^ 63 + field 55 21 + field 14 0 }
  else if a == aBteQtab || a == aBteSave || a == aDbgDump || a == aSmpBase || a == aTrcBase || a == aLogBase then
    { rw := field 63 12 }
  else if a == aBteCfg then
    { rw := field 63 32 + field 27 12 + field 10 0, reset := 50 * 2 ^ 48 + 8 * 2 ^ 24 + 250 * 2 ^ 12 }
  else if a == aBteQcmd then { rw := field 36 32 + field 13 12 + field 9 0 }
  else if inSlots a (aBteErr 0) 16 then { w1c := field 63 0 }
  else if a == aDbgCfg then { rw := 1 }
  else if a == aDbgSelBolt then { rw := field 63 0 }
  else if a == aDbgSelPos then { rw := field 63 32 + field 30 0 }
  else if a == aDbgCmd then { rw := field 37 32 + field 27 24 + 2 ^ 8 + 7 }
  else if a == aSmpCfg then { rw := field 63 48 + 2 ^ 40 + 2 ^ 32 + field 20 16 + field 4 0, reset := 8 * 2 ^ 16 + 6 }
  else if a == aSmpRd || a == aLogRd then { rw := field 31 0 }
  else if a == aSmpDrop || a == aLogLost then { rc := field 31 0 }
  else if a == aTrcCfg then { rw := field 63 48 + 2 ^ 32 + field 4 0, reset := 12 }
  else if a == aLogCfg then { rw := field 4 0, reset := 6 }
  else if inSlots a (aBpAddr 0) 16 then
    if (a - aBpAddr 0) % 16 == 0 then { rw := field 63 0 } else { rw := field 47 32 + 3 }
  else if inSlots a (aTrcWr 0) 384 then
    if (a - aTrcWr 0) % 16 == 0 then {} else { rw := field 31 0 }
  else {}

/-- Module block, fabric space and BAR 0 boot registers (R12, R13, R17, R21, R30, R33, R39; log 3, log 8). -/
def regInfoOuter (a : Nat) : RegInfo :=
  if a == aModUnits then { reset := Config.ualLanes * 2 ^ 24 + Config.hampersD1 * 2 ^ 8 + Config.hampersD0 }
  else if a == aModMem then { reset := Config.memGib * 2 ^ 16 + Config.hbmChannels }
  else if a == aPwrMode then { rw := 3 }
  else if a == aPwrState then { reset := 1700 * 2 ^ 11 + 1700 }
  else if a == aPwrThrottle then { reset := 32 * 2 ^ 8 + 32 }
  else if a == aHltEol then { reset := 3 * 2 ^ 16 + 0xFFFF }
  else if a == aFabId then { rw := field 21 0 }
  else if a == aFabCfg then { rw := field 13 8 + field 5 0, reset := 4 * 2 ^ 10 + 36 }
  else if a == aFabErr then { w1c := 15 }
  else if a == aFabReplay then { rw := field 4 0 }
  else if a == aRoceBase then { rw := field 63 0 }
  else if inSlots a (aPciePeer 0) 8 then { rw := field 63 0 }
  else if inSlots a (aPortStat 0) 36 then { reset := (a - aPortStat 0) / 8 * 2 ^ 8 }
  else if inSlots a (aAskey 0) 64 then { rw := field 63 48 + field 17 0 }
  else if inSlots a (aExport 0) 1024 then { rw := field 63 48 + field 18 10 + 15 }
  else if inSlots a (aPodRoute 0) 4096 then { rw := field 31 30 + field 15 0 }
  else if a == aHstWin then { rw := field 63 0 }
  else if a == aRecGo then { rw := 1 }
  else if a == aRecCtl then { rw := 2 ^ 63 + field 55 32 + field 23 0 }
  else if a == aMbxIdx then { rw := field 31 0 }
  else if a == aMbxIdx2 then { rw := field 63 32 }
  else {}

/-- The information of the register in slot `a` (an 8-byte-aligned physical address). -/
def regInfo (a : Nat) : RegInfo :=
  if a < plyBase then regInfoCore a else if a < modBase then regInfoUnits a else regInfoOuter a

/-- The Reset value of slot `a`. -/
def regReset (a : Nat) : W64 := BitVec.ofNat 64 (regInfo a).reset

/-- A physical address lies in a register space that Yoke harts reach (R13, R39, R63, R78, R144, R184, R231, R269). -/
def inRegSpace (pa : Nat) : Bool :=
  (decide (yokBase ≤ pa) && decide (pa < modBase + 0x1000)) || (decide (fabBase ≤ pa) && decide (pa < fabBase + 0x10000))

/-- What slot `a` holds. -/
def State.reg (s : State) (a : Nat) : W64 := Tab.get (regReset a) s.regs a

/-- Sets slot `a`. -/
def State.setReg (s : State) (a : Nat) (v : W64) : State := { s with regs := Tab.set (regReset a) s.regs a v }

/-- What slot `a` holds, as a number. -/
def State.regN (s : State) (a : Nat) : Nat := (s.reg a).toNat

/-- Sets slot `a` to a number. -/
def State.setRegN (s : State) (a n : Nat) : State := s.setReg a (BitVec.ofNat 64 n)

/-- The field [h:l] of slot `a`. -/
def State.regF (s : State) (a h l : Nat) : Nat := bits (s.regN a) h l

/-- Sets the field [h:l] of slot `a`. -/
def State.setRegF (s : State) (a h l v : Nat) : State := s.setRegN a (setBits (s.regN a) h l v)

/-- Enabled Hampers (R12). -/
def State.hampers (s : State) : Nat := s.regF aModUnits 7 0 + s.regF aModUnits 15 8

/-- Bytes of device memory (R12, R450). -/
def State.memBytes (s : State) : Nat := s.regF aModMem 31 16 * 2 ^ 30

/-- This device's pod, board and device (R38). -/
def State.pod (s : State) : Nat := s.regF aFabId 21 10
def State.board (s : State) : Nat := s.regF aFabId 9 3
def State.device (s : State) : Nat := s.regF aFabId 2 0

end Sys2Proof.Machine
end

