-- ==== Sys2Proof/Machine/Mem.lean ====
section
/-! DEFINITION. Bytes of device memory and of Hamper SRAM, with the poison of their granules (R2, R145, R160), the error
registers, and the work in hand. -/

namespace Sys2Proof.Machine

open Sys2Proof

/-- The machine has more work in hand (log 1). -/
def State.push (s : State) (l : List Instr) : State := { s with agenda := s.agenda ++ l }

/-- The pair looks for room again (R104). -/
def State.wantPlace (s : State) : State := if s.agenda.contains .coilPlace then s else s.push [.coilPlace]

/-- The event that has come up must wait (log 1). -/
def State.wait (s : State) : State := { s with again := true }

/-- The machine draws one free value. -/
def State.draw (s : State) : State := { s with tick := s.tick + 1 }

/-- The device sends something to the outside. -/
def State.send (s : State) (m : OutMsg) : State := { s with outbox := m :: s.outbox }

/-- The canonical form of memory: addresses strictly rising, and no byte listed that equals what an unlisted address reads as. -/
abbrev Memory.wf (m : List Host.Cell) : Bool := Tab.wf Config.blank m

/-- One byte of device memory. -/
def State.byte (s : State) (pa : Nat) : Byte := Tab.get Config.blank s.mem pa

/-- `n` bytes of device memory from `pa`. -/
def State.bytes (s : State) (pa n : Nat) : List Byte := Tab.getRun Config.blank s.mem pa n

/-- Granules of `g` bytes that `n` bytes from `a` touch. -/
def granules (g a n : Nat) : List Nat := if n = 0 then [] else upFrom (a / g) ((a + n - 1) / g + 1 - a / g)

/-- Some granule of size `g` that the bytes touch is poisoned. -/
def poisonIn (g : Nat) (t : Tab Bool) (a n : Nat) : Bool := (granules g a n).any (fun k => Tab.get false t k)

/-- The poison marks after a write of `n` bytes from `a`: a poisoned store marks its granules, a store of a whole granule clears
it, any other leaves it (R160). -/
def poisonAfter (g : Nat) (t : Tab Bool) (a n : Nat) (bad : Bool) : Tab Bool :=
  Tab.setAll false t ((granules g a n).filterMap (fun k =>
    if bad then some (k, true)
    else if a ≤ g * k ∧ g * k + g ≤ a + n then some (k, false) else none))

/-- Bytes of memory are poisoned. -/
def State.memPoison (s : State) (pa n : Nat) : Bool := poisonIn 64 s.poison pa n

/-- Writes bytes to device memory, whatever the region; a reservation of those bytes is lost. -/
def State.poke (s : State) (pa : Nat) (l : List Byte) (bad : Bool) : State :=
  { s with mem := Tab.setRun Config.blank s.mem pa l, poison := poisonAfter 64 s.poison pa l.length bad
           resv := s.resv.filter (fun r => decide (r.2.1 + r.2.2 ≤ pa) || decide (pa + l.length ≤ r.2.1)) }

/-- First byte of the ply-store carve-out (R185). -/
def State.carveBase (s : State) : Nat := s.memBytes - s.regF aPlyCfg 6 0 * 2 ^ 31

/-- An address lies in the carve-out. -/
def State.inCarve (s : State) (pa : Nat) : Bool := decide (s.carveBase ≤ pa) && decide (pa < s.memBytes)

/-- Bytes at a physical address as the device reads its own tables; the carve-out reads zero (R185). -/
def State.peekBytes (s : State) (pa n : Nat) : List Byte := if s.inCarve pa then List.replicate n 0 else s.bytes pa n

/-- A number of `n` bytes at a physical address. -/
def State.peekN (s : State) (pa n : Nat) : Nat := ofBytes (s.peekBytes pa n)

/-- Bytes of Hamper SRAM, and their poison. -/
def State.sramBytes (s : State) (key n : Nat) : List Byte := Tab.getRun Config.blank s.sram key n
def State.sramBad (s : State) (key n : Nat) : Bool := poisonIn 8 s.sramPoison key n

/-- Writes Hamper SRAM. -/
def State.sramWrite (s : State) (key : Nat) (l : List Byte) (bad : Bool) : State :=
  { s with sram := Tab.setRun Config.blank s.sram key l, sramPoison := poisonAfter 8 s.sramPoison key l.length bad }

/-- Sets bits of `FAB_ERR` (0), `MEM_ERR` (1) or `PLY_ERR` (2): the bits that change from 0 to 1 raise an upcall of kind 4 (R64). -/
def State.setErr (s : State) (which mask : Nat) : State :=
  let a := if which = 0 then aFabErr else if which = 1 then aMemErr else aPlyErr
  let old := s.regN a
  let new := old ||| mask
  if new = old then s
  else
    let s1 := s.setRegN a new
    s1.push [.upcallPost { kind := 4, arg0 := BitVec.ofNat 64 new, arg1 := BitVec.ofNat 64 which,
                           arg2 := BitVec.ofNat 64 (new - old), arg3 := if which = 1 then s1.reg aMemErrAddr else 0 }]

/-- Enabled channels of an HBM stack; channels are numbered densely, stack by stack (R14; log 98). -/
def State.stackSize (s : State) (k : Nat) : Nat := Tab.get 32 s.power.stackChannels k

/-- The stack of a channel. -/
def State.stackOf (s : State) (c : Nat) : Nat :=
  ((upFrom 0 8).find? (fun k => decide (c < ((upFrom 0 (k + 1)).map s.stackSize).sum))).getD 7

/-- Hampers left when the scheduled retirements have taken effect, and channels of each stack. -/
def State.hampersLeft (s : State) : Nat := s.hampers - 2 * s.power.retireCreels.length
def State.stacksLeft (s : State) : List Nat :=
  (upFrom 0 8).map (fun k => s.stackSize k - (s.power.retireChannels.filter (fun c => s.stackOf c == k)).length)

/-- Raises the supervisor external interrupt of every hart in a mask (R65, R94). -/
def State.interrupt (s : State) (mask : Nat) : State :=
  { s with seip := Tab.setAll false s.seip ((upFrom 0 16).filterMap (fun h => if bit mask h then some (h, true) else none)) }

/-- The path that stands for a reader that is no strand's. -/
def noPath : PathId := { coil := 2 ^ 32, strand := 0, path := 15 }

/-- A field of a packet or of a record. -/
def recN (l : List Byte) (off n : Nat) : Nat := ofBytes ((l.drop off).take n)

/-- The coil context that a BTE packet names (R223). -/
def pkCctx (b : List Byte) : Nat := bits (recN b 48 4) 30 0

/-- Address of the entry of a BTE queue in its table (R218). -/
def State.bteAt (s : State) (q : Nat) : Nat := s.regF aBteQtab 63 12 * 4096 + 128 * q

/-- A field of the entry of a queue. -/
def State.bteF (s : State) (q off n : Nat) : Nat := s.peekN (s.bteAt q + off) n

/-- Its address space. -/
def State.bteAsid (s : State) (q : Nat) : Nat := s.bteF q 16 2

end Sys2Proof.Machine
end

