-- ==== Sys2Proof/Machine/PlyStore.lean ====
section
/-! DEFINITION. Ply memory: regions, the ply store, snapshots, versions of a line, commits, and reads and writes of device memory as
each agent makes them (R185-R208). -/

namespace Sys2Proof.Machine

open Sys2Proof

/-- Region `i`: valid, base and size (R184). -/
def State.rgnValid (s : State) (i : Nat) : Bool := bit (s.regN (aPlyRgn i)) 63
def State.rgnBase (s : State) (i : Nat) : Nat := s.regF (aPlyRgn i) 39 21 * 2 ^ 21
def State.rgnSize (s : State) (i : Nat) : Nat := (s.regF (aPlyRgn i) 14 0 + 1) * 2 ^ 21

/-- Regions that are valid. -/
def State.regions (s : State) : List Nat := (upFrom 0 256).filter s.rgnValid

/-- An address lies in a valid region (R188). -/
def State.inRegion (s : State) (pa : Nat) : Bool :=
  s.regions.any (fun i => decide (s.rgnBase i ≤ pa) && decide (pa < s.rgnBase i + s.rgnSize i))

/-- Slots of the store, and free ones (R186). -/
def State.plyTotal (s : State) : Nat :=
  (s.regF aPlyCfg 6 0 * 2 ^ 31 - (s.regions.map s.rgnSize).foldl (fun a b => a + b / 8) 0) / 144
def State.plyFree (s : State) : Nat := s.plyTotal - s.ply.olds.length

/-- Entries of the live-snapshot table in use and not revoked. -/
def PlyMem.live (p : PlyMem) : List SnapEntry := (p.snaps.map Prod.snd).filter (fun e => !e.revoked)

/-- The low-water mark (R195). -/
def PlyMem.low (p : PlyMem) : Nat :=
  match p.live.map SnapEntry.stamp with
  | [] => p.pub
  | x :: r => r.foldl Nat.min x

/-- Some entry in use and not revoked can reach a ply of the given stamp (R204). -/
def PlyMem.reaches (p : PlyMem) (stamp : Nat) : Bool := p.live.any (fun e => decide (stamp ≤ e.stamp))

/-- An older ply can be read at some snapshot in use: its stamp is at or below it and its successor's is above (R192, R205). -/
def PlyMem.reachable (p : PlyMem) (o : OldPly) : Bool :=
  p.live.any (fun e => decide (o.stamp ≤ e.stamp) && decide (e.stamp < o.next))

/-- The picker frees every older ply that no snapshot can reach (R205). -/
def State.pick (s : State) : State := { s with ply := { s.ply with olds := s.ply.olds.filter s.ply.reachable } }

/-- The entry in use with the lowest stamp that is not revoked, ties to the lower index (R206). -/
def PlyMem.victim (p : PlyMem) : Option Nat :=
  (p.snaps.filter (fun e => !e.2.revoked)).foldl
    (fun (b : Option (Nat × SnapEntry)) e => match b with
      | none => some e
      | some c => if e.2.stamp < c.2.stamp then some e else some c) none |>.map Prod.fst

/-- Revokes an entry (R207). -/
def State.revoke (s : State) (i : Nat) : State :=
  let s1 := { s with ply := { s.ply with snaps := Dict.upd s.ply.snaps i (fun e => { e with revoked := true }) } }
  let n := s1.regF aPlySnaps 63 32
  (s1.setRegF aPlySnaps 63 32 (min (n + 1) 0xFFFFFFFF)).setErr 2 4

/-- One repetition of R206 for a commit that waits for a slot: the oldest entry is revoked, and the picker frees. -/
def State.slotWaitStep (s : State) : State :=
  match s.ply.victim with
  | none => s
  | some i => (s.revoke i).pick

/-- A commit that needs a slot when none is free: revokes until one is free or the displaced ply is unreachable (R206). -/
def State.makeRoom (s : State) (stamp : Nat) : Nat → State
  | 0 => s
  | n + 1 =>
    if s.plyFree = 0 ∧ s.ply.reaches stamp then State.makeRoom s.slotWaitStep stamp n else s

/-- The stamp of a line's current ply (R187, R190). -/
def State.stampOf (s : State) (line : Nat) : Nat := Tab.get 0 s.ply.lineStamp line

/-- Moves the displaced current ply of a line into a slot when some snapshot can reach it (R204). -/
def State.keepOlder (s : State) (line stamp : Nat) : State :=
  let old := s.stampOf line
  let s1 := s.makeRoom old 1025
  if s1.ply.reaches old then
    let o : OldPly := { line := line, stamp := old, next := stamp, bytes := s1.bytes (128 * line) 128,
                        poison := [s1.memPoison (128 * line) 64, s1.memPoison (128 * line + 64) 64] }
    { s1 with ply := { s1.ply with olds := s1.ply.olds ++ [o] } }
  else s1

/-- Takes the next stamp (R190). -/
def State.nextStamp (s : State) : State := { s with ply := { s.ply with issued := s.ply.issued + 1 } }

/-- Publishes every stamp issued. -/
def State.publish (s : State) : State := { s with ply := { s.ply with pub := s.ply.issued } }

/-- Gives a line the stamp last issued, keeping its displaced ply. -/
def State.displace (s : State) (line : Nat) : State :=
  let s1 := s.keepOlder line s.ply.issued
  { s1 with ply := { s1.ply with lineStamp := Tab.set 0 s1.ply.lineStamp line s1.ply.issued } }

/-- The parts of `l` from `pa` that lie in lines of 128 bytes, with their addresses. -/
def splitLines : Nat → Nat → List Byte → List (Nat × List Byte)
  | 0, _, _ => []
  | _, _, [] => []
  | fuel + 1, pa, l =>
    let n := 128 - pa % 128
    (pa, l.take n) :: splitLines fuel (pa + n) (l.drop n)

/-- A commit of a line: among the stores of one instruction or chunk, one for each line (R204). -/
def State.commitOnce (s : State) (line : Nat) : State :=
  match s.ply.group with
  | none => s.nextStamp.displace line
  | some ls =>
    if ls.contains line then s
    else
      let s1 := s.nextStamp.displace line
      { s1 with ply := { s1.ply with group := some (line :: ls) } }

/-- One line's part of a non-transactional write: a commit in a ply region, else a plain write (R185, R204). -/
def State.writeLine (s : State) (pa : Nat) (l : List Byte) (bad : Bool) : State :=
  if s.inCarve pa then s.setErr 2 2
  else if s.inRegion pa then ((s.commitOnce (pa / 128)).poke pa l bad).publish
  else s.poke pa l bad

/-- The stores that follow are those of one instruction or chunk. -/
def State.grouped (s : State) : State := { s with ply := { s.ply with group := some [] } }

/-- The stores of one instruction or chunk are made. -/
def State.ungrouped (s : State) : State := { s with ply := { s.ply with group := none } }

/-- The stores that one instruction or chunk makes: each line of a ply region that they touch commits once (R204). -/
def State.asOne (s : State) (f : State → State) : State := (f s.grouped).ungrouped

/-- Back-invalidations go to the holders of lines that are written, and their acknowledgements are awaited (R50). -/
def State.recall (s : State) (pa n : Nat) : State :=
  if s.fabric.snoop = [] then s
  else (granules 128 pa n).foldl (fun s line =>
    match Dict.find? s.fabric.snoop line with
    | none => s
    | some e =>
      if e.awaiting = [] then
        let s1 := e.holders.foldl (fun s h => s.send (.backInvalidate h line)) s
        { s1 with fabric := { s1.fabric with snoop := Dict.put s1.fabric.snoop line { e with awaiting := e.holders } } }
      else s) s

/-- A write of lines that have remote copies must wait, and with it the step that makes it (R50; log 94). -/
def State.stall (s : State) (pa n : Nat) : State :=
  if s.fabric.snoop = [] then s
  else
    let l := (granules 128 pa n).filter (fun line => (Dict.find? s.fabric.snoop line).isSome)
    { s with blocked := l ++ s.blocked }

/-- A non-transactional write of device memory by any agent (R50, R204). -/
def State.write (s : State) (pa : Nat) (l : List Byte) (bad : Bool) : State :=
  (splitLines (l.length + 1) pa l).foldl (fun s p => s.writeLine p.1 p.2 bad) (s.stall pa l.length)

/-- A read of current device memory by any agent: the carve-out reads zero (R185, R192). -/
def State.read (s : State) (pa n : Nat) : List Byte × Bool × State :=
  if s.inCarve pa then (List.replicate n 0, false, s.setErr 2 2) else (s.bytes pa n, s.memPoison pa n, s)

/-- Takes a snapshot at PUB: shares an entry of that stamp or allocates one; none when the table is full (R193). -/
def State.takeSnap (s : State) : Option (Snap × State) :=
  match List.find? (fun e => !e.2.revoked && e.2.stamp == s.ply.pub) s.ply.snaps with
  | some (i, e) =>
    some ({ stamp := e.stamp, entry := i, gen := e.gen },
      { s with ply := { s.ply with snaps := Dict.put s.ply.snaps i { e with holders := e.holders + 1 } } })
  | none =>
    let i := Dict.fresh s.ply.snaps
    if i < 1024 then
      let g := Tab.get 0 s.ply.gens i + 1
      some ({ stamp := s.ply.pub, entry := i, gen := g },
        { s with ply := { s.ply with
            snaps := Dict.put s.ply.snaps i { stamp := s.ply.pub, holders := 1, gen := g, revoked := false }
            gens := Tab.set 0 s.ply.gens i g } })
    else none

/-- Releases one hold of a snapshot; its entry is freed with the last (R193). -/
def State.dropSnap (s : State) (x : Snap) : State :=
  match Dict.find? s.ply.snaps x.entry with
  | none => s
  | some e =>
    if e.gen ≠ x.gen then s
    else if e.holders ≤ 1 then
      let s1 := { s with ply := { s.ply with snaps := Dict.del s.ply.snaps x.entry } }
      if s1.ply.olds = [] then s1 else s1.push [.pickerFree]
    else { s with ply := { s.ply with snaps := Dict.put s.ply.snaps x.entry { e with holders := e.holders - 1 } } }

/-- The entry of a snapshot has been revoked (R207). -/
def State.revoked (s : State) (x : Snap) : Bool :=
  match Dict.find? s.ply.snaps x.entry with
  | some e => e.gen == x.gen && e.revoked
  | none => false

/-- How a reader sees a ply region (R192). -/
inductive View where
  | current
  | snap (x : Snap)
  | txn (t : Txn)
  deriving DecidableEq, Repr

/-- The ply of a line visible at a stamp: its bytes and the poison of its two halves (R192). -/
def State.plyAt (s : State) (line stamp : Nat) : List Byte × List Bool :=
  if s.stampOf line ≤ stamp ∨ s.stampOf line = 0 then
    (s.bytes (128 * line) 128, [s.memPoison (128 * line) 64, s.memPoison (128 * line + 64) 64])
  else match s.ply.olds.find? (fun o => o.line == line && decide (o.stamp ≤ stamp) && decide (stamp < o.next)) with
    | some o => (o.bytes, o.poison)
    | none => (s.bytes (128 * line) 128, [s.memPoison (128 * line) 64, s.memPoison (128 * line + 64) 64])

/-- The tentative ply that a transaction holds of a line (R198). -/
def State.tent? (s : State) (tag line : Nat) : Option Tentative :=
  s.ply.tents.find? (fun t => t.tag == tag && t.line == line)

/-- The bytes of a line as a view sees it. -/
def State.lineIn (s : State) (v : View) (line : Nat) : List Byte × List Bool :=
  match v with
  | .current => s.plyAt line s.ply.issued
  | .snap x => s.plyAt line x.stamp
  | .txn t => match s.tent? t.tag line with
    | some p => (p.bytes, p.poison)
    | none => s.plyAt line t.snap.stamp

/-- A read at this view meets a revoked snapshot (R207). -/
def State.viewRevoked (s : State) (v : View) (pa : Nat) : Bool :=
  s.inRegion pa && (match v with
    | .current => false
    | .snap x => s.revoked x
    | .txn t => (s.tent? t.tag (pa / 128)).isNone && s.revoked t.snap)

/-- A read of device memory within one line, at a view: bytes and poison. -/
def State.readView (s : State) (v : View) (pa n : Nat) : List Byte × Bool :=
  if s.inCarve pa then (List.replicate n 0, false)
  else if s.inRegion pa then
    let (l, p) := s.lineIn v (pa / 128)
    let o := pa % 128
    ((l.drop o).take n, (granules 64 o n).any (fun g => p.getD g false))
  else (s.bytes pa n, s.memPoison pa n)

/-- STORE_ACCESS is set by an access to the carve-out (R185). -/
def State.noteCarve (s : State) (pa : Nat) : State := if s.inCarve pa then s.setErr 2 2 else s

/-- A tentative line would be a ninth superblock in its L2 set, for a transaction of more than eight superblocks (R199). -/
def State.setFull (s : State) (tag line : Nat) : Bool :=
  let sb := line / 4
  let all := (s.ply.tents.map (fun t => t.line / 4)).eraseDups
  let mine := ((s.ply.tents.filter (fun t => t.tag == tag)).map (fun t => t.line / 4)).eraseDups
  !mine.contains sb && decide (8 ≤ mine.length)
    && decide (8 ≤ (all.filter (fun x => x != sb && Config.l2Set x == Config.l2Set sb)).length)

/-- A transaction's write set (R199). -/
def State.writeSet (s : State) (tag : Nat) : List Tentative := s.ply.tents.filter (fun t => t.tag == tag)

/-- The poison marks of a line's two granules after a write of part of it. -/
def linePoison (p : List Bool) (o n : Nat) (bad : Bool) : List Bool :=
  (upFrom 0 2).map (fun g =>
    if (granules 64 o n).contains g then
      (if bad then true else if o ≤ 64 * g ∧ 64 * g + 64 ≤ o + n then false else p.getD g false)
    else p.getD g false)

/-- A transactional write of part of a line: to its tentative ply, made first if needed; none where the write set may not grow
(R198, R199). -/
def State.writeTent (s : State) (t : Txn) (va pa : Nat) (l : List Byte) (bad : Bool) : Option State :=
  let line := pa / 128
  let o := pa % 128
  let upd (x : Tentative) : Tentative :=
    { x with bytes := x.bytes.take o ++ l ++ x.bytes.drop (o + l.length), poison := linePoison x.poison o l.length bad }
  match s.tent? t.tag line with
  | some _ =>
    some { s with ply := { s.ply with
      tents := s.ply.tents.map (fun x => if x.tag == t.tag && x.line == line then upd x else x) } }
  | none =>
    if 4096 ≤ (s.writeSet t.tag).length ∨ s.setFull t.tag line = true then none
    else
      let (b, p) := s.plyAt line t.snap.stamp
      some { s with ply := { s.ply with
        tents := s.ply.tents ++ [upd { tag := t.tag, line := line, va := va / 128 * 128, bytes := b, poison := p }] } }

/-- Discards every tentative ply of a transaction and releases its snapshot hold (R200). -/
def State.dropTents (s : State) (t : Txn) : State :=
  let s1 := { s with ply := { s.ply with tents := s.ply.tents.filter (fun x => x.tag != t.tag) } }
  if t.holds && t.aborted.isNone then s1.dropSnap t.snap else s1

end Sys2Proof.Machine
end

