-- ==== Sys2Proof/Machine/L1.lean ====
section
/-! DEFINITION. The L1 of a Hamper: what it holds, its misses and stores, its write-backs, and what acquire and release do to it
(R147-R150, R160; log 15). -/

namespace Sys2Proof.Machine

open Sys2Proof

/-- Role in force and requested role of a bank (R147): 0 SCR, 1 L1, 2 FIFO. -/
def State.role (s : State) (h b : Nat) : Nat := Tab.get 0 s.roles (32 * h + b)
def State.wanted (s : State) (h b : Nat) : Nat := bits (s.regN (aBankRole h)) (2 * b + 1) (2 * b)

/-- The entry of a superblock in the L1 of a Hamper. -/
def State.l1At (s : State) (h sb : Nat) : Option L1Block := s.l1.find? (fun b => b.hamper == h && b.base == sb)

/-- A byte is in the L1: fetched with its line, or dirty. -/
def L1Block.holds (b : L1Block) (o : Nat) : Bool := bit b.dirty o || bit b.filled (o / 128)

/-- A byte of device memory as the L1 of a Hamper gives it (R148). -/
def State.seen (s : State) (h pa : Nat) : Byte :=
  match s.l1At h (pa / 512) with
  | some b => if b.holds (pa % 512) then Tab.get Config.blank b.data (pa % 512) else s.byte pa
  | none => s.byte pa

/-- It is poisoned (R160). -/
def State.seenBad (s : State) (h pa : Nat) : Bool :=
  match s.l1At h (pa / 512) with
  | some b => if b.holds (pa % 512) then bit b.poison (pa % 512 / 8) else s.memPoison pa 1
  | none => s.memPoison pa 1

/-- Bytes and poison of a run. -/
def State.seenRun (s : State) (h pa n : Nat) : List Byte × Bool :=
  ((upFrom pa n).map (s.seen h), (upFrom pa n).any (s.seenBad h))

/-- The bits from `lo`, `n` of them. -/
def runMask (lo n : Nat) : Nat := (2 ^ n - 1) * 2 ^ lo

/-- Dirty bytes of one 64-byte granule go to the L2 under their byte mask (R148, R160). -/
def State.writeGranule (s : State) (b : L1Block) (g : Nat) : State :=
  let offs := (upFrom (64 * g) 64).filter (bit b.dirty)
  if offs.length = 64 then
    s.poke (512 * b.base + 64 * g) (Tab.getRun Config.blank b.data (64 * g) 64) (offs.any (fun o => bit b.poison (o / 8)))
  else offs.foldl (fun s o => s.poke (512 * b.base + o) [Tab.get Config.blank b.data o] (bit b.poison (o / 8))) s

/-- Dirty bytes of some lines go to the L2. -/
def State.writeLines (s : State) (b : L1Block) (ks : List Nat) : State :=
  (ks.flatMap (fun k => [2 * k, 2 * k + 1])).foldl (fun s g => if bits b.dirty (64 * g + 63) (64 * g) = 0 then s else s.writeGranule b g) s

/-- The block without line `k`. -/
def L1Block.without (b : L1Block) (k : Nat) : L1Block :=
  { b with filled := setBits b.filled k k 0
           dirty := setBits b.dirty (128 * k + 127) (128 * k) 0
           poison := setBits b.poison (16 * k + 15) (16 * k) 0
           behind := setBits b.behind k k 0 }

/-- A line all of whose bytes are dirty. -/
def L1Block.wholly (b : L1Block) (k : Nat) : Bool := bits b.dirty (128 * k + 127) (128 * k) == 2 ^ 128 - 1

/-- Lines of a block are written back; the block then stands as `b1`, and is gone when that holds nothing. -/
def State.l1Write (s : State) (b : L1Block) (ks : List Nat) (b1 : L1Block) : State :=
  let s1 := s.writeLines b ks
  if b1.filled = 0 ∧ b1.dirty = 0 then { s1 with l1 := s1.l1.filter (fun c => !(c.hamper == b.hamper && c.base == b.base)) }
  else { s1 with l1 := s1.l1.map (fun c => if c.hamper == b.hamper && c.base == b.base then b1 else c) }

/-- A superblock leaves an L1: its dirty bytes are written back first (R148). -/
def State.l1Evict (s : State) (h sb : Nat) : State :=
  match s.l1At h sb with
  | some b => s.l1Write b (upFrom 0 4) { b with filled := 0, dirty := 0 }
  | none => s

/-- Lines that some bytes touch leave an L1, before an agent that uses that L1 has them accessed at the L2 (R169). -/
def State.l1Flush (s : State) (h pa n : Nat) : State :=
  (granules 128 pa n).foldl (fun s line =>
    match s.l1At h (line / 4) with
    | some b => s.l1Write b [line % 4] (b.without (line % 4))
    | none => s) s

/-- Lines over which an engine writes at the L2: their dirty bytes are written back first, and lines that were fetched stay as they are, until
an acquire of the path that reads them (R169, R181). -/
def State.l1Clean (s : State) (h pa n : Nat) : State :=
  (granules 128 pa n).foldl (fun s line =>
    match s.l1At h (line / 4) with
    | some b =>
      let k := line % 4
      s.l1Write b [k] (if bit b.filled k then { b with dirty := setBits b.dirty (128 * k + 127) (128 * k) 0, behind := setBits b.behind k k 1 }
        else b.without k)
    | none => s) s

/-- Lines that an engine reads, and over which one has written, leave the L1 (R169). -/
def State.l1Renew (s : State) (h pa n : Nat) : State :=
  (granules 128 pa n).foldl (fun s line =>
    match s.l1At h (line / 4) with
    | some b => if bit b.behind (line % 4) then s.l1Write b [line % 4] (b.without (line % 4)) else s
    | none => s) s

/-- Superblocks in the L1 of a Hamper. -/
def State.l1Bases (s : State) (h : Nat) : List Nat := ((s.l1.filter (fun b => b.hamper == h)).map L1Block.base).eraseDups

/-- What an acquire does: lines that are not wholly dirty are written back and invalidated (R150). -/
def State.l1Acquire (s : State) (h : Nat) : State :=
  (s.l1Bases h).foldl (fun s sb =>
    match s.l1At h sb with
    | some b => (let ks := (upFrom 0 4).filter (fun k => !b.wholly k); s.l1Write b ks (ks.foldl L1Block.without b))
    | none => s) s

/-- The block after a release: clean, with the lines that were fetched and those that were wholly dirty (R150; log 15). -/
def L1Block.cleaned (b : L1Block) : L1Block :=
  let whole := (upFrom 0 4).filter b.wholly
  let gone := (upFrom 0 4).filter (fun k => !bit b.filled k && !b.wholly k)
  { gone.foldl L1Block.without b with dirty := 0, filled := whole.foldl (fun f k => setBits f k k 1) b.filled }

/-- Every dirty byte of a superblock is written back; its lines stay valid and clean (R150). -/
def State.l1Back (s : State) (h sb : Nat) : State :=
  match s.l1At h sb with
  | some b => s.l1Write b (upFrom 0 4) b.cleaned
  | none => s

/-- What a release does: every dirty byte is written back (R150). -/
def State.l1Release (s : State) (h : Nat) : State := (s.l1Bases h).foldl (fun s sb => s.l1Back h sb) s

/-- Banks that are ways of a set: 30 and 31, but for the sets of bank 31 that overlap the barrier words, and those in L1 role (R145, R149). -/
def State.l1Ways (s : State) (h set : Nat) : List Nat :=
  (upFrom 0 32).filter (fun b => b == 30 || (b == 31 && decide (2 ≤ set)) || (decide (b < 30) && s.role h b == 1))

/-- The block of a superblock, or a new one in a free way of its set, or in that of the superblock of the set used least recently, which is
evicted (R148, R149). -/
def State.l1Alloc (s : State) (h sb : Nat) : L1Block × State :=
  match s.l1At h sb with
  | some b => (b, s)
  | none =>
    let fresh (w : Nat) : L1Block := { hamper := h, base := sb, way := w, filled := 0, data := [], dirty := 0, poison := 0, behind := 0 }
    let here := s.l1.filter (fun b => b.hamper == h && b.base % 32 == sb % 32)
    match (s.l1Ways h (sb % 32)).find? (fun w => !(here.any (fun b => b.way == w))) with
    | some w => (fresh w, s)
    | none => match here.getLast? with
      | some v => (fresh v.way, s.l1Evict h v.base)
      | none => (fresh 30, s)

/-- A block becomes the one of its L1 that was used last. -/
def State.l1Put (s : State) (b : L1Block) : State :=
  { s with l1 := b :: s.l1.filter (fun c => !(c.hamper == b.hamper && c.base == b.base)) }

/-- A line is fetched: its bytes that are not dirty come from the L2, with their poison (R148, R160). -/
def State.fetchLine (s : State) (b : L1Block) (k : Nat) : L1Block :=
  let offs := (upFrom (128 * k) 128).filter (fun o => !bit b.dirty o)
  { b with
    filled := setBits b.filled k k 1
    data := Tab.setAll Config.blank b.data (offs.map (fun o => (o, s.byte (512 * b.base + o))))
    poison := (upFrom (16 * k) 16).foldl (fun p j =>
      let here := offs.filter (fun o => o / 8 == j)
      if here != [] && s.memPoison (512 * b.base + 8 * j) 8 then setBits p j j 1 else if here.length = 8 then setBits p j j 0 else p) b.poison }

/-- A read goes through the L1 of a Hamper: lines that it misses are fetched (R148). -/
def State.l1Touch (s : State) (h pa n : Nat) : State :=
  let (b, s1) := s.l1Alloc h (pa / 512)
  let miss := (granules 128 (pa % 512) n).filter (fun k => (upFrom (pa % 512) n).any (fun o => o / 128 == k && !b.holds o))
  s1.l1Put (miss.foldl s1.fetchLine b)

/-- A write goes into the L1 of a Hamper: its line is not fetched, and the bytes written are dirty (R149, R160). -/
def State.l1Store (s : State) (h pa : Nat) (l : List Byte) (bad : Bool) : State :=
  let (b, s1) := s.l1Alloc h (pa / 512)
  let o := pa % 512
  s1.l1Put { b with
    data := Tab.setRun Config.blank b.data o l
    dirty := b.dirty ||| runMask o l.length
    poison := (granules 8 o l.length).foldl (fun p j =>
      if bad then setBits p j j 1 else if o ≤ 8 * j ∧ 8 * j + 8 ≤ o + l.length then setBits p j j 0 else p) b.poison }

/-- The Hampers of a coil (R104). -/
def Coil.hampers (c : Coil) (d : Desc) : List Nat := c.hamper :: (if d.pair then [c.hamper + 1] else [])

/-- What the start or the restore of a coil does to the L1s of its Hampers, and what its end or its save does (R106, R131, R171). -/
def State.acquireAll (s : State) (c : Coil) (d : Desc) : State := (c.hampers d).foldl State.l1Acquire s
def State.releaseAll (s : State) (c : Coil) (d : Desc) : State := (c.hampers d).foldl State.l1Release s

/-- A bank leaves the L1 role: its dirty bytes are written back and its lines invalidated (R147). -/
def State.l1Leave (s : State) (h way : Nat) : State :=
  ((s.l1.filter (fun b => b.hamper == h && b.way == way)).map L1Block.base).foldl (fun s sb => s.l1Evict h sb) s

/-- Hamper and superblock of what the L1s hold of a range of addresses. -/
def State.l1Over (s : State) (pa n : Nat) : List (Nat × Nat) :=
  (s.l1.filter (fun b => decide (pa < 512 * b.base + 512) && decide (512 * b.base < pa + n))).map (fun b => (b.hamper, b.base))

/-- Superblocks of a range of addresses leave every L1: a ply region never has lines there (R149, R187). -/
def State.l1Purge (s : State) (pa n : Nat) : State := (s.l1Over pa n).foldl (fun s e => s.l1Evict e.1 e.2) s

/-- Accesses to a range of addresses are performed at the L2: what is dirty there is written back (R156). -/
def State.l1Settle (s : State) (pa n : Nat) : State := (s.l1Over pa n).foldl (fun s e => s.l1Back e.1 e.2) s

/-- Some L1 holds dirty bytes of a line. -/
def State.l1Dirty (s : State) (line : Nat) : Bool :=
  s.l1.any (fun b => b.base == line / 4 && bits b.dirty (128 * (line % 4) + 127) (128 * (line % 4)) != 0)

end Sys2Proof.Machine
end

