-- ==== Sys2Proof/Machine/Translate.lean ====
section
/-! DEFINITION. Address spaces and translation: canonical addresses, windows, page walks and TLBs (R140-R143, R154-R156, R450). -/

namespace Sys2Proof.Machine

open Sys2Proof

/-- `S_WIN` of an address space: the valid `MEM_SWIN` entry of the lowest index (R141). -/
def State.swin (s : State) (asid : Nat) : Option Nat :=
  ((upFrom 0 64).find? (fun i => bit (s.regN (aSwin i)) 16 && s.regF (aSwin i) 15 0 == asid)).map
    (fun i => s.regF (aSwin i) 56 21 * 2 ^ 21)

/-- Offset in the scratchpad window of an address space, if the address lies in it (R140). -/
def State.winOff (s : State) (asid va : Nat) : Option Nat :=
  match s.swin asid with
  | some w => if w ≤ va ∧ va < w + 2 ^ 21 then some (va - w) else none
  | none => none

/-- An address of the peer window: bits [63:51] all ones, bit [50] clear (R40). -/
def inPeerWin (va : Nat) : Bool := bits va 63 50 == 0x3FFE

/-- Bounds of the host window (R143). -/
def hostLo : Nat := 0x100000000000
def hostHi : Nat := 0x200000000000
def inHostWin (pa : Nat) : Bool := decide (hostLo ≤ pa) && decide (pa < hostHi)

/-- Every byte from `pa` on is backed (R450). -/
def State.backed (s : State) (pa n : Nat) : Bool :=
  decide (pa + n ≤ s.memBytes) || (decide (hostLo ≤ pa) && decide (pa + n ≤ hostHi))
    || (inRegSpace pa && inRegSpace (pa + n - 1))

/-- What a translation gives: a physical address, or a failure with its CAUSE, LEVEL and PTE_PA (R157). -/
inductive Xl where
  | ok (pa : Nat)
  | fail (cause level pte : Nat)
  deriving DecidableEq, Repr

/-- The leaf's permissions allow an access (R154). -/
def permits (k : AccessKind) (r w x : Bool) : Bool :=
  match k with
  | .read => r
  | .write => w
  | .atomic => r && w
  | .execute => x

/-- An access of this kind writes. -/
def kindWrites : AccessKind → Bool
  | .write => true
  | .atomic => true
  | _ => false

/-- Who asks for a translation: strands and engines of a Hamper, or a unit served by the shared TLB of a die (R155). -/
inductive TlbUser where
  | hamper (h : Nat)
  | die (d : Nat)
  deriving DecidableEq, Repr

/-- The die of a logical Hamper (R11). -/
def State.dieOf (s : State) (h : Nat) : Nat := if h < s.regF aModUnits 7 0 then 0 else 1

/-- The levels in which a unit's translation is looked for (R155). -/
def State.tlbLevels (s : State) : TlbUser → List TlbLevel
  | .hamper h => [.micro h, .creel (h / 2), .shared (s.dieOf h)]
  | .die d => [.shared d]

/-- Entries of a level (R155). -/
def TlbLevel.entries : TlbLevel → Nat
  | .micro _ => 64
  | .creel _ => 1024
  | .shared _ => 65536

/-- A TLB entry covers an address and allows the access. -/
def TlbEntry.serves (e : TlbEntry) (asid va : Nat) (k : AccessKind) : Bool :=
  e.asid == asid && decide (e.vbase ≤ va) && decide (va < e.vbase + e.size) && permits k e.r e.w e.x && (!kindWrites k || e.dirty)

/-- The TLB entry, at the nearest level of a unit, that covers an address and allows the access (R155). -/
def State.tlbFind (s : State) (u : TlbUser) (asid va : Nat) (k : AccessKind) : Option TlbEntry :=
  (s.tlbLevels u).findSome? (fun l => s.tlb.find? (fun e => e.level == l && e.serves asid va k))

/-- Changes the translations that are held: lines that an L1 has written in pages which no level holds any more are written back (R156). -/
def State.setTlb (s : State) (t : List TlbEntry) : State :=
  let lost := s.tlb.filter (fun x => !t.any (fun e => e.asid == x.asid && e.vbase == x.vbase && e.size == x.size && e.pbase == x.pbase))
  { lost.foldl (fun s e => s.l1Settle e.pbase e.size) s with tlb := t }

/-- Puts a translation into a level: it takes the place of one of the same page, and in a full level of one that no rule names (R155; log 87). -/
def State.tlbPut (s : State) (e : TlbEntry) (l : TlbLevel) : State :=
  let rest := s.tlb.filter (fun x => !(x.level == l && x.asid == e.asid && x.vbase == e.vbase && x.size == e.size))
  let here := rest.filter (fun x => x.level == l)
  let put (t : List TlbEntry) : List TlbEntry := { e with level := l } :: t
  if here.length < l.entries then s.setTlb (put rest)
  else match here[Config.choice s.tick % here.length]? with
    | some x => s.draw.setTlb (put (rest.erase x))
    | none => s.setTlb (put rest)

/-- Fills levels with a translation. -/
def State.tlbFill (s : State) (ls : List TlbLevel) (e : TlbEntry) : State := ls.foldl (fun s l => s.tlbPut e l) s

/-- A PTE has a bit set that Sv57 reserves, or W without R: malformed. -/
def pteBad (p : Nat) : Bool := bits p 60 54 != 0 || bits p 62 61 == 3 || (!bit p 1 && bit p 2)

/-- A pointer PTE has a bit set that Sv57 reserves in one: N, PBMT, A, D or U. -/
def pointerBad (p : Nat) : Bool := bits p 63 61 != 0 || bits p 7 6 != 0 || bit p 4

/-- A PTE that points to a further level: R, W and X clear. -/
def pteNext (p : Nat) : Bool := bits p 3 1 == 0

/-- The leaf's page: physical base and size, none when the leaf is malformed at this level (R154). -/
def leafPage (level p : Nat) : Option (Nat × Nat) :=
  let ppn := bits p 53 10
  match level with
  | 0 => if bit p 63 then (if bits ppn 3 0 == 8 then some ((ppn / 16 * 16) * 4096, 65536) else none)
         else some (ppn * 4096, 4096)
  | 1 => if bit p 63 || bits ppn 8 0 != 0 then none else some (ppn * 4096, 2 ^ 21)
  | 2 => if bit p 63 || bits ppn 17 0 != 0 then none else some (ppn * 4096, 2 ^ 30)
  | _ => none

/-- Sets A, and D on a write, in a leaf by an update of the PTE at the L2 (R154). -/
def State.markLeaf (s : State) (pte p : Nat) (k : AccessKind) : State × Nat :=
  let q := p ||| 0x40 ||| (if kindWrites k then 0x80 else 0)
  if q = p then (s, q) else (s.write pte (toBytes 8 q) false, q)

/-- A walk from a table at `root` down from `level` (R154). -/
def State.walkFrom (s : State) (u : TlbUser) (asid va : Nat) (k : AccessKind) (root : Nat) : Nat → Xl × State
  | 0 => (.fail 2 0 root, s)
  | n + 1 =>
    let pte := root + 8 * (bits va (12 + 9 * n + 8) (12 + 9 * n))
    if s.memBytes < pte + 8 then (.fail 2 n pte, s)
    else
      let (l, bad, s1) := s.read pte 8
      let p := ofBytes l
      if bad then (.fail 3 n pte, s1)
      else if !bit p 0 then (.fail 0 n pte, s1)
      else if pteBad p then (.fail 2 n pte, s1)
      else if pteNext p then
        if pointerBad p || n == 0 then (.fail 2 n pte, s1)
        else State.walkFrom s1 u asid va k (bits p 53 10 * 4096) n
      else
        match leafPage n p with
        | none => (.fail 2 n pte, s1)
        | some (base, size) =>
          if !s1.backed base size then (.fail 2 n pte, s1)
          else if !(bit p 4 && permits k (bit p 1) (bit p 2) (bit p 3)) then (.fail 1 n pte, s1)
          else
            let (s2, q) := s1.markLeaf pte p k
            let e : TlbEntry := { asid := asid, vbase := va / size * size, size := size, pbase := base, r := bit p 1,
                                  w := bit p 2, x := bit p 3, dirty := bit q 7 }
            (.ok (base + va % size), s2.tlbFill (s2.tlbLevels u) e)

/-- A page walk in an address space, from the entry of the address-space table, which fills every level of the unit (R142, R154, R155). -/
def State.walk (s : State) (u : TlbUser) (asid va : Nat) (k : AccessKind) : Xl × State :=
  let a := s.regF aAsidBase 63 20 * 2 ^ 20 + 16 * asid
  if s.memBytes < a + 16 then (.fail 2 4 a, s)
  else
    let (l, bad, s1) := s.read a 16
    let lo := ofBytes (l.take 8)
    if bad then (.fail 3 4 a, s1)
    else if !bit lo 63 || bits lo 62 44 != 0 || ofBytes (l.drop 8) != 0 then (.fail 2 4 a, s1)
    else s1.walkFrom u asid va k (bits lo 43 0 * 4096) 5

/-- Translates an address for a unit: from a TLB, which fills the nearer levels, else by a walk (R154, R155). -/
def State.translate (s : State) (u : TlbUser) (asid va : Nat) (k : AccessKind) : Xl × State :=
  match s.tlbFind u asid va k with
  | some e => (.ok (e.pbase + (va - e.vbase)), s.tlbFill ((s.tlbLevels u).takeWhile (fun l => l != e.level)) e)
  | none => s.walk u asid va k

/-- An address space is live (R142). -/
def State.asidLive (s : State) (asid : Nat) : Bool :=
  let a := s.regF aAsidBase 63 20 * 2 ^ 20 + 16 * asid
  decide (a + 16 ≤ s.memBytes) && bit (s.peekN a 8) 63 && bits (s.peekN a 8) 62 44 == 0 && s.peekN (a + 8) 8 == 0

/-- An access of some kind to some bytes matches a watchpoint of the address space (R266). -/
def State.watched (s : State) (asid va n : Nat) (k : AccessKind) : Bool :=
  (upFrom 0 8).any (fun i =>
    let c := s.regN (aWatchCtl i)
    let len := 2 ^ bits c 13 8
    let a := s.regN (aWatchAddr i) / len * len
    bit c 3 && bits c 47 32 == asid
      && (match k with | .read => bit c 0 | .write => bit c 1 | .atomic => bit c 2 | .execute => false)
      && decide (va < a + len) && decide (a < va + n))

/-- The `FAB_ASKEY` entry that governs an address space (R41). -/
def State.askey (s : State) (asid : Nat) : Option Nat :=
  (upFrom 0 64).find? (fun i => bit (s.regN (aAskey i)) 16 && s.regF (aAskey i) 15 0 == asid)

/-- An address space may use the peer window, and the key its requests carry (R41). -/
def State.peerKey (s : State) (asid : Nat) : Option Nat :=
  match s.askey asid with
  | some i => if bit (s.regN (aAskey i)) 17 then some (s.regF (aAskey i) 63 48) else none
  | none => none

/-- A port is up (R45). -/
def State.portUp (s : State) (q : Nat) : Bool := s.regF (aPortStat q) 1 0 != 0

/-- The port on which R43 places a request for line number `line`, when the ports of `up` are up. -/
def State.routeBy (s : State) (up : Nat → Bool) (line : Nat) : Option Nat :=
  let p := s.regF aFabCfg 5 0
  let q := 36 / p
  let j := line % p
  let i := (line / p) % q
  let plane (k first : Nat) : List Nat := (upFrom 0 q).map (fun x => k * q + (first + x) % q)
  (plane j i ++ (upFrom 1 (p - 1)).flatMap (fun d => plane ((j + d) % p) 0)).find? up

/-- The port on which a request for line number `line` leaves (R43). -/
def State.route (s : State) (line : Nat) : Option Nat := s.routeBy s.portUp line

/-- The export check of the target (R42): the physical address, or none. -/
def State.exportPa (s : State) (key off : Nat) (k : AccessKind) : Option Nat :=
  let g := off / 2 ^ 30
  let e := s.regN (aExport g)
  let pb := bits e 18 10
  if bits e 63 48 = key ∧ (match k with | .read => bit e 0 | .write => bit e 1 | .atomic => bit e 2 | .execute => false) = true
      ∧ pb + 1 ≤ s.regF aModMem 31 16 then some (pb * 2 ^ 30 + off % 2 ^ 30)
  else none

end Sys2Proof.Machine
end

