-- ==== Sys2Proof/Machine/Ops.lean ====
section
/-! DEFINITION. The named operations over coils, strands, paths and their registers (R107, R113, R121-R123, R290, R338). -/

namespace Sys2Proof.Machine

open Sys2Proof

/-- The coil of a context number. -/
def State.coil? (s : State) (k : Nat) : Option Coil := Dict.find? s.coils k

/-- A coil with its bolt. -/
def State.coilBolt? (s : State) (k : Nat) : Option (Coil × Bolt) :=
  match s.coil? k with
  | none => none
  | some c => (Dict.find? s.bolts c.bolt).map (fun b => (c, b))

/-- Changes a coil. -/
def State.updCoil (s : State) (k : Nat) (f : Coil → Coil) : State := { s with coils := Dict.upd s.coils k f }

/-- Changes a strand of a coil. -/
def State.updStrand (s : State) (k i : Nat) (f : Strand → Strand) : State :=
  s.updCoil k (fun c => { c with strands := c.strands.modify i f })

/-- The path of a strand: 15 for the root, else a split-table entry. -/
def Strand.path? (st : Strand) (p : Nat) : Option PathState :=
  if p = 15 then (if st.ended then none else some st.root) else Dict.find? st.entries p

/-- Changes a path of a strand. -/
def Strand.updPath (st : Strand) (p : Nat) (f : PathState → PathState) : Strand :=
  if p = 15 then { st with root := f st.root } else { st with entries := Dict.upd st.entries p f }

/-- Changes a path. -/
def State.updPath (s : State) (id : PathId) (f : PathState → PathState) : State :=
  s.updStrand id.coil id.strand (fun st => st.updPath id.path f)

/-- A strand. -/
def State.strand? (s : State) (k i : Nat) : Option Strand := (s.coil? k).bind (fun c => c.strands[i]?)

/-- A path. -/
def State.path? (s : State) (id : PathId) : Option PathState := (s.strand? id.coil id.strand).bind (fun st => st.path? id.path)

/-- The live paths of a strand: the root, then entries ascending (R113). -/
def Strand.livePaths (st : Strand) : List Nat := if st.ended then [] else 15 :: st.entries.map Prod.fst

/-- The path that issues, with everything that its instruction reads of its surroundings. -/
structure Issuer where
  id : PathId
  coil : Coil
  strand : Strand
  path : PathState
  bolt : Bolt
  deriving DecidableEq, Repr

/-- The issuer of a path, if it and its bolt exist. -/
def State.issuerAt (s : State) (id : PathId) : Option Issuer :=
  match s.coil? id.coil with
  | none => none
  | some c =>
    match c.strands[id.strand]?, Dict.find? s.bolts c.bolt with
    | some st, some b => (st.path? id.path).map (fun p => { id := id, coil := c, strand := st, path := p, bolt := b })
    | _, _ => none

/-- The path that has the turn (R114). -/
def State.issuer (s : State) : Option Issuer :=
  match s.turn with
  | none => none
  | some t => s.issuerAt t.id

/-- The role of strand `i` of a bolt: 1 copy, 2 matrix, 4 vector (R97, R108). -/
def Desc.roleOf (d : Desc) (i : Nat) : Nat := if i < d.ncopy then 1 else if i < d.ncopy + d.nmtx then 2 else 4

/-- Strands of the even half of a coil: all of them when it is unpaired (R104). -/
def Desc.evenStrands (d : Desc) : Nat := if d.pair then (d.nstr + 1) / 2 else d.nstr

/-- The half on which strand `i` runs: 0 even, 1 odd. -/
def Desc.halfOf (d : Desc) (i : Nat) : Nat := if i < d.evenStrands then 0 else 1

def Issuer.desc (x : Issuer) : Desc := x.bolt.desc
def Issuer.role (x : Issuer) : Nat := x.desc.roleOf x.id.strand
def Issuer.half (x : Issuer) : Nat := x.desc.halfOf x.id.strand
def Issuer.hamper (x : Issuer) : Nat := x.coil.hamper + x.half
def Issuer.asid (x : Issuer) : Nat := x.bolt.asid
/-- W, the lanes of the strand. -/
def Issuer.w (x : Issuer) : Nat := x.desc.lanes
def Issuer.isRoot (x : Issuer) : Bool := x.id.path == 15

/-- Synchronisation at a scope acts on the L1 of the path's Hamper: .dev and wider, and .coil in a paired coil (R150). -/
def Issuer.acts (x : Issuer) (scope : Nat) : Bool := decide (2 ≤ scope) || (scope == 1 && x.desc.pair)

/-- An atomic of a scope is performed at the L2 (R150). -/
def Issuer.atL2 (x : Issuer) (scope : Nat) : Bool := decide (2 ≤ scope) || x.desc.pair

/-- What an acquire, and a release, of a path at a scope do to the L1 of its Hamper (R150). -/
def State.acquireAt (s : State) (x : Issuer) (scope : Nat) : State := if x.acts scope then s.l1Acquire x.hamper else s
def State.releaseAt (s : State) (x : Issuer) (scope : Nat) : State := if x.acts scope then s.l1Release x.hamper else s

/-- The acquire of a path whose answers have come. -/
def State.acquireOf (s : State) (p : PathId) (scope : Option Nat) : State :=
  match scope, s.issuerAt p with
  | some sc, some x => s.acquireAt x sc
  | _, _ => s

/-- A path goes on with an acquire of scope .dev (R66, R69, R171, R262). -/
def State.acquireFor (s : State) (p : PathId) : State :=
  match s.issuerAt p with
  | some x => s.acquireAt x 2
  | none => s

/-- SPLINT of records: 0 the strand itself, 1 to 8 entry 0 to 7 (R64). -/
def splintOf (p : Nat) : Nat := if p = 15 then 0 else p + 1

/-- Key of scalar register `r` as path `p` names it (R123). -/
def sKey (p r : Nat) : Nat := if r < 48 then r else 64 * (p + 1) + r

/-- Reads a scalar register; s0 reads as zero (R290). -/
def Strand.getS (st : Strand) (p r : Nat) : W64 := if r = 0 then 0 else Tab.get 0 st.sregs (sKey p r)

/-- A scalar register is poisoned (R263). -/
def Strand.badS (st : Strand) (p r : Nat) : Bool := if r = 0 then false else Tab.get false st.spoison (sKey p r)

/-- Writes a scalar register by key. -/
def Strand.putS (st : Strand) (key : Nat) (v : W64) (bad : Bool) : Strand :=
  { st with sregs := Tab.set 0 st.sregs key v, spoison := Tab.set false st.spoison key bad }

/-- Writes a scalar register; a write to s0 is discarded (R290). -/
def Strand.setS (st : Strand) (p r : Nat) (v : W64) (bad : Bool) : Strand :=
  if r = 0 then st else st.putS (sKey p r) v bad

def Issuer.s (x : Issuer) (r : BitVec 6) : W64 := x.strand.getS x.id.path r.toNat
def Issuer.sAt (x : Issuer) (r : Nat) : W64 := x.strand.getS x.id.path r
def Issuer.sBad (x : Issuer) (r : Nat) : Bool := x.strand.badS x.id.path r

/-- Writes a scalar register of a path (R123, R290). -/
def State.setS (s : State) (id : PathId) (r : Nat) (v : W64) (bad : Bool) : State :=
  s.updStrand id.coil id.strand (fun st => st.setS id.path r v bad)

/-- Sets the flags of a path. -/
def State.setScc (s : State) (id : PathId) (c : Scc) : State := s.updPath id (fun p => { p with scc := c })

/-- Sets the PC of a path. -/
def State.setPc (s : State) (id : PathId) (pc : W64) : State := s.updPath id (fun p => { p with pc := pc })

/-- A path parked in its lane stream goes on: it stands at a trap of its scalar stream, if it did, or it runs (R259). -/
def PathState.unpark (p : PathState) : PathState :=
  match p.standing with
  | some (t, i) => { p with park := .trap t i none, standing := none }
  | none => { p with park := .running }

/-- A path parks in its lane stream; a trap at which its scalar stream stands remains (R259). -/
def PathState.parkLane (k : Park) (p : PathState) : PathState :=
  match p.park with
  | .trap t i none => { p with park := k, standing := some (t, i) }
  | _ => { p with park := k }

/-- The traps at which a path stands, each with its upcall index once it is known. -/
def PathState.traps (p : PathState) : List (TrapInfo × Option Nat) :=
  (match p.park with
    | .trap t i under => (t, i) :: under.toList
    | _ => []) ++ p.standing.toList

/-- Sets the parking of a path. -/
def State.setPark (s : State) (id : PathId) (k : Park) : State := s.updPath id (fun p => { p with park := k })


/-- All lanes of a strand (R107). -/
def laneAll (w : Nat) : Mask := BitVec.ofNat 64 (2 ^ w - 1)

/-- Mask register `k` of a path: 0 for `em` (R290). -/
def Issuer.mask (x : Issuer) (k : Nat) : Mask := if k = 0 then x.path.em else Tab.get 0 x.strand.kregs k

/-- Writes k1 to k15: bits at or above W are dropped (R107, R338). -/
def Strand.setK (st : Strand) (w k : Nat) (v : Mask) : Strand :=
  { st with kregs := Tab.set 0 st.kregs k (v &&& laneAll w) }

/-- Writes a mask of a path: 0 for `em`, which also drops lanes that are not live (R338). -/
def Strand.setMask (st : Strand) (w p k : Nat) (v : Mask) : Strand :=
  if k = 0 then st.updPath p (fun q => { q with em := v &&& laneAll w &&& st.live }) else st.setK w k v

def State.setMask (s : State) (x : Issuer) (k : Nat) (v : Mask) : State :=
  s.updStrand x.id.coil x.id.strand (fun st => st.setMask x.w x.id.path k v)

/-- The issuing path has courses that have not executed their trailer (R119, R329). -/
def Strand.hasCourses (st : Strand) (p : Nat) : Bool :=
  st.queue.any (fun c => c.path == p) || (match st.running with | some r => r.course.path == p | none => false)

/-- One more instruction issues; the instruction budget may expire (R137). -/
def State.count (s : State) (k : Nat) : State :=
  let s1 := s.updCoil k (fun c => { c with insnUsed := c.insnUsed + 1 })
  match s.coilBolt? k with
  | some (c, b) =>
    if b.desc.insnBudget ≠ 0 ∧ c.insnUsed + 1 = b.desc.insnBudget * 2 ^ 16 then s1.push [.watchdogInsnExpiry k] else s1
  | none => s1

/-- In-flight counter `sel` of a strand: 0 G, 1 S, 2 T, 3 to 6 A0 to A3. It falls in issue order (R153). -/
def Strand.inFlight (st : Strand) (sel : Nat) : Nat :=
  ((st.flight.filter (fun f => f.sel == sel)).dropWhile Flight.done).length

/-- Marks the units of an operation on one path as finished, and forgets those that no older unfinished one holds back. -/
def Strand.landed (st : Strand) (op : Nat) : Strand :=
  let l := st.flight.map (fun f => if f.op == op then { f with done := true } else f)
  { st with flight := (upFrom 0 7).foldl (fun l sel =>
      let keep := (l.filter (fun f => f.sel == sel)).dropWhile Flight.done
      l.filter (fun f => f.sel != sel) ++ keep) l }

/-- A timeline of the coil: 0 matrix, 1 traversal, 2 coverage (R178). -/
def Coil.timeline (c : Coil) (ctx : Nat) : Nat := Tab.get 0 c.tlCount ctx

/-- Raises a counter past every completed number (R179). -/
def tlAdvance (ctx : Nat) (done : List (Nat × Nat)) : Nat → Nat → Nat
  | 0, n => n
  | fuel + 1, n => if done.contains (ctx, n + 1) then tlAdvance ctx done fuel (n + 1) else n

/-- An operation of a context has completed (R179). -/
def Coil.tlFinish (c : Coil) (ctx n : Nat) : Coil :=
  let done := (ctx, n) :: c.tlDone
  let m := tlAdvance ctx done done.length (c.timeline ctx)
  { c with tlCount := Tab.set 0 c.tlCount ctx m, tlDone := done.filter (fun d => d.1 != ctx || decide (m < d.2)) }

/-- The next number of a context (R178). -/
def Coil.tlNext (c : Coil) (ctx : Nat) : Nat := Tab.get 0 c.tlIssued ctx + 1

/-- The context gives out its next number. -/
def Coil.tlIssue (c : Coil) (ctx : Nat) : Coil := { c with tlIssued := Tab.set 0 c.tlIssued ctx (c.tlNext ctx) }

/-- PHASE of a barrier word (R385). -/
def Coil.phase (c : Coil) (b : Nat) : Nat := bits (Tab.get 0 c.bars b).toNat 63 32

/-- The phase count of a coil (R268). -/
def Coil.phases (c : Coil) : Nat := ((upFrom 0 16).foldl (fun a b => a + c.phase b) 0) % 2 ^ 32

/-- Strands that have not ended. -/
def Coil.liveStrands (c : Coil) : List Nat :=
  (upFrom 0 c.strands.length).filter (fun i => match c.strands[i]? with | some st => !st.ended | none => false)

/-- A coil occupies its Hamper or Creel. -/
def Coil.placed (c : Coil) : Bool := match c.residency with | .saved _ _ => false | _ => true

/-- The live paths on a Hamper, in the order of R113. -/
def State.pathsOn (s : State) (h : Nat) : List Issuer :=
  let mine := (s.coils.filter (fun c => c.2.placed)).flatMap (fun c => (upFrom 0 c.2.strands.length).flatMap (fun i =>
    match c.2.strands[i]? with
    | some st => (st.livePaths.filterMap (fun p => s.issuerAt { coil := c.1, strand := i, path := p })).filter (fun x => x.hamper == h)
    | none => []))
  (upFrom 0 48).flatMap (fun slot => mine.filter (fun x => x.strand.slot == slot))

/-- The coil issues: it is resident, and no debugger holds it. -/
def Coil.issues (c : Coil) : Bool := c.residency == .resident && !c.debugStop

/-- The flags of an instruction merge into `fpflags` (R319). -/
def State.mergeFlags (s : State) (k i : Nat) (f : FpFlags) : State := s.updStrand k i (fun st => { st with fpf := st.fpf ||| f })

/-- The event in which an engine operation goes on (R396-R403, R418-R425). -/
def EngineOp.event (op : Nat) (o : EngineOp) : Instr :=
  match o.kind with
  | .mma _ _ _ _ _ _ _ _ _ _ _ _ _ => .mxKStep op
  | .cbld _ _ => .mxCbldComplete op
  | .clr _ => .mxClrComplete op
  | .drain _ _ _ _ _ _ _ => .mxDrainComplete op
  | .ray _ _ _ _ _ _ _ _ => .rayLaneComplete op
  | .beam _ _ _ _ => .beamComplete op
  | .build _ _ _ _ _ => .buildComplete op
  | .refit _ _ _ _ _ => .refitComplete op
  | .covTile _ _ => .covOpComplete op
  | .covResolve _ _ _ => .covOpComplete op
  | .covSeg _ _ => .covOpComplete op
  | .covBin _ _ _ _ _ _ _ => .covOpComplete op

/-- What goes on once something has come for a reader. -/
def State.wakeReader (s : State) : Reader → State
  | .path p n => if n = 3 then s.push [.cpWaitRecheck p] else s
  | .engine op => (match Dict.find? s.ops op with | some o => s.push [o.event op] | none => s)
  | .chunk q n k => s.push [.bteChunk q n k]
  | .packet q _ => if s.agenda.contains (.btePoll q) then s else s.push [.btePoll q]
  | .bteQueue q => if s.agenda.contains (.btePoll q) then s else s.push [.btePoll q]
  | .queue _ => s.push [.workerAssign]
  | .yoke h => (match s.arrived.find? (fun a => a.reader == .yoke h) with
    | none => s
    | some a => ({ s with arrived := s.arrived.filter (fun a => a.reader != .yoke h) } : State).send
        (if a.cause.isSome then .yokeFault h (kindWrites a.kind) else .yokeResult h (BitVec.ofNat 64 (ofBytes a.bytes)) a.poisoned))

/-- Bits of an operand element (R209). -/
def mxWidth (fmt : Nat) : Nat :=
  match fmt with
  | 0 => 64 | 1 => 32 | 2 => 16 | 3 => 16 | 10 => 4 | 11 => 4 | _ => 8

/-- Elements of a row in one K-step (R209). -/
def mxPerStep (fmt : Nat) : Nat := 384 / mxWidth fmt

/-- Scale registers of one row group: NB of R324. -/
def scaleNb (bs kElements : Nat) : Nat := ceilDiv (bs + ceilDiv kElements 32) 8

/-- Registers that hold the scales of `rows` rows, for a strand of W lanes (R324). -/
def scaleCount (bs kElements rows w : Nat) : Nat := ceilDiv rows w * scaleNb bs kElements

/-- Lane registers of a strand that accepted multiplies name as scale registers: no lane instruction writes them until those complete
(R211). -/
def State.heldRegs (s : State) (k i w : Nat) : List Nat :=
  s.ops.flatMap (fun e => match e.2.kind with
    | .mma fmt true _ shares _ _ n ksteps vsb bsb _ bStrand _ =>
      let kE := ksteps * mxPerStep fmt
      if e.2.coil = k then
        (if bStrand = i then upFrom vsb (scaleCount bsb kE n w) else [])
          ++ shares.flatMap (fun m => if m.strand = i then upFrom m.vsa (scaleCount m.bsa kE m.m w) else [])
      else []
    | _ => [])

/-- Pending lane writes wait for multiplies that hold one of their registers (R211). -/
def State.holdsBack (s : State) (k i w : Nat) (l : List (Nat × W64 × Bool)) : Bool :=
  l.any (fun e => (s.heldRegs k i w).contains (e.1 / 64))

/-- A fresh number for an operation or request. -/
def State.fresh (s : State) : Nat × State := (s.nextOp, { s with nextOp := s.nextOp + 1 })

end Sys2Proof.Machine
end

