-- ==== Sys2Proof/Machine/Trace.lean ====
section
/-! DEFINITION. Trace packets and blocks (R277-R281), and the replay log (R55, R282). -/

namespace Sys2Proof.Machine

open Sys2Proof

/-- The paths of an address space are traced (R277). -/
def State.traces (s : State) (asid : Nat) : Bool := bit (s.regN aTrcCfg) 32 && s.regF aTrcCfg 63 48 == asid

/-- The trace of a Hamper that has written nothing. -/
def TraceState.start : TraceState := { block := [], lastClock := 0, lost := 0, since := [], lastPlace := 0 }

def State.traceOf (s : State) (h : Nat) : TraceState := (Dict.find? s.debugUnit.trace h).getD TraceState.start

def State.setTrace (s : State) (h : Nat) (t : TraceState) : State :=
  { s with debugUnit := { s.debugUnit with trace := Dict.put s.debugUnit.trace h t } }

/-- The trace ring of a Hamper has no room for a block (R277, R438). -/
def State.traceFull (s : State) (h : Nat) : Bool :=
  decide (2 ^ s.regF aTrcCfg 4 0 < (s.regN (aTrcWr h) + 2 ^ 32 - s.regN (aTrcRd h)) % 2 ^ 32 + 64)

/-- Pads and writes the open block of a Hamper, and advances its write index (R277). -/
def State.flushBlock (s : State) (h : Nat) : State :=
  let t := s.traceOf h
  if t.block = [] then s
  else
    let size := 2 ^ s.regF aTrcCfg 4 0
    let wr := s.regN (aTrcWr h)
    let s1 := s.write (s.regF aTrcBase 63 12 * 4096 + h * size + wr % size) (t.block ++ List.replicate (64 - t.block.length) 0) false
    (s1.setRegN (aTrcWr h) ((wr + 64) % 2 ^ 32)).setTrace h { t with block := [] }

/-- Appends a packet: it crosses no block boundary, and a full ring discards and counts it, with those after it until space returns (R277, R281,
R438). -/
def State.putPacket (s : State) (h : Nat) (p : List Byte) : State :=
  let s1 := if 64 < (s.traceOf h).block.length + p.length then s.flushBlock h else s
  let t := s1.traceOf h
  if (t.block = [] && s1.traceFull h) || t.lost != 0 then s1.setTrace h { t with lost := t.lost + 1 }
  else
    let s2 := s1.setTrace h { t with block := t.block ++ p }
    if (t.block ++ p).length = 64 then s2.flushBlock h else s2

/-- TIME packets that carry a delta above 15 (R278). -/
def timePackets : Nat → Nat → List (List Byte)
  | 0, _ => []
  | n + 1, g => if 2 ^ 32 ≤ g then ((0x80 : Byte) :: toBytes 4 0xFFFFFFFF) :: timePackets n (g - 0xFFFFFFFF)
                else [(0x80 : Byte) :: toBytes 4 g]

/-- The TIME packets before a packet that comes `g` clocks after the last one (R278). -/
def timesBefore (g : Nat) : List (List Byte) := if g ≤ 15 then [] else timePackets (g / 2 ^ 32 + 1) g

/-- Byte 0 of a packet: TYPE, and DT where no TIME packet carries it (R278). -/
def headByte (ty g : Nat) : Byte := BitVec.ofNat 8 (ty * 16 + (if g ≤ 15 then g else 0))

/-- A packet with its byte 0, and the TIME packets that its delta takes; a packet that finds the ring full leaves neither (R278, R281). -/
def State.stamped (s : State) (h ty : Nat) (rest : List Byte) : State :=
  let t := s.traceOf h
  let g := s.clock - t.lastClock
  let s1 := if 64 < t.block.length + 5 * (timesBefore g).length + rest.length + 1 && (s.flushBlock h).traceFull h then s.flushBlock h else s
  let s2 := (timesBefore g).foldl (fun s p => s.putPacket h p) s1
  let s3 := s2.putPacket h (headByte ty g :: rest)
  if (s3.traceOf h).lost = 0 then s3.setTrace h { s3.traceOf h with lastClock := s.clock }
  else s1.setTrace h { s1.traceOf h with lost := t.lost + 1 }

/-- The SYNC block of a path (R279). -/
def syncBytes (s : State) (x : Issuer) (reason : Nat) : List Byte :=
  [0xA5, 0x5A, 0xC3, 0x3C] ++ toBytes 1 x.strand.slot ++ toBytes 1 x.id.path ++ toBytes 1 reason ++ [0] ++ toBytes 8 s.clock
    ++ toBytes 8 x.coil.bolt ++ toBytes 4 x.coil.x ++ toBytes 2 x.coil.y ++ toBytes 2 x.coil.z ++ toBytes 4 x.coil.phases
    ++ toBytes 1 x.id.strand ++ [0, 0, 0] ++ toBytes 8 x.path.pc.toNat ++ toBytes 8 x.path.em.toNat ++ List.replicate 8 0

/-- Place of a path in the order of R113. -/
def Issuer.place (x : Issuer) : Nat := 9 * x.strand.slot + splintOf x.id.path

/-- A path writes after the last packet of its Hamper: within one clock packets follow the order of R113, so that one of an earlier place comes in a
later clock (R280). -/
def State.inOrder (s : State) (x : Issuer) : State :=
  let t := s.traceOf x.hamper
  if t.lastClock = s.clock ∧ x.place < t.lastPlace then { s with clock := s.clock + 1 } else s

/-- A path writes a SYNC, which fills one block (R279, R280). -/
def State.traceSync (s0 : State) (x : Issuer) (reason : Nat) : State :=
  if s0.traces x.asid then
    let s := s0.inOrder x
    let h := x.hamper
    let s1 := (s.flushBlock h).putPacket h (syncBytes s x reason)
    let t := s1.traceOf h
    if t.lost = 0 then
      s1.setTrace h { t with lastClock := s.clock, since := (x.id, 0) :: t.since.filter (fun e => e.1 != x.id), lastPlace := x.place }
    else s1
  else s0

/-- Every live path of a Hamper in the traced address space writes a SYNC (R280, R281). -/
def State.syncAll (s : State) (h reason : Nat) : State := (s.pathsOn h).foldl (fun s x => s.traceSync x reason) s

/-- Some live paths write a SYNC in one clock: in each Hamper's trace in ascending order of their slots (R280). -/
def State.syncSome (s : State) (reason : Nat) (mine : Issuer → Bool) : State :=
  if bit (s.regN aTrcCfg) 32 then
    (upFrom 0 s.hampers).foldl (fun s h => ((s.pathsOn h).filter mine).foldl (fun s x => s.traceSync x reason) s) s
  else s

/-- Once a block is free, what was lost is reported at the start of a new block, behind the TIME packet that its delta may take, and each live path
writes a SYNC; not while the trace is off (R278, R281; log 58). -/
def State.recoverLoss (s : State) (h : Nat) : State :=
  let t := s.traceOf h
  if t.lost = 0 || s.traceFull h || !bit (s.regN aTrcCfg) 32 then s
  else
    let g := s.clock - t.lastClock
    let s1 := (s.flushBlock h).setTrace h { t with block := [], lost := 0, lastClock := s.clock }
    ((timesBefore g ++ [headByte 7 g :: toBytes 8 t.lost]).foldl (fun s p => s.putPacket h p) s1).syncAll h 2

/-- Bytes that a path has written since its SYNC. -/
def TraceState.written (t : TraceState) (id : PathId) : Nat :=
  match t.since.find? (fun e => e.1 == id) with
  | some e => e.2
  | none => 0

/-- A path's packet of a type, flags and content (R278), a periodic SYNC before it after 4,096 bytes (R280). -/
def State.tracePacket (s0 : State) (x : Issuer) (ty flags : Nat) (body : List Byte) : State :=
  if s0.traces x.asid then
    let s := s0.inOrder x
    let h := x.hamper
    let s1 := if 4096 ≤ (s.traceOf h).written x.id then s.traceSync x 1 else s
    let p := toBytes 1 x.strand.slot ++ toBytes 1 (flags * 16 + x.id.path) ++ body
    let s2 := s1.stamped h ty p
    let t := s2.traceOf h
    if t.lost ≠ 0 then s2
    else s2.setTrace h { t with since := (x.id, t.written x.id + p.length + 1) :: t.since.filter (fun e => e.1 != x.id), lastPlace := x.place }
  else s0

/-- COURSE: the offset of a course from LCODE (R278). -/
def State.traceCourse (s : State) (x : Issuer) (off : Nat) : State := s.tracePacket x 1 0 (toBytes 4 off)
/-- BRANCH of a direct branch, and of an indirect one with its target. -/
def State.traceBranch (s : State) (x : Issuer) (taken : Bool) : State := s.tracePacket x 2 (b2n taken) []
def State.traceIndirect (s : State) (x : Issuer) (target : W64) : State := s.tracePacket x 2 3 (toBytes 8 target.toNat)
/-- EM: a new `em`. -/
def State.traceEm (s : State) (x : Issuer) (em : Mask) : State := s.tracePacket x 3 0 (toBytes 8 em.toNat)
/-- SPLIT into an entry. -/
def State.traceSplit (s : State) (x : Issuer) (entry : Nat) (em : Mask) : State :=
  s.tracePacket x 4 0 (toBytes 1 entry ++ toBytes 8 em.toNat)
/-- JOIN: an entry fused into the path, or the path resumed. -/
def State.traceJoin (s : State) (x : Issuer) (fused : Bool) (entry : Nat) : State := s.tracePacket x 5 (b2n fused) (toBytes 1 entry)
/-- TRAP with its cause and position. -/
def State.traceTrap (s : State) (x : Issuer) (cause pos : Nat) : State := s.tracePacket x 6 0 (toBytes 1 cause ++ toBytes 1 pos)
/-- END of a path. -/
def State.traceEnd (s : State) (x : Issuer) : State := s.tracePacket x 9 0 []

/-- Fills a 64-byte slot of a ring whose last byte written is its LAP at `lapAt` (R65). -/
def withLap (rec : List Byte) (lapAt i log2 : Nat) : List Byte :=
  rec.take lapAt ++ toBytes 1 ((i >>> log2) % 255 + 1) ++ rec.drop (lapAt + 1)

/-- Posts a 64-byte record on a ring whose registers stand at the given addresses; false when the ring is full (R65). -/
def State.ringPut (s : State) (base wrA rdA log2 lapAt : Nat) (rec : List Byte) : Option State :=
  let wr := s.regF wrA 31 0
  if (wr + 2 ^ 32 - s.regF rdA 31 0) % 2 ^ 32 < 2 ^ log2 then
    some ((s.write (base + 64 * (wr % 2 ^ log2)) (withLap rec lapAt wr log2) false).setRegN wrA ((wr + 1) % 2 ^ 32))
  else none

/-- One record of the replay log (R282). -/
def logRecord (kind len stamp addr num : Nat) (data : List Byte) : List Byte :=
  toBytes 1 kind ++ toBytes 1 len ++ List.replicate 6 0 ++ toBytes 8 stamp ++ toBytes 8 addr ++ toBytes 8 num
    ++ data.take 32 ++ List.replicate (32 - (data.take 32).length) 0

/-- A replay record, a LOSS record before it when space has returned; counted as lost when the ring is full (R282). -/
def State.logPut (s : State) (rec : List Byte) : State :=
  let put (s : State) (r : List Byte) : Option State :=
    s.ringPut (s.regF aLogBase 63 12 * 4096) aLogWr aLogRd (s.regF aLogCfg 4 0) 2 r
  let lose (s : State) : State :=
    { s.setRegN aLogLost ((s.regN aLogLost + 1) % 2 ^ 32) with debugUnit := { s.debugUnit with lost := s.debugUnit.lost + 1 } }
  let s1 := if s.debugUnit.lost = 0 then some s
            else (put s (logRecord 7 0 (Config.measured s.tick) 0 s.debugUnit.lost [])).map
              (fun s => { s with debugUnit := { s.debugUnit with lost := 0 } })
  match s1 with
  | none => lose s
  | some s1 => match put s1 rec with
    | some s2 => s2
    | none => lose s1

/-- The records of one outside input: 32 bytes of data each, CONT in those after the first (R282). -/
def State.logFrom (s : State) (kind stamp addr num : Nat) : Nat → List Byte → State
  | 0, _ => s
  | n + 1, data =>
    let s1 := s.logPut (logRecord kind (min 32 data.length) stamp addr num data)
    if data.length ≤ 32 then s1 else State.logFrom s1 (kind % 128 + 128) stamp addr num n (data.drop 32)

/-- The instructions that the Yoke core named by `FAB_REPLAY`.CORE has retired by now: by how many more than at its last reading is measured (R55;
log 2). -/
def State.retiredNow (s : State) : Nat × State :=
  let c := s.regF aFabReplay 4 1
  let n := (Tab.get 0 s.debugUnit.retired c + Config.measured s.tick) % 2 ^ 64
  (n, { s.draw with debugUnit := { s.debugUnit with retired := Tab.set 0 s.debugUnit.retired c n } })

/-- Logs an outside input while `FAB_REPLAY`.EN is 1, with its STAMP (R55, R282). -/
def State.logInput (s : State) (kind addr num : Nat) (data : List Byte) : State :=
  if bit (s.regN aFabReplay) 0 then
    (let (n, s1) := s.retiredNow
     s1.logFrom kind n addr num (data.length / 32 + 1) data)
  else s

/-- An outside input of the host is logged with its count (R282). -/
def State.logHost (s : State) (kind addr : Nat) (data : List Byte) : State :=
  if bit (s.regN aFabReplay) 0 then
    let s1 := s.logInput kind addr s.debugUnit.hostWrites data
    { s1 with debugUnit := { s1.debugUnit with hostWrites := s1.debugUnit.hostWrites + 1 } }
  else s

end Sys2Proof.Machine
end

