-- ==== Sys2Proof/Machine/Access.lean ====
section
/-! DEFINITION. Where an access goes, the causes it meets, its faults, and its reads and writes (R40-R45, R56, R102, R141, R143,
R157, R158, R185, R192, R198, R257, R258, R335, R450, R452). -/

namespace Sys2Proof.Machine

open Sys2Proof

/-- On whose behalf an access is made: its address space, the coil half whose scratchpad window it sees, and the Hamper through whose L1
it goes (R148, R211). -/
structure Who where
  asid : Nat
  coil : Option (Coil × Desc × Nat)
  l1 : Option Nat := none
  /-- The unit whose TLBs serve it; the shared TLB of die 0 serves a command queue (R155; log 87). -/
  unit : TlbUser := .die 0
  deriving DecidableEq, Repr

def Issuer.who (x : Issuer) : Who := { asid := x.asid, coil := some (x.coil, x.desc, x.half), l1 := some x.hamper, unit := .hamper x.hamper }

/-- Where an access is performed. -/
inductive Place where
  /-- Device memory, at the L2. -/
  | mem (pa : Nat)
  /-- Device memory, through the L1 of a Hamper. -/
  | l1 (h pa : Nat)
  /-- Hamper SRAM. -/
  | scr (key : Nat)
  /-- Bytes of a barrier word of the coil. -/
  | bar (b off : Nat)
  /-- The host window. -/
  | host (pa : Nat)
  /-- This device through the peer window: an offset under the export check. -/
  | self (off key : Nat)
  /-- Another device. -/
  | peer (board device off key : Nat)
  deriving DecidableEq, Repr

/-- Where `n` bytes at an offset of a coil's scratchpad window lie (R102, R146). -/
def winPlace (c : Coil) (d : Desc) (half off n : Nat) : Option Place :=
  let far := 2 ^ 20 ≤ off
  let tgt := if far then 1 - half else half
  let o := off % 2 ^ 20
  if far ∧ !d.pair then none
  else if o + n ≤ d.scratch * 1024 then
    ((if tgt = 0 then c.granules else c.granulesOdd)[o / 1024]?).map
      (fun g => .scr ((c.hamper + tgt) * 2 ^ 19 + g * 1024 + o % 1024))
  else if tgt = 0 ∧ 0x78000 ≤ o ∧ o + n ≤ 0x78000 + 8 * d.bars then some (.bar ((o - 0x78000) / 8) (o % 8))
  else none

/-- One access: its kind, its lowest byte address, its size; whether PCI Express has its atomic (R56, R143); engine accesses are not
watched (R266). -/
structure Acc where
  kind : AccessKind
  va : Nat
  size : Nat
  pcieAtomic : Bool := true
  watch : Bool := true
  /-- Alignment that the access needs, in bytes. -/
  align : Nat := size
  /-- The access is performed at the L2 (R150). -/
  l2 : Bool := false
  deriving DecidableEq, Repr

/-- Where an address of the peer window goes, or the cause it meets (R40, R41, R43, R56). The board of a PCI Express group is judged before its
atomics (log 99). -/
def State.peerPlace (s : State) (asid : Nat) (a : Acc) : Cause ⊕ Place :=
  let board := bits a.va 49 43
  let dev := bits a.va 42 40
  let off := bits a.va 39 0
  match s.peerKey asid with
  | none => .inl .fabricAccess
  | some key =>
    if s.regF aFabCfg 8 8 = 1 ∧ board ≠ 0 then .inl .fabricUnreachable
    else if board = s.board ∧ dev = s.device then .inr (.self off key)
    else if s.regF aFabCfg 8 8 = 1 then
      if s.regN (aPciePeer dev) = 0 then .inl .fabricUnreachable
      else if a.kind = .atomic ∧ !a.pcieAtomic then .inl .fabricAccess
      else .inr (.peer board dev off key)
    else if (s.route (off / 128)).isNone then .inl .fabricUnreachable
    else .inr (.peer board dev off key)

/-- The access writes some byte of an armed barrier word (R265). -/
def armedWrite (w : Who) (k : AccessKind) (p : Place) : Bool :=
  kindWrites k && (match w.coil, p with
    | some (c, _, _), .bar b _ => Tab.get false c.barArmed b
    | _, _ => false)

/-- Stage 1 of R452: the cause that the virtual address alone decides, or the place when no translation is needed; none otherwise. -/
def State.stage1 (s : State) (w : Who) (a : Acc) : Option (Cause ⊕ Place) :=
  let watch := a.watch && s.watched w.asid a.va a.size a.kind
  if inPeerWin a.va then
    if a.va % a.align ≠ 0 then some (.inl .misaligned)
    else match s.peerPlace w.asid a with
      | .inl c => some (.inl c)
      | .inr p => if watch then some (.inl .watchpoint) else some (.inr p)
  else if !canonical (BitVec.ofNat 64 a.va) then some (.inl .addrNoncanonical)
  else if a.va % a.align ≠ 0 then some (.inl .misaligned)
  else match s.winOff w.asid a.va with
    | some off =>
      match w.coil.bind (fun (c, d, h) => winPlace c d h off a.size) with
      | none => some (.inl .scratchRange)
      | some p =>
        if watch then some (.inl .watchpoint)
        else if armedWrite w a.kind p then some (.inl .barArmedWrite)
        else some (.inr p)
    | none => none

/-- What an access comes to before it is performed. -/
inductive Judged where
  | ok (p : Place)
  | cause (c : Cause)
  | fault (cause level pte : Nat)
  deriving DecidableEq, Repr

/-- Stage 2 of R452: translation, and the causes that the physical address decides. -/
def State.stage2 (s : State) (w : Who) (a : Acc) : Judged × State :=
  match s.translate w.unit w.asid a.va a.kind with
  | (.fail c l p, s1) => (.fault c l p, s1)
  | (.ok pa, s1) =>
    if inRegSpace pa then (.cause .sysSpaceAccess, s1)
    else if inHostWin pa then
      if a.kind = .atomic ∧ !a.pcieAtomic then (.cause .fabricAccess, s1) else (.ok (.host pa), s1)
    else match w.l1 with
      | some h => (.ok (if a.l2 || s1.inRegion pa || s1.inCarve pa then .mem pa else .l1 h pa), s1)
      | none => (.ok (.mem pa), s1)

/-- The rank of a lane cause (R257). -/
def Cause.rank : Cause → Nat
  | .poison => 1 | .addrNoncanonical => 2 | .misaligned => 3 | .scratchRange => 4 | .sysSpaceAccess => 5 | .fifoAccess => 6
  | .fabricAccess => 7 | .fabricUnreachable => 8 | .watchpoint => 9 | .barArmedWrite => 10 | .translation => 11
  | .fabricTimeout => 12 | _ => 0

/-- What a watched access comes to once its physical address has been judged too: a cause that ranks above the watchpoint, or the watchpoint,
whatever the translation comes to (R257, R452). -/
def Judged.watched : Judged → Judged
  | .cause c => if Cause.rank c < Cause.rank .watchpoint then .cause c else .cause .watchpoint
  | .ok _ => .cause .watchpoint
  | .fault _ _ _ => .cause .watchpoint

/-- Judges one access. -/
def State.judge (s : State) (w : Who) (a : Acc) : Judged × State :=
  match s.stage1 w a with
  | some (.inl c) => (.cause c, s)
  | some (.inr p) => (.ok p, s)
  | none =>
    let (j, s1) := s.stage2 w a
    (if a.watch && s.watched w.asid a.va a.size a.kind then j.watched else j, s1)

/-- Judges accesses in order; those with a cause of stage 1 are not translated (R452). -/
def State.judgeAll (s : State) (w : Who) : List (Nat × Acc) → List (Nat × Acc × Judged) × State
  | [] => ([], s)
  | (l, a) :: r =>
    let (j, s1) := s.judge w a
    let (js, s2) := State.judgeAll s1 w r
    ((l, a, j) :: js, s2)

/-- The lanes of a judgement that meet a cause. -/
def causesOf (l : List (Nat × Acc × Judged)) : List (Nat × Cause × Nat) :=
  l.filterMap (fun (i, a, j) => match j with | .cause c => some (i, c, a.va) | _ => none)

/-- The highest-ranked of some lane causes (R257). -/
def topCause (l : List (Nat × Cause × Nat)) : Option Cause :=
  l.foldl (fun b e => match b with
    | none => some e.2.1
    | some c => if Cause.rank e.2.1 < Cause.rank c then some e.2.1 else some c) none

/-- The failures of a judgement: lane, access, CAUSE, LEVEL, PTE_PA. -/
def faultsOf (l : List (Nat × Acc × Judged)) : List (Nat × Acc × Nat × Nat × Nat) :=
  l.filterMap (fun (i, a, j) => match j with | .fault c v p => some (i, a, c, v, p) | _ => none)

/-- The places of a judgement. -/
def placesOf (l : List (Nat × Acc × Judged)) : List (Nat × Acc × Place) :=
  l.filterMap (fun (i, a, j) => match j with | .ok p => some (i, a, p) | _ => none)

/-- What a fault record holds beside its merged fields (R157). -/
structure FaultSource where
  source : Nat
  hamper : Nat := 0xFFFF
  slot : Nat := 0xFF
  unit : Nat := 0
  bolt : Nat := 0
  deriving DecidableEq, Repr

def Issuer.source (x : Issuer) : FaultSource :=
  { source := 0, hamper := x.hamper, slot := x.strand.slot, bolt := x.coil.bolt }

/-- Number of an access kind in a fault record. -/
def kindCode : AccessKind → Nat
  | .read => 1 | .write => 2 | .atomic => 3 | .execute => 4

/-- The bytes of a fault record; its LAP is written by the ring (R157). -/
def faultBytes (f : FaultSource) (asid : Nat) (a : Acc) (cause level pte : Nat) : List Byte :=
  toBytes 1 (kindCode a.kind) ++ toBytes 1 f.source ++ toBytes 1 cause ++ toBytes 1 level ++ toBytes 2 f.hamper ++ toBytes 1 f.slot
    ++ [0] ++ toBytes 8 a.va ++ toBytes 2 asid ++ toBytes 2 1 ++ toBytes 4 f.unit ++ toBytes 8 pte ++ toBytes 8 f.bolt
    ++ List.replicate 24 0

/-- The unanswered record of a key (ASID, 4 KiB page, KIND) (R157). -/
def State.faultKey (s : State) (asid page : Nat) (k : AccessKind) : Option (Nat × FaultRec) :=
  List.find? (fun (_, f) => f.asid == asid && f.page == page && f.kind == k) s.faults

/-- Address of the slot of fault record `i`. -/
def State.fltSlot (s : State) (i : Nat) : Nat :=
  s.regF aFltBase 63 6 * 64 + 64 * (i % 2 ^ s.regF aFltCfg 4 0)

/-- A failed translation with some parties that wait joins the record of its key, else posts a new one; none while the fault queue is full or off
(R65, R69, R157). The answer is the record's index. -/
def State.addFailure (s : State) (f : FaultSource) (asid : Nat) (a : Acc) (cause level pte : Nat) (ws : List FaultWaiter) :
    Option (Nat × State) :=
  let page := a.va / 4096
  match s.faultKey asid page a.kind with
  | some (i, r) =>
    let n := min (r.count + 1) 0xFFFF
    some (i, { (s.write (s.fltSlot i + 18) (toBytes 2 n) false) with
      faults := Dict.put s.faults i { r with waiters := r.waiters ++ ws, count := n } })
  | none =>
    if !bit (s.regN aFltCfg) 5 then none
    else
      let i := s.regF aFltWr 31 0
      (s.ringPut (s.regF aFltBase 63 6 * 64) aFltWr aFltRd (s.regF aFltCfg 4 0) 7 (faultBytes f asid a cause level pte)).map
        (fun s1 =>
          let s2 := s1.interrupt (s1.regF aFltCfg 31 16)
          let nr : FaultRec :=
            { asid := asid, page := page, kind := a.kind, cause := cause, waiters := ws, count := 1 }
          (i, { s2 with faults := Dict.put s2.faults i nr }))

/-- Reports a failed translation for one waiting party. -/
def State.postFault (s : State) (f : FaultSource) (asid : Nat) (a : Acc) (cause level pte : Nat) (w : FaultWaiter) :
    Option (Nat × State) := s.addFailure f asid a cause level pte [w]

/-- A failure as its record names it: at the lowest failing address among those of its key (R157). -/
def lowestOf (a : Acc) (r : List (Nat × Acc × Nat × Nat × Nat)) : Acc :=
  { a with va := ((r.filter (fun e => e.2.1.va / 4096 == a.va / 4096 && e.2.1.kind == a.kind)).map (fun e => e.2.1.va)).foldl min a.va }

/-- Reports the failures of one instruction's lanes, one waiter for each key; the records it then waits on with their lanes. -/
def State.postFaults (s : State) (f : FaultSource) (asid : Nat) (waiter : Mask → FaultWaiter) :
    List (Nat × Acc × Nat × Nat × Nat) → List (Nat × Mask) → Option (List (Nat × Mask) × State)
  | [], waits => some (waits, s)
  | (l, a, c, v, p) :: r, waits =>
    match s.faultKey asid (a.va / 4096) a.kind with
    | some (i, _) =>
      if waits.any (fun w => w.1 == i) then
        State.postFaults s f asid waiter r (waits.map (fun w => if w.1 = i then (i, w.2 ||| maskOf [l]) else w))
      else match s.postFault f asid (lowestOf a r) c v p (waiter (maskOf [l])) with
        | none => none
        | some (j, s1) => State.postFaults s1 f asid waiter r (waits ++ [(j, maskOf [l])])
    | none => match s.postFault f asid (lowestOf a r) c v p (waiter (maskOf [l])) with
      | none => none
      | some (j, s1) => State.postFaults s1 f asid waiter r (waits ++ [(j, maskOf [l])])

/-- The coil transaction that some live strand has not yet had the report of (R200, R201). -/
def Coil.openTxn (c : Coil) : Option Txn :=
  match c.txn with
  | some t => if t.aborted.isSome && c.liveStrands.all (fun i => c.plyReported.getLsbD i) then none else some t
  | none => none

/-- The transaction in which a path's accesses are made, open or aborted and not yet reported (R196, R200). -/
def Issuer.txn (x : Issuer) : Option Txn := match x.strand.txn with | some t => some t | none => x.coil.openTxn

/-- How a path sees ply regions (R192, R200). -/
def Issuer.view (x : Issuer) : View :=
  match x.txn with
  | some t => if t.aborted.isSome then .current else .txn t
  | none => match x.bolt.snap with
    | some n => .snap n
    | none => .current

/-- Aborts the transaction of a strand or of its coil (R200). -/
def State.abortTxn (s : State) (k i cause : Nat) : State :=
  match s.strand? k i with
  | none => s
  | some st =>
    match st.txn with
    | some t => if t.aborted.isSome then s
        else (s.dropTents t).updStrand k i (fun st => { st with txn := some { t with aborted := some cause } })
    | none => match (s.coil? k).bind Coil.txn with
      | some t => if t.aborted.isSome then s
          else (s.dropTents t).updCoil k (fun c => { c with txn := some { t with aborted := some cause } })
      | none => s

/-- Reads a place: bytes and poison. Remote places are read by their requests. -/
def State.load (s : State) (v : View) (c : Option Coil) (p : Place) (n : Nat) : List Byte × Bool :=
  match p with
  | .mem pa => s.readView v pa n
  | .l1 h pa => s.seenRun h pa n
  | .scr key => (s.sramBytes key n, s.sramBad key n)
  | .bar b off => match c with
    | some c => ((toBytes 8 (Tab.get 0 c.bars b).toNat).drop off |>.take n, Tab.get false c.barPoison b)
    | none => ([], false)
  | .self off key => match s.exportPa key off .read with
    | some pa => s.readView .current pa n
    | none => ([], false)
  | .host _ => ([], false)
  | .peer _ _ _ _ => ([], false)

/-- What a read of a place leaves: the carve-out is noted, and an L1 holds the lines read (R148, R185). -/
def State.afterLoad (s : State) (p : Place) (n : Nat) : State :=
  match p with
  | .mem pa => s.noteCarve pa
  | .l1 h pa => s.l1Touch h pa n
  | .self off key => (match s.exportPa key off .read with
    | some pa => s.noteCarve pa
    | none => s)
  | _ => s

/-- The word `w` with bytes from `off` replaced. -/
def spliceWord (w : W64) (off : Nat) (l : List Byte) : W64 :=
  let b := toBytes 8 w.toNat
  BitVec.ofNat 64 (ofBytes (b.take off ++ l ++ b.drop (off + l.length)))

/-- Writes a place of the local device: device memory through the view's transaction, a capacity overflow aborting it (R198, R199). -/
def State.store (s : State) (v : View) (k i : Nat) (va : Nat) (p : Place) (l : List Byte) (bad : Bool) : State :=
  match p with
  | .mem pa =>
    match v with
    | .txn t =>
      if s.inRegion pa && !s.inCarve pa then
        match s.writeTent t va pa l bad with
        | some s1 => s1
        | none => s.abortTxn k i 2
      else s.write pa l bad
    | _ => s.write pa l bad
  | .l1 h pa => s.l1Store h pa l bad
  | .scr key => s.sramWrite key l bad
  | .bar b off => s.updCoil k (fun c =>
      { c with bars := Tab.set 0 c.bars b (spliceWord (Tab.get 0 c.bars b) off l)
               barPoison := Tab.set false c.barPoison b
                 (if bad then true else if l.length = 8 then false else Tab.get false c.barPoison b) })
  | .self off key => match s.exportPa key off .write with
    | some pa => s.write pa l bad
    | none => s
  | .host _ => s
  | .peer _ _ _ _ => s

/-- A place is reached by a request that leaves the device. -/
def Place.isRemote : Place → Bool
  | .host _ => true
  | .peer _ _ _ _ => true
  | _ => false

/-- A place of the peer window. -/
def Place.isPeer : Place → Bool
  | .self _ _ => true
  | .peer _ _ _ _ => true
  | _ => false

/-- The scope at which an access acts: in the peer window a scope narrower than .pod behaves as .pod, and every access to the host window acts at
.sys (R52, R143). -/
def Place.scope (p : Place) (sc : Nat) : Nat :=
  match p with
  | .host _ => 4
  | .self _ _ => max 3 sc
  | .peer _ _ _ _ => max 3 sc
  | _ => sc

/-- A place of the scratchpad window (R153). -/
def Place.inWindow : Place → Bool
  | .scr _ => true
  | .bar _ _ => true
  | _ => false

/-- The export check refuses an access of this device to itself through the peer window (R42). -/
def State.refuses (s : State) (p : Place) (k : AccessKind) : Bool :=
  match p with
  | .self off key => (s.exportPa key off k).isNone
  | _ => false

/-- Before a write to lines that the snoop filter tracks, their holders are sent back-invalidations and the write waits (R50):
whether the lines are free of holders, and the state with the messages sent. -/
def State.unsnoop (s : State) (pa n : Nat) : Bool × State :=
  ((granules 128 pa n).all (fun line => (Dict.find? s.fabric.snoop line).isNone), s.recall pa n)

/-- A request over PCI Express leaves. A write is posted, so that a read of its first byte follows it, and the completion of that read stands for the
write's (R48, R56, R143; log 99). -/
def State.sendPcie (s : State) (id : Nat) (r : RemoteReq) (addr : Nat) (translated : Bool) : State :=
  let s1 := s.send (.hostReq id r.kind addr r.size r.data r.atom translated (r.bad != 0))
  if r.kind = .write then s1.send (.hostReq id .read addr 1 [] none translated false) else s1

/-- The function has an error to report in its AER capability (R24; log 7). -/
def State.aerError (s : State) (b : Nat) : State := { s with link := { s.link with aer := setBits s.link.aer b b 1 } }

/-- The device asks for its own copy of a line that it reads from another device (R49). -/
def State.wantsCopy (s : State) (r : RemoteReq) : Bool :=
  r.kind == .read && r.ext && s.regF aFabCfg 9 9 == 1 && s.regF aFabCfg 13 10 != 0

/-- A page of host memory is translated: the address translation cache holds its frame, 4,096 pages at most, the one used last first (R143). -/
def State.useAtc (s : State) (page frame : Nat) : State :=
  { s with link := { s.link with atc := ((page, frame) :: s.link.atc.filter (fun p => p.1 != page)).take 4096 } }

/-- Sends a request that a table entry describes: to the host at its address, or translated, once the host has given the translation. -/
def State.sendReq (s : State) (id : Nat) (r : RemoteReq) : State :=
  if r.port = 255 then
    if s.link.atsEnable then
      match s.link.atc.find? (fun e => e.1 == r.off / 4096) with
      | some e => (s.useAtc e.1 e.2).sendPcie id r (4096 * e.2 + r.off % 4096) true
      | none => ({ s with remotes := Dict.put s.remotes id { r with ats := true } } : State).send (.atsReq id (r.off / 4096))
    else s.sendPcie id r r.off false
  else if r.port = 254 then s.sendPcie id r (s.regN (aPciePeer r.device) + r.off) false
  else s.send (.fabReq id r.kind r.port r.board r.device r.off r.size r.key r.data r.byteMask r.atom r.bad (s.wantsCopy r))

/-- A request over PCI Express may leave: none is held, and fewer than 4,096 are outstanding (R24). -/
def State.pcieFree (s : State) : Bool :=
  s.remotes.all (fun e => !(e.2.held && decide (254 ≤ e.2.port)))
    && decide ((s.remotes.filter (fun e => decide (254 ≤ e.2.port))).length < 4096)

/-- A request leaves for another device or for the host, and waits for its answer (R42, R47, R143). Requests that R43 would place on a
port that is draining are held, and so are those over PCI Express beyond 4,096 (R24, R45). A write drops this device's copy of the line (R49). -/
def State.request (s : State) (r : RemoteReq) (p : Place) : Nat × State :=
  let (id, s1) := s.fresh
  let add (s : State) (r : RemoteReq) : State := { s with remotes := Dict.put s.remotes id r }
  let pcie (s : State) (r : RemoteReq) : State := if s.pcieFree then (add s r).sendReq id r else add s { r with held := true }
  match p with
  | .host pa => (id, pcie s1 { r with port := 255, off := pa - hostLo })
  | .peer board dev off key =>
    let r := { r with board := board, device := dev, off := off, key := BitVec.ofNat 16 key }
    let s2 := if kindWrites r.kind then
        { s1 with fabric := { s1.fabric with copies := s1.fabric.copies.filter (fun c => !(c.1 == 8 * board + dev && c.2 == off / 128)) } }
      else s1
    if s.regF aFabCfg 8 8 = 1 then (id, pcie s2 { r with port := 254 })
    else
      let q := (s.routeBy (fun q => s.portUp q || s.fabric.held.contains q) (off / 128)).getD 0
      let r := { r with port := q, ext := s.regF (aPortStat q) 3 3 == 1 }
      if s.fabric.held.contains q then (id, add s2 { r with held := true })
      else (id, (add s2 r).sendReq id r)
  | _ => (id, s1)

/-- A request over PCI Express that was held leaves, when there is room (R24). -/
def State.pcieRelease (s : State) : State :=
  match List.find? (fun (e : Nat × RemoteReq) => e.2.held && decide (254 ≤ e.2.port)) s.remotes with
  | none => s
  | some (id, r) =>
    if (s.remotes.filter (fun e => decide (254 ≤ e.2.port) && !e.2.held)).length < 4096 then
      (let r := { r with held := false }
       ({ s with remotes := Dict.put s.remotes id r } : State).sendReq id r)
    else s

/-- Nobody waits any more for the answers to some requests: one that has left stays outstanding (R24, R45). -/
def State.disown (s : State) (mine : RemoteReq → Bool) : State :=
  { s with remotes := s.remotes.filterMap (fun e =>
      if !mine e.2 then some e
      else if e.2.held || e.2.port == 253 then none
      else some (e.1, { e.2 with p := noPath, op := 0, parts := [], reader := none, poll := false, gone := true })) }

/-- One lane's remote access: where, its address, the key it fills, the bytes it sends. -/
structure RemoteAcc where
  lane : Nat
  place : Place
  va : W64
  dst : Nat
  data : List Byte
  /-- Its data are poisoned. -/
  bad : Bool := false
  deriving DecidableEq, Repr

/-- Puts an access into the group of its board, device and line (R47): first byte, parts, bytes of the line, mask. -/
def joinGroup (size : Nat) (a : RemoteAcc) :
    List (Place × List RemotePart × List Byte × Nat) → List (Place × List RemotePart × List Byte × Nat)
  | [] => match a.place with
    | .peer b d off key =>
      let o := off % 128
      [(.peer b d (off - o) key, [{ lane := a.lane, va := a.va, pos := o, len := size, dst := a.dst }],
        List.replicate o 0 ++ a.data ++ List.replicate (128 - o - a.data.length) 0, (2 ^ size - 1) * 2 ^ o)]
    | p => [(p, [{ lane := a.lane, va := a.va, pos := 0, len := size, dst := a.dst }], a.data, 2 ^ size - 1)]
  | g :: r => match a.place, g.1 with
    | .peer b d off key, .peer b' d' off' _ =>
      if b = b' ∧ d = d' ∧ off / 128 = off' / 128 then
        let o := off % 128
        (.peer b d (off - o) key, g.2.1 ++ [{ lane := a.lane, va := a.va, pos := o, len := size, dst := a.dst }],
          g.2.2.1.take o ++ a.data ++ g.2.2.1.drop (o + a.data.length), g.2.2.2 ||| (2 ^ size - 1) * 2 ^ o) :: r
      else g :: joinGroup size a r
    | _, _ => g :: joinGroup size a r

/-- Sends the remote accesses of one instruction: peer loads and stores one request a line, others one each (R47, R56, R143). The
answer is the requests' numbers. -/
def State.sendAll (s : State) (r : RemoteReq) (l : List RemoteAcc) : List Nat × State :=
  let group (a : RemoteAcc) : Bool := s.regF aFabCfg 8 8 == 0 && r.atom.isNone && (match a.place with | .peer _ _ _ _ => true | _ => false)
  let alone := (l.filter (fun a => !group a)).map (fun a =>
    (a.place, [({ lane := a.lane, va := a.va, pos := 0, len := r.size, dst := a.dst } : RemotePart)], a.data, 2 ^ r.size - 1))
  let grouped := (l.filter group).foldl (fun g a => joinGroup r.size a g) []
  let poisoned (g : List RemotePart) : Nat := l.foldl (fun n a =>
    match g.find? (fun p => p.lane == a.lane && p.va == a.va) with
    | some p => if a.bad then setBits n (p.pos / 64) (p.pos / 64) 1 else n
    | none => n) r.bad
  (alone ++ grouped).foldl (fun (ids, s) g =>
    let (id, s1) := s.request { r with bad := poisoned g.2.1, parts := g.2.1, data := if kindWrites r.kind then g.2.2.1 else [], byteMask := g.2.2.2
                                       size := if g.2.1.length = 1 && alone.any (fun a => a.2.1 == g.2.1) then r.size else 128 } g.1
    (ids ++ [id], s1)) ([], s)

/-- Reads a local place, gives a new value for the old, and writes it; a poisoned element keeps its bytes and its poison (R378,
R451). Outside a transaction it acts on the current ply (R174, R204; log 14). The answer is the old value, whether it is poisoned, the flags, and the state. -/
def State.rmw (s : State) (v : View) (k i va : Nat) (p : Place) (n : Nat) (f : Nat → Nat × FpFlags) : Nat × Bool × FpFlags × State :=
  let v := match v with | .snap _ => View.current | _ => v
  let (v, p) := match p with
    | .self off key => (match s.exportPa key off .atomic with
      | some pa => (View.current, Place.mem pa)
      | none => (v, p))
    | _ => (v, p)
  let (l, bad) := s.load v (s.coil? k) p n
  let old := ofBytes l
  let (new, g) := f old
  let s1 := match p with | .l1 h pa => s.l1Touch h pa n | _ => s
  if bad then (old, true, 0, s1.store v k i va p l true)
  else (old, false, g, s1.store v k i va p (toBytes n new) false)

end Sys2Proof.Machine
end

