-- ==== Sys2Proof/Machine/Bolt.lean ====
section
/-! DEFINITION. Messages to the host (R25, R28, R70), the end of coils and bolts (R84, R106, R139). -/

namespace Sys2Proof.Machine

open Sys2Proof

/-- Sends an MSI-X vector when MSI-X is enabled (R25). -/
def State.msix (s : State) (v : Nat) : State := if s.link.msixEnable then s.send (.msix v) else s

/-- The 256 bytes of a mailbox slot (R28). -/
def mailSlot (kind seq status : Nat) (body : List Byte) : List Byte :=
  let b := body.take 240
  toBytes 2 kind ++ toBytes 2 b.length ++ toBytes 4 seq ++ toBytes 4 status ++ [0, 0, 0, 0] ++ b ++ List.replicate (240 - b.length) 0

/-- Writes waiting messages to the device-to-host ring while it has room; vector 1 signals each (R25, R28). -/
def State.flushMail (s : State) : Nat → State
  | 0 => s
  | n + 1 =>
    match s.link.mail with
    | [] => s
    | (_, m) :: r =>
      let wr := s.regF aMbxIdx2 31 0
      let rd := s.regF aMbxIdx2 63 32
      if (wr + 2 ^ 32 - rd) % 2 ^ 32 < 1024 then
        let s1 := { s with link := { s.link with mail := r, mailbox := Tab.setRun Config.blank s.link.mailbox (0x40000 + 256 * (wr % 1024)) m } }
        State.flushMail ((s1.setRegF aMbxIdx2 31 0 ((wr + 1) % 2 ^ 32)).msix 1) n
      else s

/-- Puts a message on the device-to-host ring, or keeps it until there is room. -/
def State.postMail (s : State) (kind seq status : Nat) (body : List Byte) : State :=
  let s1 := { s with link := { s.link with mail := s.link.mail ++ [(kind, mailSlot kind seq status body)] } }
  s1.flushMail s1.link.mail.length

/-- A message that the device originates takes its own next sequence number (R28, R70; log 6). -/
def State.postOwn (s : State) (kind : Nat) (body : List Byte) : State :=
  { s with link := { s.link with seq := s.link.seq + 1 } }.postMail kind s.link.seq.toNat 0 body

/-- Coils of a bolt (R100). -/
def Desc.coils (d : Desc) : Nat := d.gridX * d.gridY * d.gridZ

/-- A bolt completes: its snapshot is released, and a killed bolt is reported to the host (R84, R139, R193). -/
def State.finishBolt (s : State) (bid : Nat) : State :=
  match Dict.find? s.bolts bid with
  | none => s
  | some b =>
    let s1 := { s with bolts := Dict.del s.bolts bid }
    let s2 := match b.snap with | some n => s1.dropSnap n | none => s1
    match b.killed with
    | some c => s2.postOwn 0x4002 (toBytes 8 bid ++ toBytes 8 c.code)
    | none => s2

/-- A bolt whose coils have all been placed and have ended completes (R84). -/
def State.checkBolt (s : State) (bid : Nat) : State :=
  match Dict.find? s.bolts bid with
  | none => s
  | some b =>
    if b.desc.coils ≤ b.nextCoil ∧ !(s.coils.any (fun c => c.2.bolt == bid)) then s.finishBolt bid else s

/-- Writes the bytes of a finished copy lane to its destination (R382, R383). -/
def State.landCopy (s : State) (x : CpaLane) : State :=
  match s.coilBolt? x.p.coil with
  | none => s
  | some (c, b) =>
    match s.winOff b.asid x.dst.toNat with
    | none => s
    | some off =>
      (upFrom 0 4).foldl (fun s j =>
        match winPlace c b.desc (b.desc.halfOf x.p.strand) (off + 8 * j) 8 with
        | some p => s.store .current x.p.coil x.p.strand (x.dst.toNat + 8 * j) p ((x.bytes.drop (8 * j)).take 8) (x.poison.getD j false)
        | none => s) s

/-- A fault record's waiter belongs to a coil. -/
def FaultWaiter.ofCoil (ops : Dict EngineOp) (k : Nat) : FaultWaiter → Bool
  | .path p _ => p.coil == k
  | .reduction p _ => p.coil == k
  | .engine op => match Dict.find? ops op with | some o => o.coil == k | none => true
  | .bte _ _ _ => false
  | .queue _ _ => false

/-- A reader belongs to a coil. -/
def Reader.ofCoil (ops : Dict EngineOp) (k : Nat) : Reader → Bool
  | .path p _ => p.coil == k
  | .engine op => match Dict.find? ops op with | some o => o.coil == k | none => true
  | .chunk _ _ _ => false
  | .packet _ _ => false
  | .bteQueue _ => false
  | .queue _ => false
  | .yoke _ => false

/-- The coil of a killed bolt is gone: the packets that wait for it, and those in a save area, fail their remaining chunks (R230, R232). -/
def State.bteKill (s : State) (k asid : Nat) : State :=
  let hit (q : Nat) (p : BtePacket) : Bool := p.held && pkCctx p.bytes == k && s.bteAsid q == asid
  let waking := s.bte.flatMap (fun (e : Nat × BteQueue) => (e.2.packets.filter (hit e.1)).flatMap (fun p =>
    ((upFrom 0 p.chunks).filter (fun i => !bit p.done i)).map (fun i => Instr.bteChunk e.1 p.number i)))
  ({ s with bte := List.map (fun (e : Nat × BteQueue) => (e.1, { e.2 with
      packets := e.2.packets.map (fun p => if hit e.1 p then { p with failAll := 5, held := false } else p)
      kept := e.2.kept.map (fun x => if x.2.1 = k ∧ s.bteAsid e.1 = asid then (x.1, x.2.1, true) else x) })) s.bte } : State).push waking

/-- Removes a coil with everything that hangs on it: its reservation, transactions, handles, engine work, pending upcalls (R106,
R139, R193). -/
def State.dispose (s : State) (k : Nat) : State :=
  match s.coil? k with
  | none => s
  | some c =>
    let s0 := (s.copies.filter (fun x => x.2.p.coil == k)).foldl (fun s x => s.landCopy x.2) (match c.residency, Dict.find? s.bolts c.bolt with
      | .saved _ _, _ => s
      | _, some b => s.releaseAll c b.desc
      | _, none => s)
    let s1 := c.strands.foldl (fun s st => match st.txn with | some t => s.dropTents t | none => s) s0
    let s2 := match c.txn with | some t => s1.dropTents t | none => s1
    let s3 := c.handles.foldl (fun s h => s.dropSnap h) s2
    let s4 := { s3 with
      faults := List.map (fun (e : Nat × FaultRec) => (e.1, { e.2 with waiters := e.2.waiters.filter (fun w => !FaultWaiter.ofCoil s3.ops k w) })) s3.faults
      ops := s3.ops.filter (fun o => o.2.coil != k)
      copies := s3.copies.filter (fun x => x.2.p.coil != k)
      remotes := (s3.disown (fun r => r.p.coil == k)).remotes
      arrived := s3.arrived.filter (fun x => !Reader.ofCoil s3.ops k x.reader)
      upcalls := s3.upcalls.filter (fun x => !(x.2.waiter.any (fun (p : PathId) => p.coil == k)))
      traps := s3.traps.filter (fun x => x.2.coil != k)
      slots := (match c.residency with | .saved i _ => s3.slots.erase i | _ => s3.slots)
      coils := Dict.del s3.coils k }
    let s5 := match Dict.find? s4.bolts c.bolt with
      | some b => if b.killed.isSome then s4.bteKill k b.asid else s4
      | none => s4
    (s5.checkBolt c.bolt).wantPlace

/-- A coil ends when every strand has ended and its work has been performed (R84, R106). -/
def State.settleCoil (s : State) (k : Nat) : State :=
  match s.coil? k with
  | none => s
  | some c =>
    if c.liveStrands = [] ∧ !(s.ops.any (fun o => o.2.coil == k)) ∧ !(s.copies.any (fun x => x.2.p.coil == k))
        ∧ !(s.faults.any (fun f => f.2.waiters.any (fun w => match w with | .reduction p _ => p.coil == k | _ => false)))
        ∧ c.strands.all (fun st => st.longs.isEmpty) ∧ !(s.remotes.any (fun x => x.2.p.coil == k)) then s.dispose k else s

/-- Kills a bolt: its unplaced coils are never placed, saved contexts are discarded, resident coils stop at their boundaries and end, and
its pending upcalls are dropped (R67, R139). -/
def State.killBolt (s : State) (bid : Nat) (c : Cause) : State :=
  match Dict.find? s.bolts bid with
  | none => s
  | some b =>
    if b.killed.isSome then s
    else
      let s1 := { s with bolts := Dict.put s.bolts bid { b with killed := some c, nextCoil := b.desc.coils } }
      let mine := s1.coils.filter (fun x => x.2.bolt == bid)
      let s2 := mine.foldl (fun s x => match x.2.residency with
        | .saved _ _ => s.dispose x.1
        | _ => (s.updCoil x.1 (fun c => { c with residency := .stopping 5 })).push [.coilSave x.1]) s1
      let mine (u : UpcallReq) : Bool := u.waiter.any (fun (p : PathId) => (s2.coil? p.coil).any (fun c => c.bolt == bid))
      ({ s2 with upcalls := s2.upcalls.filter (fun e => !mine e.2) } : State).checkBolt bid

end Sys2Proof.Machine
end

