-- ==== Sys2Proof/Machine/Issue.lean ====
section
/-! DEFINITION. Taking a trap, parking on a fault, and how an instruction issues: the checks that precede it, its effect, and the PC
after it (R108, R115, R137, R256-R263, R304, R328-R330). -/

namespace Sys2Proof.Machine

open Sys2Proof

/-- A trap stands in the scalar stream: courses enqueued before it run on (R259, R392). -/
def inScalar (t : TrapInfo) : Bool := t.stream == 0 || t.deferred

/-- The lane stream of a path so parked goes on (R115, R259). -/
def Park.lanesOpen : Park → Bool
  | .running => true
  | .trap t _ _ => inScalar t
  | _ => false

/-- What a meaning answers. -/
abbrev Out := Host.Outcome State Fault Refusal

/-- What the issue of an instruction comes to. -/
inductive Act where
  /-- Its effect is done; the path goes on after it. -/
  | go (s : State)
  /-- Its effect is done; the path goes on at an address. -/
  | jump (s : State) (pc : W64)
  /-- It has issued and parks its path at itself. -/
  | park (s : State) (k : Park)
  /-- It cannot issue now (R115), or has settled where its path goes on by itself. -/
  | wait (s : State)
  /-- It traps (R256); the record's place is filled in. The state holds what its translation and reporting left. -/
  | trap (s : State) (t : TrapInfo)
  deriving DecidableEq, Repr

/-- A stop report (R271). -/
def stopReport (k : Coil) (slot : Nat) : List Byte :=
  toBytes 8 k.bolt ++ toBytes 4 k.x ++ toBytes 2 k.y ++ toBytes 2 k.z ++ toBytes 4 k.phases ++ toBytes 1 k.stopWhy.1 ++ toBytes 1 k.stopWhy.2
    ++ [0, 0] ++ toBytes 4 slot ++ toBytes 4 0 ++ (upFrom 0 16).flatMap (fun b => toBytes 8 (Tab.get 0 k.barArrived b).toNat) ++ toBytes 96 0

/-- The report of a coil that a debugger has stopped, in its save slot (R271). -/
def State.report (s : State) (k : Nat) : State :=
  match s.coil? k with
  | some c => (match c.residency with
    | .saved slot _ => if c.debugStop then s.write (s.regF aDbgDump 63 12 * 4096 + 256 * slot) (stopReport c slot) false else s
    | _ => s)
  | none => s

/-- Orders one coil to stop for the debugger, or marks it stopped where it is; a STEP of it is over (R270, R272, R274). -/
def State.debugStopOne (s : State) (k : Nat) (why : Nat × Nat) : State :=
  match s.coil? k with
  | none => s
  | some c =>
    if c.debugStop then s
    else match c.residency with
      | .resident =>
        (s.updCoil k (fun c => { c with debugStop := true, stepOnly := none, stopWhy := why, residency := .stopping 4 })).push [.coilSave k]
      | .stopping cause =>
        s.updCoil k (fun c => { c with debugStop := true, stepOnly := none, stopWhy := why, residency := .stopping (if cause < 2 then 4 else cause) })
      | _ => (s.updCoil k (fun c => { c with debugStop := true, stepOnly := none, stopWhy := why })).report k

/-- Orders a coil to stop for the debugger; a stop of a coil of a co-resident bolt stops the whole bolt (R270). -/
def State.debugStopCoil (s : State) (k : Nat) (why : Nat × Nat) : State :=
  match s.coilBolt? k with
  | none => s
  | some (c, b) =>
    if b.desc.cores then ((s.coils.filter (fun e => e.2.bolt == c.bolt)).map Prod.fst).foldl (fun s j => s.debugStopOne j why) s
    else s.debugStopOne k why

/-- A path stops at a trap: it parks with PARK = 12, and its record waits to be posted (R261). STOP_ON_TRAP stops its coil (R274). -/
def State.stopAtTrap (s : State) (x : Issuer) (t : TrapInfo) : State :=
  let t := { t with splint := splintOf x.id.path }
  let under := match x.path.park with | .trap t0 i none => some (t0, i) | _ => x.path.standing
  let s1 := (s.updPath x.id (fun p => { p with park := .trap t none under, standing := none })).traceTrap x t.cause.code t.pos
  let s2 := s1.push [.upcallPost
    { kind := 3, splint := t.splint, hamper := x.hamper, slot := x.strand.slot, bolt := x.coil.bolt, x := x.coil.x, y := x.coil.y,
      z := x.coil.z, asid := x.asid, arg0 := BitVec.ofNat 64 t.cause.code, waiter := some x.id, trap := some t }]
  if bit (s.regN aDbgCfg) 0 && (t.cause == .watchpoint || t.cause == .trapInsn) then s2.debugStopCoil x.id.coil (2, t.splint) else s2

/-- A trap record of the scalar instruction at which a path stands (R259, R261). -/
def scalarTrap (x : Issuer) (insn : W96) (t : TrapInfo) : TrapInfo :=
  { t with stream := 0, pos := 0, ipc := x.path.pc, spc := x.path.pc, insn := insn }

/-- The path stops at a trap, or with TRAP_KILL its bolt is killed; `WATCHPOINT` always goes to Holver (R261). The trace records the trap either
way (R267, R280). -/
def State.trapOrKill (s : State) (x : Issuer) (t : TrapInfo) : State :=
  if x.desc.trapKill && t.cause != .watchpoint then
    ((s.setPark x.id (.trap { t with splint := splintOf x.id.path } none none)).traceTrap x t.cause.code t.pos).killBolt x.coil.bolt t.cause
  else s.stopAtTrap x t

/-- The members parked in latches whose set holds a strand that will not arrive all trap `GANG_ABANDONED`, and their own absence
abandons further latches (R110). -/
def State.abandonGangs (s : State) (k : Nat) : Nat → List Nat → State
  | 0, _ => s
  | _, [] => s
  | fuel + 1, i :: rest =>
    match s.coil? k with
    | none => s
    | some c =>
      let hit := c.latches.filter (fun l => l.1.getLsbD i && !(l.2.any (fun a => a.strand == i)) && !l.2.isEmpty)
      let gone := hit.flatMap Prod.snd
      let s1 := s.updCoil k (fun c => { c with latches := c.latches.filter (fun l => !hit.contains l) })
      let s2 := gone.foldl (fun s a =>
        match s.issuerAt { coil := k, strand := a.strand, path := 15 } with
        | some y => s.trapOrKill y (scalarTrap y (BitVec.ofNat 96 a.word.toNat) { cause := .gangAbandoned })
        | none => s) s1
      State.abandonGangs s2 k fuel (rest ++ gone.map GangArrival.strand)

/-- What follows when a strand ends, is killed or traps before it arrives somewhere: latches and the coil's transaction are abandoned
(R110, R197). -/
def State.strandAbsent (s : State) (k i : Nat) : State :=
  match s.coil? k with
  | none => s
  | some c =>
    let s1 := s.abandonGangs k (c.strands.length + 1) [i]
    match c.txn with
    | some t =>
      if t.aborted.isNone && !c.plyArrived.getLsbD i then
        (s1.dropTents t).updCoil k (fun c => { c with txn := some { t with aborted := some 8 } })
      else s1
    | none => s1

/-- TAKING A TRAP: the path parks at it and its record goes to Holver, or its bolt is killed (R261); one that stops is absent where other strands
wait for it (R110, R197). -/
def State.takeTrap (s : State) (x : Issuer) (t : TrapInfo) : State :=
  let s1 := s.trapOrKill x t
  if x.desc.trapKill && t.cause != .watchpoint then s1 else s1.strandAbsent x.id.coil x.id.strand

/-- The words of an instruction as a trap record holds them (R261). -/
def insnWords (i : Instr) : W96 := BitVec.ofNat 96 (ofElems 32 (encode i))

/-- Bytes of a scalar instruction (R285). -/
def insnBytes (i : Instr) : Nat := 4 * (encode i).length

/-- A lane instruction has issued: it counts, and a reissue's restriction ends (R137, R262). -/
def State.issued (s : State) (id : PathId) : State :=
  (s.count id.coil).updPath id (fun p => { p with only := none })

/-- A scalar instruction has issued: a breakpoint that its path has passed matches again (R273), and a STEP has had its instruction
(R272). -/
def State.issuedS (s : State) (id : PathId) : State :=
  ((s.count id.coil).updPath id (fun p => { p with bpPass := false })).updCoil id.coil (fun c =>
    { c with stepOnly := c.stepOnly.map (fun t => (t.1, t.2.1, true)) })

/-- What the issue of a scalar instruction leaves (R137, R259). -/
def settleScalar (x : Issuer) (i : Instr) : Act → State
  | .go s1 => (s1.issuedS x.id).updPath x.id (fun p => { p with pc := x.path.pc + BitVec.ofNat 64 (insnBytes i) })
  | .jump s1 pc => (s1.issuedS x.id).setPc x.id pc
  | .park s1 k => (s1.issuedS x.id).setPark x.id k
  | .wait s1 => s1
  | .trap s1 t => (s1.issuedS x.id).takeTrap x (scalarTrap x (insnWords i) t)

/-- The scalar register that a lane instruction writes, from its words 0 and 1 (R368, R369). -/
def scalarDestOf (w0 w1 : Nat) : Option Nat :=
  let op := bits w0 31 24
  if op = 0x63 ∨ op = 0x64 ∨ op = 0x66 then some (bits w1 31 24) else none

/-- The values that a fetch of a code word of a course may give: none where that cannot be told before the fetch, and no value where the course is to
trap at its start (R287, R288, R301). -/
def State.codeValues (s : State) (x : Issuer) (va : Nat) : Option (List Nat) :=
  if inPeerWin va || !canonical (BitVec.ofNat 64 va) || (s.winOff x.asid va).isSome then some []
  else match (s.translate (.hamper x.hamper) x.asid va .execute).1 with
    | .ok pa =>
      if inRegSpace pa then some []
      else if inHostWin pa then none
      else some (s.peekN pa 4 :: (x.bolt.code.filter (fun e => e.1 == pa)).map (fun e => e.2.1))
    | .fail _ _ _ => none

/-- The scalar registers that a course writes, up to its trailer, without any effect of the reading; none where its words cannot be told yet. -/
def State.peekCourse (s : State) (x : Issuer) (addr : Nat) : Nat → Option (List Nat)
  | 0 => some []
  | n + 1 =>
    match s.codeValues x addr, s.codeValues x (addr + 4) with
    | some l0, some l1 =>
      if l0.all (fun w => bits w 31 24 == 0xFF) then some []
      else (State.peekCourse s x (addr + 12) n).map (fun r => l0.flatMap (fun w0 => l1.filterMap (scalarDestOf w0)) ++ r)
    | _, _ => none

/-- An earlier course of the path, running or queued, is still to write one of some scalar registers, or it cannot be told that none is (R121,
R328). -/
def State.courseWrites (s : State) (x : Issuer) (regs : List Nat) : Bool :=
  let hit (l : List Nat) : Bool := regs.any (fun r => r != 0 && l.contains r)
  (match x.strand.running with
    | some r => r.course.path == x.id.path
        && hit (r.words.filterMap (fun w => scalarDestOf (w.toNat % 2 ^ 32) (w.toNat / 2 ^ 32 % 2 ^ 32)))
    | none => false)
  || x.strand.queue.any (fun c => c.path == x.id.path && (match s.peekCourse x c.addr.toNat 25 with
    | some l => hit l
    | none => regs.any (fun r => r != 0)))

/-- Some scalar register of the list has a value still to come: from a pending operation of the path, or from an earlier course
(R121, R328). -/
def State.pendingS (s : State) (x : Issuer) (regs : List Nat) : Bool :=
  x.strand.longs.any (fun l => l.2.sWrites.any (fun w => regs.any (fun r => r != 0 && sKey x.id.path r == w.1)))
    || s.courseWrites x regs

/-- An awaited mask, or `em`, has a pending write: 0 or 16 for `em` (R121, R329). -/
def pendingK (x : Issuer) (ks : List Nat) : Bool :=
  x.strand.longs.any (fun l => l.2.kWrites.any (fun w =>
    ks.any (fun k => if k = 0 ∨ k = 16 then w.1 == 16 && l.2.path == x.id.path else w.1 == k && l.2.awaited)))

/-- What a scalar instruction needs before its own effect. -/
structure Needs where
  /-- Registers that it reads, and consumes. -/
  reads : List Nat := []
  /-- Registers that it reads without consuming their poison: the data of a store (R330). -/
  moves : List Nat := []
  writes : List Nat := []
  /-- Masks that it reads or writes; 0 is `em`. -/
  masks : List Nat := []
  /-- It waits until earlier courses of its path have ended (R329, R408). -/
  courses : Bool := false
  /-- Roles that may issue it (R108). -/
  roles : Nat := 7
  /-- Its word names something that the bolt has not reserved, or that its coil has not initialised (R103, R386, R388, R391). -/
  unreserved : Issuer → Bool := fun _ => false
  /-- It accesses memory: its traps accept RETRY_OTHERS (R262). -/
  memory : Bool := false

/-- The checks that every scalar instruction makes while no access of the path waits for an answer from outside, then its own effect (R108, R304, R328-R330). -/
def scalarAct (s : State) (x : Issuer) (n : Needs) (body : Issuer → Act) : Act :=
  if x.strand.longs.any (fun e => e.2.path == x.id.path && (!e.2.remote.isEmpty || e.2.pos == 255)) then .wait s
  else if n.roles &&& x.role = 0 then .trap s { cause := .roleViolation, memory := n.memory }
  else if (n.reads ++ n.moves ++ n.writes).any (fun r => decide (x.desc.sregs ≤ r)) then .trap s { cause := .regUnreserved, memory := n.memory }
  else if (n.courses && x.strand.hasCourses x.id.path) || pendingK x n.masks || s.pendingS x (n.reads ++ n.moves ++ n.writes) then
    .wait s
  else if n.unreserved x then .trap s { cause := .regUnreserved, memory := n.memory }
  else if n.reads.any x.sBad then .trap s { cause := .poison, memory := n.memory }
  else body x

/-- A scalar instruction issues: refused only where no path has the turn. -/
def scalar (s : State) (i : Instr) (n : Needs) (body : Issuer → Act) : Out :=
  match s.issuer with
  | none => .refused .noIssuer
  | some x => .next (settleScalar x i (scalarAct s x n body))

/-- A path resumes after the instruction at which it is parked. -/
def State.resumeAfter (s : State) (id : PathId) (bytes : Nat) : State :=
  s.updPath id (fun p => { p with park := .running, pc := p.pc + BitVec.ofNat 64 bytes })

/-- Ranks of the accesses of a scalar instruction: its cause belongs to the whole instruction, LADDR of lane 0 holds the address
(R335). -/
def scalarCause (c : Cause) (va : Nat) (mem : Bool) : TrapInfo :=
  { cause := c, laddr := if va = 0 then [] else [(0, BitVec.ofNat 64 va)], memory := mem }

/-- Some access meets a revoked snapshot: a read at one, or a transaction's first access to a line (R207). -/
def meetsRevoked (s : State) (v : View) (l : List (Nat × Acc × Place)) : Bool :=
  l.any (fun (_, a, p) => match p with
    | .mem pa => (match v with
      | .txn _ => s.viewRevoked v pa
      | .snap _ => !kindWrites a.kind && s.viewRevoked v pa
      | .current => false)
    | _ => false)

/-- Back-invalidations that the writes among these accesses need are sent; true when none is outstanding (R50). -/
def State.unsnoopAll (s : State) (l : List (Nat × Acc × Place)) : Bool × State :=
  l.foldl (fun (ok, s) (_, a, p) => match p with
    | .mem pa => if kindWrites a.kind then (let (o, s1) := s.unsnoop pa a.size; (ok && o, s1)) else (ok, s)
    | .l1 _ pa => if kindWrites a.kind then (let (o, s1) := s.unsnoop pa a.size; (ok && o, s1)) else (ok, s)
    | .self off key => (match (if kindWrites a.kind then s.exportPa key off a.kind else none) with
      | some pa => let (o, s1) := s.unsnoop pa a.size; (ok && o, s1)
      | none => (ok, s))
    | _ => (ok, s)) (true, s)

/-- An access takes an entry of its own: an atomic, and a store in the peer window (R48, R152). -/
def takesOwn (a : Acc) (p : Place) : Bool := a.kind == .atomic || (kindWrites a.kind && p.isPeer)

/-- The 128-byte line that an access touches, as its first place. -/
def Place.line : Place → Place
  | .mem pa => .mem (pa / 128)
  | .l1 _ pa => .mem (pa / 128)
  | .host pa => .host (pa / 128)
  | .self off key => .self (off / 128) key
  | .peer b d off key => .peer b d (off / 128) key
  | p => p

/-- An access is not served by the L1 of its Hamper (R148, R152). -/
def State.misses (s : State) (a : Acc) (p : Place) : Bool :=
  match p with
  | .l1 h pa => !(upFrom pa a.size).all (fun b => match s.l1At h (b / 512) with | some k => k.holds (b % 512) | none => false)
  | _ => true

/-- Entries of the outstanding-transaction table that the accesses of an instruction take: one for each line that a load or a store touches, when
any of them misses, and one for each lane of an atomic or of a peer store (R152). -/
def State.ottEntries (s : State) (l : List (Nat × Acc × Place)) : Nat :=
  let far := l.filter (fun e => !e.2.2.inWindow)
  let shared := far.filter (fun e => !takesOwn e.2.1 e.2.2)
  (far.filter (fun e => takesOwn e.2.1 e.2.2)).length
    + (if shared.any (fun e => s.misses e.2.1 e.2.2) then (shared.map (fun e => e.2.2.line)).eraseDups.length else 0)

/-- Entries of a Hamper's table in use: those of accesses and copies of its strands that have not completed (R152, R383). -/
def State.ottUsed (s : State) (h : Nat) : Nat :=
  (s.coils.map (fun e => match Dict.find? s.bolts e.2.bolt with
    | some b => (((upFrom 0 e.2.strands.length).zip e.2.strands).map (fun st =>
        if e.2.hamper + b.desc.halfOf st.1 = h then
          (st.2.longs.map (fun g => g.2.ott)).sum + (s.copies.filter (fun c => c.2.p.coil == e.1 && c.2.p.strand == st.1)).length
        else 0)).sum
    | none => 0)).sum

/-- Synchronisation at a scope, if it has one, acts on the L1 for some accesses (R52, R150). -/
def Issuer.actsFor (x : Issuer) (sc : Option Nat) (l : List (Nat × Acc × Place)) : Bool :=
  sc.any (fun k => l.any (fun e => x.acts (e.2.2.scope k)))

/-- What synchronisation does before the accesses of an instruction are performed: a release, an acquire, and lines that are accessed at the L2
leave the L1 of the Hamper (R149, R150, R169). -/
def State.ordered (s : State) (h : Nat) (acq rel : Bool) (l : List (Nat × Acc × Place)) : State :=
  let s1 := if rel then s.l1Release h else s
  let s2 := if acq then s1.l1Acquire h else s1
  l.foldl (fun s e => match e.2.2 with
    | .mem pa => s.l1Flush h pa e.2.1.size
    | .self off key => (match s.exportPa key off e.2.1.kind with
      | some pa => s.l1Flush h pa e.2.1.size
      | none => s)
    | _ => s) s2

/-- A lane that finds no up port is recorded in `FAB_ERR` (R54). -/
def State.noteUnreach (s : State) (c : Cause) : State :=
  if c == .fabricUnreachable && s.regF aFabCfg 8 8 == 0 then s.setErr 0 1 else s

/-- Lowest failing address of each lane (R261). -/
def faultAddrs (fs : List (Nat × Acc × Nat × Nat × Nat)) : Tab W64 :=
  fs.foldr (fun f t => Tab.set 0 t f.1 (BitVec.ofNat 64 f.2.1.va)) []

/-- The accesses of a scalar instruction, which acquires or releases at some scope, are judged: a trap of the highest cause, a park on their faults, or their places, once the table of
its Hamper has room and what it orders is done (R150, R152, R335, R452). -/
def scalarAccess (s : State) (x : Issuer) (accs : List Acc) (body : State → List Place → Act) (acq : Option Nat := none) (rel : Option Nat := none) : Act :=
  let (js, s1) := s.judgeAll x.who (accs.map (fun a => (0, a)))
  let causes := causesOf js
  match topCause causes with
  | some c =>
    let va := match causes.find? (fun e => e.2.1 == c) with | some e => e.2.2 | none => 0
    .trap (s1.noteUnreach c) (scalarCause c va true)
  | none =>
    match faultsOf js with
    | [] =>
      let ps := placesOf js
      let first := match accs with | a :: _ => a.va | [] => 0
      if meetsRevoked s1 x.view ps then .trap s1 (scalarCause .snapshotRevoked first true)
      else if ps.any (fun (_, a, p) => s1.refuses p a.kind) then .trap s1 (scalarCause .fabricAccess first true)
      else
        let (ok, s2) := s1.unsnoopAll ps
        if !ok || decide (512 < s2.ottUsed x.hamper + s2.ottEntries ps) then .wait s2
        else body (s2.ordered x.hamper (x.actsFor acq ps) (x.actsFor rel ps) ps) (ps.map (fun e => e.2.2))
    | fs =>
      match s1.postFaults x.source x.asid (fun m => .path x.id m) fs [] with
      | none => .wait s1
      | some (w, s2) => .park s2 (.fault w false 0 0 (faultAddrs fs))

end Sys2Proof.Machine
end

