-- ==== Sys2Proof/Machine/Alu.lean ====
section
/-! DEFINITION. Integer arithmetic, logic, shifts, extensions, multiplication and division of the scalar stream, and the SX immediates
(R293, R332-R334). -/

namespace Sys2Proof.Machine

open Sys2Proof

/-- Writes a result to sd, and its flags when the form sets them (R331). -/
def aluPut (s : State) (x : Issuer) (d : BitVec 6) (f : Bool) (k : FlagKind) (a b r : W64) : Act :=
  .go ((if f then s.setScc x.id (setFlags k a b r) else s).setS x.id d.toNat r false)

/-- A form of two source registers (R332, R334). -/
def aluRR (s : State) (i : Instr) (d a b : BitVec 6) (f : Bool) (k : FlagKind) (op : W64 → W64 → W64) : Out :=
  scalar s i { reads := [a.toNat, b.toNat], writes := [d.toNat] } (fun x => aluPut s x d f k (x.s a) (x.s b) (op (x.s a) (x.s b)))

/-- A form of one source register and an operand `b` that the instruction holds (R332, R333). -/
def aluRI (s : State) (i : Instr) (d a : BitVec 6) (b : W64) (op : W64 → W64 → W64) : Out :=
  scalar s i { reads := [a.toNat], writes := [d.toNat] } (fun x => aluPut s x d false .other (x.s a) b (op (x.s a) b))

/-- imm14 sign-extended, and zero-extended (R294). -/
def immS (imm : BitVec 14) : W64 := imm.signExtend 64
def immZ (imm : BitVec 14) : W64 := imm.zeroExtend 64

/-- The operations of R332 and R334 on 64-bit operands. Shift amounts are b[5:0]. -/
def opShl (a b : W64) : W64 := a <<< (b.toNat % 64)
def opShr (a b : W64) : W64 := a >>> (b.toNat % 64)
def opSra (a b : W64) : W64 := a.sshiftRight (b.toNat % 64)
def opMinS (a b : W64) : W64 := if a.toInt ≤ b.toInt then a else b
def opMaxS (a b : W64) : W64 := if a.toInt ≤ b.toInt then b else a
def opMinN (a b : W64) : W64 := if a.toNat ≤ b.toNat then a else b
def opMaxN (a b : W64) : W64 := if a.toNat ≤ b.toNat then b else a
/-- a + b × 2^n (`sadd2`, `sadd4`, `sadd8`). -/
def opSadd (n : Nat) (a b : W64) : W64 := a + b <<< n
def opPopc (a : W64) : W64 := BitVec.ofNat 64 (popcount 64 a.toNat)
def opClz (a : W64) : W64 := BitVec.ofNat 64 (clzW 64 a.toNat)
def opCtz (a : W64) : W64 := BitVec.ofNat 64 (ctzW 64 a.toNat)
/-- Bits [127:64] of a product of integers. -/
def high (z : Int) : W64 := BitVec.ofInt 64 (z / 18446744073709551616)
def opDivS (a b : W64) : W64 := if b = 0 then BitVec.allOnes 64 else BitVec.ofInt 64 (a.toInt.tdiv b.toInt)
def opDivN (a b : W64) : W64 := if b = 0 then BitVec.allOnes 64 else BitVec.ofNat 64 (a.toNat / b.toNat)
def opRemS (a b : W64) : W64 := if b = 0 then a else BitVec.ofInt 64 (a.toInt.tmod b.toInt)
def opRemN (a b : W64) : W64 := if b = 0 then a else BitVec.ofNat 64 (a.toNat % b.toNat)

/-- `add` and `add.f` (R332). -/
def execAdd (d a b : BitVec 6) (f : Bool) (s : State) : Out := aluRR s (.add d a b f) d a b f .add (fun a b => a + b)

/-- `sub` and `sub.f` (R332). -/
def execSub (d a b : BitVec 6) (f : Bool) (s : State) : Out := aluRR s (.sub d a b f) d a b f .sub (fun a b => a - b)

/-- `and` and `and.f` (R332). -/
def execAnd (d a b : BitVec 6) (f : Bool) (s : State) : Out := aluRR s (.and d a b f) d a b f .other (fun a b => a &&& b)

/-- `or` and `or.f` (R332). -/
def execOr (d a b : BitVec 6) (f : Bool) (s : State) : Out := aluRR s (.or d a b f) d a b f .other (fun a b => a ||| b)

/-- `xor` and `xor.f` (R332). -/
def execXor (d a b : BitVec 6) (f : Bool) (s : State) : Out := aluRR s (.xor d a b f) d a b f .other (fun a b => a ^^^ b)

/-- `andn` and `andn.f` (R332). -/
def execAndn (d a b : BitVec 6) (f : Bool) (s : State) : Out := aluRR s (.andn d a b f) d a b f .other (fun a b => a &&& ~~~b)

/-- `shl` and `shl.f` (R332). -/
def execShl (d a b : BitVec 6) (f : Bool) (s : State) : Out := aluRR s (.shl d a b f) d a b f .other opShl

/-- `shr` and `shr.f` (R332). -/
def execShr (d a b : BitVec 6) (f : Bool) (s : State) : Out := aluRR s (.shr d a b f) d a b f .other opShr

/-- `sra` and `sra.f` (R332). -/
def execSra (d a b : BitVec 6) (f : Bool) (s : State) : Out := aluRR s (.sra d a b f) d a b f .other opSra

/-- `min.s` (R332). -/
def execMinS (d a b : BitVec 6) (s : State) : Out := aluRR s (.minS d a b) d a b false .other opMinS

/-- `max.s` (R332). -/
def execMaxS (d a b : BitVec 6) (s : State) : Out := aluRR s (.maxS d a b) d a b false .other opMaxS

/-- `min.n` (R332). -/
def execMinN (d a b : BitVec 6) (s : State) : Out := aluRR s (.minN d a b) d a b false .other opMinN

/-- `max.n` (R332). -/
def execMaxN (d a b : BitVec 6) (s : State) : Out := aluRR s (.maxN d a b) d a b false .other opMaxN

/-- `sadd2` (R332). -/
def execSadd2 (d a b : BitVec 6) (s : State) : Out := aluRR s (.sadd2 d a b) d a b false .other (opSadd 1)

/-- `sadd4` (R332). -/
def execSadd4 (d a b : BitVec 6) (s : State) : Out := aluRR s (.sadd4 d a b) d a b false .other (opSadd 2)

/-- `sadd8` (R332). -/
def execSadd8 (d a b : BitVec 6) (s : State) : Out := aluRR s (.sadd8 d a b) d a b false .other (opSadd 3)

/-- `sext.s8` (R332). -/
def execSextS8 (d a : BitVec 6) (s : State) : Out := aluRI s (.sextS8 d a) d a 0 (fun a _ => sext64 8 a.toNat)

/-- `sext.s16` (R332). -/
def execSextS16 (d a : BitVec 6) (s : State) : Out := aluRI s (.sextS16 d a) d a 0 (fun a _ => sext64 16 a.toNat)

/-- `sext.s32` (R332). -/
def execSextS32 (d a : BitVec 6) (s : State) : Out := aluRI s (.sextS32 d a) d a 0 (fun a _ => sext64 32 a.toNat)

/-- `zext.n8` (R332). -/
def execZextN8 (d a : BitVec 6) (s : State) : Out := aluRI s (.zextN8 d a) d a 0 (fun a _ => BitVec.ofNat 64 (a.toNat % 2 ^ 8))

/-- `zext.n16` (R332). -/
def execZextN16 (d a : BitVec 6) (s : State) : Out := aluRI s (.zextN16 d a) d a 0 (fun a _ => BitVec.ofNat 64 (a.toNat % 2 ^ 16))

/-- `zext.n32` (R332). -/
def execZextN32 (d a : BitVec 6) (s : State) : Out := aluRI s (.zextN32 d a) d a 0 (fun a _ => BitVec.ofNat 64 (a.toNat % 2 ^ 32))

/-- `popc` (R332). -/
def execPopc (d a : BitVec 6) (s : State) : Out := aluRI s (.popc d a) d a 0 (fun a _ => opPopc a)

/-- `clz` (R332). -/
def execClz (d a : BitVec 6) (s : State) : Out := aluRI s (.clz d a) d a 0 (fun a _ => opClz a)

/-- `ctz` (R332). -/
def execCtz (d a : BitVec 6) (s : State) : Out := aluRI s (.ctz d a) d a 0 (fun a _ => opCtz a)

/-- `mul` (R334). -/
def execMul (d a b : BitVec 6) (s : State) : Out := aluRR s (.mul d a b) d a b false .other (fun a b => a * b)

/-- `mulh.s` (R334). -/
def execMulhS (d a b : BitVec 6) (s : State) : Out := aluRR s (.mulhS d a b) d a b false .other (fun a b => high (a.toInt * b.toInt))

/-- `mulh.n` (R334). -/
def execMulhN (d a b : BitVec 6) (s : State) : Out := aluRR s (.mulhN d a b) d a b false .other (fun a b => high ((a.toNat * b.toNat : Nat) : Int))

/-- `mulh.sn` (R334). -/
def execMulhSn (d a b : BitVec 6) (s : State) : Out := aluRR s (.mulhSn d a b) d a b false .other (fun a b => high (a.toInt * (b.toNat : Int)))

/-- `div.s` (R334). -/
def execDivS (d a b : BitVec 6) (s : State) : Out := aluRR s (.divS d a b) d a b false .other opDivS

/-- `div.n` (R334). -/
def execDivN (d a b : BitVec 6) (s : State) : Out := aluRR s (.divN d a b) d a b false .other opDivN

/-- `rem.s` (R334). -/
def execRemS (d a b : BitVec 6) (s : State) : Out := aluRR s (.remS d a b) d a b false .other opRemS

/-- `rem.n` (R334). -/
def execRemN (d a b : BitVec 6) (s : State) : Out := aluRR s (.remN d a b) d a b false .other opRemN

/-- `addi` (R333). -/
def execAddi (d a : BitVec 6) (imm : BitVec 14) (s : State) : Out := aluRI s (.addi d a imm) d a (immS imm) (fun a b => a + b)

/-- `andi` (R333). -/
def execAndi (d a : BitVec 6) (imm : BitVec 14) (s : State) : Out := aluRI s (.andi d a imm) d a (immZ imm) (fun a b => a &&& b)

/-- `ori` (R333). -/
def execOri (d a : BitVec 6) (imm : BitVec 14) (s : State) : Out := aluRI s (.ori d a imm) d a (immZ imm) (fun a b => a ||| b)

/-- `xori` (R333). -/
def execXori (d a : BitVec 6) (imm : BitVec 14) (s : State) : Out := aluRI s (.xori d a imm) d a (immZ imm) (fun a b => a ^^^ b)

/-- `shli` (R333). -/
def execShli (d a n : BitVec 6) (s : State) : Out := aluRI s (.shli d a n) d a (n.zeroExtend 64) opShl

/-- `shri` (R333). -/
def execShri (d a n : BitVec 6) (s : State) : Out := aluRI s (.shri d a n) d a (n.zeroExtend 64) opShr

/-- `srai` (R333). -/
def execSrai (d a n : BitVec 6) (s : State) : Out := aluRI s (.srai d a n) d a (n.zeroExtend 64) opSra

/-- `cmpi`: the flags of `sub.f` of sa and imm14 sign-extended (R333). -/
def execCmpi (a : BitVec 6) (imm : BitVec 14) (s : State) : Out :=
  scalar s (.cmpi a imm) { reads := [a.toNat] } (fun x => aluPut s x 0 true .sub (x.s a) (immS imm) (x.s a - immS imm))

/-- `li` (R293). -/
def execLi (d : BitVec 6) (imm : W32) (s : State) : Out :=
  scalar s (.li d imm) { writes := [d.toNat] } (fun x => .go (s.setS x.id d.toNat (imm.signExtend 64) false))

/-- `lih`: sd[31:0] stay (R293). -/
def execLih (d : BitVec 6) (imm : W32) (s : State) : Out :=
  scalar s (.lih d imm) { reads := [d.toNat], writes := [d.toNat] } (fun x =>
    .go (s.setS x.id d.toNat (BitVec.ofNat 64 (imm.toNat * 2 ^ 32 + (x.s d).toNat % 2 ^ 32)) false))

/-- `addx` (R293). -/
def execAddx (d a : BitVec 6) (imm : W32) (s : State) : Out := aluRI s (.addx d a imm) d a (imm.signExtend 64) (fun a b => a + b)

end Sys2Proof.Machine
end

