-- ==== Sys2Proof/Machine/Float.lean ====
section
/-! DEFINITION. The floating formats, their exact values, rounding, conversions and the arithmetic that rounds once (R312-R323, R361,
R363, R379). -/

namespace Sys2Proof.Machine

open Sys2Proof

/-- A floating format: width, exponent bits, fraction bits, bias (R312). -/
structure Fmt where
  w : Nat
  eb : Nat
  fb : Nat
  bias : Nat
  /-- It has infinities, and NaNs with all exponent bits ones. -/
  ieee : Bool
  /-- It has a NaN with every bit but the sign one (E4M3). -/
  oneNan : Bool

/-- The format of a TYPE code 8 to 14 (R296, R312). -/
def fmtOf (t : Nat) : Fmt :=
  match t with
  | 8 => ⟨16, 5, 10, 15, true, false⟩
  | 9 => ⟨16, 8, 7, 127, true, false⟩
  | 10 => ⟨32, 8, 23, 127, true, false⟩
  | 11 => ⟨64, 11, 52, 1023, true, false⟩
  | 12 => ⟨8, 4, 3, 7, false, true⟩
  | 13 => ⟨8, 5, 2, 15, true, false⟩
  | _ => ⟨4, 2, 1, 1, false, false⟩

/-- An exact value: (-1)^neg × m × 2^e, an infinity, or a NaN. -/
inductive FVal where
  | num (neg : Bool) (m : Nat) (e : Int)
  | inf (neg : Bool)
  | nan (signalling : Bool)
  deriving DecidableEq, Repr

/-- Exponent of the smallest normal number. -/
def Fmt.emin (f : Fmt) : Int := 1 - (f.bias : Int)

/-- The value an encoding denotes (R312, R316). -/
def Fmt.decode (f : Fmt) (x : Nat) : FVal :=
  let s := bit x (f.w - 1)
  let ex := bits x (f.w - 2) f.fb
  let fr := x % 2 ^ f.fb
  if f.ieee && ex == 2 ^ f.eb - 1 then (if fr = 0 then .inf s else .nan (!bit fr (f.fb - 1)))
  else if f.oneNan && ex == 2 ^ f.eb - 1 && fr == 2 ^ f.fb - 1 then .nan false
  else if ex = 0 then .num s fr (f.emin - f.fb)
  else .num s (2 ^ f.fb + fr) ((ex : Int) - f.bias - f.fb)

/-- The canonical NaN (R316). -/
def Fmt.qnan (f : Fmt) : Nat :=
  if f.ieee then (2 ^ f.eb - 1) * 2 ^ f.fb + 2 ^ (f.fb - 1) else 2 ^ (f.w - 1) - 1

/-- The largest finite magnitude: its significand, and the exponent of its last place. -/
def Fmt.maxM (f : Fmt) : Nat := if f.oneNan then 2 ^ (f.fb + 1) - 2 else 2 ^ (f.fb + 1) - 1
def Fmt.maxQ (f : Fmt) : Int :=
  (if f.ieee then (f.bias : Int) else ((2 ^ f.eb : Nat) : Int) - 1 - f.bias) - f.fb

/-- The sign bit. -/
def Fmt.sign (f : Fmt) (neg : Bool) : Nat := b2n neg * 2 ^ (f.w - 1)

/-- Encodes a finite magnitude y × 2^q that the format holds. -/
def Fmt.pack (f : Fmt) (neg : Bool) (y : Nat) (q : Int) : Nat :=
  f.sign neg + (if y < 2 ^ f.fb then y else ((q + f.fb + f.bias).toNat) * 2 ^ f.fb + (y - 2 ^ f.fb))

/-- The largest finite value, and infinity (canonical NaN where there is none). -/
def Fmt.maxFinite (f : Fmt) (neg : Bool) : Nat := f.pack neg f.maxM f.maxQ
def Fmt.infinity (f : Fmt) (neg : Bool) : Nat := if f.ieee then f.sign neg + (2 ^ f.eb - 1) * 2 ^ f.fb else f.qnan

/-- floor(log2 (m × 2^e)) for m > 0. -/
def ilog (m : Nat) (e : Int) : Int := (Nat.log2 m : Int) + e

/-- A rounding: 0 RNE, 1 RZ, 2 RD, 3 RU (R321), or stochastic with its draw. -/
structure Rnd where
  rm : Nat
  sr : Bool := false
  draw : Nat := 0

/-- Rounds m / 2^k to an integer; `neg` is the sign of the value. -/
def Rnd.round (r : Rnd) (neg : Bool) (m k : Nat) : Nat :=
  let y := m >>> k
  let rem := m % 2 ^ k
  if rem = 0 then y
  else if r.sr then (if r.draw < rem * 2 ^ 32 / 2 ^ k then y + 1 else y)
  else match r.rm with
    | 0 => if 2 * rem > 2 ^ k ∨ (2 * rem = 2 ^ k ∧ y % 2 = 1) then y + 1 else y
    | 1 => y
    | 2 => if neg then y + 1 else y
    | _ => if neg then y else y + 1

/-- Rounds m × 2^e to a multiple of 2^q: the multiple. -/
def Rnd.roundAt (r : Rnd) (neg : Bool) (m : Nat) (e q : Int) : Nat :=
  if q ≤ e then m <<< (e - q).toNat else r.round neg m (q - e).toNat

/-- `toward_zero` of R321. -/
def Rnd.towardZero (r : Rnd) (neg : Bool) : Bool :=
  !r.sr && (r.rm == 1 || (r.rm == 2 && !neg) || (r.rm == 3 && neg))

/-- The magnitude, rounded with unbounded exponent, is below the smallest normal number (R317, R321). -/
def Fmt.tiny (f : Fmt) (r : Rnd) (neg : Bool) (m : Nat) (e : Int) : Bool :=
  let l := ilog m e
  if f.emin ≤ l then false
  else if r.sr then true
  else
    let q := l - f.fb
    let y := r.roundAt neg m e q
    decide (ilog y q < f.emin)

/-- Rounds a finite non-zero value once into a format: the bits and the flags (R317, R321). -/
def Fmt.round (f : Fmt) (r : Rnd) (sat : Bool) (neg : Bool) (m : Nat) (e : Int) : Nat × FpFlags :=
  let q0 := max (ilog m e) f.emin - f.fb
  let y0 := r.roundAt neg m e q0
  let big := y0 == 2 ^ (f.fb + 1)
  let y := if big then y0 / 2 else y0
  let q := if big then q0 + 1 else q0
  let isOver := decide (f.maxQ < q) || (q == f.maxQ && decide (f.maxM < y))
  if isOver then
    (if sat || (!f.ieee && !f.oneNan) || r.towardZero neg then f.maxFinite neg else f.infinity neg, fOF ||| fNX)
  else
    let exact := if q0 ≤ e then true else m % 2 ^ (q0 - e).toNat == 0
    (f.pack neg y q, if exact then 0 else fNX ||| flagIf (f.tiny r neg m e) fUF)

/-- Rounds any exact value as arithmetic does: NaN gives the canonical NaN, without a flag. -/
def Fmt.arith (f : Fmt) (r : Rnd) (v : FVal) : Nat × FpFlags :=
  match v with
  | .nan _ => (f.qnan, 0)
  | .inf s => (f.infinity s, 0)
  | .num s m e => if m = 0 then (f.sign s, 0) else f.round r false s m e

def FVal.isNan : FVal → Bool
  | .nan _ => true
  | _ => false
def FVal.isSnan : FVal → Bool
  | .nan s => s
  | _ => false
def FVal.isInf : FVal → Bool
  | .inf _ => true
  | _ => false
def FVal.isZero : FVal → Bool
  | .num _ m _ => m == 0
  | _ => false
def FVal.neg : FVal → Bool
  | .num s _ _ => s
  | .inf s => s
  | .nan _ => false

/-- NV for a signalling NaN among some operands. -/
def nvOf (l : List FVal) : FpFlags := flagIf (l.any FVal.isSnan) fNV

/-- The value with its sign inverted. -/
def FVal.negate : FVal → FVal
  | .num s m e => .num (!s) m e
  | .inf s => .inf (!s)
  | .nan g => .nan g

/-- The signed integer m × 2^(e - q), for q at most e. -/
def alignTo (neg : Bool) (m : Nat) (e q : Int) : Int :=
  let v : Int := (m <<< (e - q).toNat : Nat)
  if neg then -v else v

/-- The exact sum of two finite values; the sign of an exact zero is that of both, else + (− under RD). -/
def addExact (rd : Bool) (s1 : Bool) (m1 : Nat) (e1 : Int) (s2 : Bool) (m2 : Nat) (e2 : Int) : FVal :=
  if m1 = 0 ∧ m2 = 0 then .num (if s1 = s2 then s1 else rd) 0 0
  else if m1 = 0 then .num s2 m2 e2
  else if m2 = 0 then .num s1 m1 e1
  else
    let q := min e1 e2
    let v := alignTo s1 m1 e1 q + alignTo s2 m2 e2 q
    if v = 0 then .num rd 0 0 else .num (decide (v < 0)) v.natAbs q

/-- a + b exactly; the flag is NV for infinities of opposite sign. -/
def addVal (rd : Bool) (a b : FVal) : FVal × FpFlags :=
  match a, b with
  | .nan _, _ => (.nan false, 0)
  | _, .nan _ => (.nan false, 0)
  | .inf s, .inf t => if s = t then (.inf s, 0) else (.nan false, fNV)
  | .inf s, .num _ _ _ => (.inf s, 0)
  | .num _ _ _, .inf t => (.inf t, 0)
  | .num s1 m1 e1, .num s2 m2 e2 => (addExact rd s1 m1 e1 s2 m2 e2, 0)

/-- a × b exactly; NV for 0 × ∞. -/
def mulVal (a b : FVal) : FVal × FpFlags :=
  match a, b with
  | .nan _, _ => (.nan false, 0)
  | _, .nan _ => (.nan false, 0)
  | .inf s, .inf t => (.inf (s != t), 0)
  | .inf s, .num t m _ => if m = 0 then (.nan false, fNV) else (.inf (s != t), 0)
  | .num s m _, .inf t => if m = 0 then (.nan false, fNV) else (.inf (s != t), 0)
  | .num s1 m1 e1, .num s2 m2 e2 => (.num (s1 != s2) (m1 * m2) (e1 + e2), 0)

/-- Rounds the exact result of an operation on some operands. -/
def Fmt.finish (f : Fmt) (rm : Nat) (ops : List FVal) (v : FVal × FpFlags) : Nat × FpFlags :=
  let (x, g) := f.arith { rm := rm } v.1
  (x, g ||| v.2 ||| nvOf ops)

/-- `v.fadd`, `v.fmul`, `v.fma` (R361). -/
def Fmt.add (f : Fmt) (rm a b : Nat) : Nat × FpFlags :=
  let x := f.decode a
  let y := f.decode b
  f.finish rm [x, y] (addVal (rm == 2) x y)

def Fmt.sub (f : Fmt) (rm a b : Nat) : Nat × FpFlags :=
  let x := f.decode a
  let y := f.decode b
  f.finish rm [x, y] (addVal (rm == 2) x y.negate)

def Fmt.mul (f : Fmt) (rm a b : Nat) : Nat × FpFlags :=
  let x := f.decode a
  let y := f.decode b
  f.finish rm [x, y] (mulVal x y)

def Fmt.fma (f : Fmt) (rm a b c : Nat) : Nat × FpFlags :=
  let x := f.decode a
  let y := f.decode b
  let z := f.decode c
  let (p, g1) := mulVal x y
  let (r, g2) := addVal (rm == 2) p z
  f.finish rm [x, y, z] (r, g1 ||| g2)

/-- Order of two values that are no NaN: -0 below +0 when `zeros` is set. -/
def FVal.lt (zeros : Bool) (a b : FVal) : Bool :=
  match a, b with
  | .nan _, _ => false
  | _, .nan _ => false
  | .inf s, .inf t => s && !t
  | .inf s, .num _ _ _ => s
  | .num _ _ _, .inf t => !t
  | .num s1 m1 e1, .num s2 m2 e2 =>
    if m1 = 0 ∧ m2 = 0 then zeros && s1 && !s2
    else
      let q := min e1 e2
      decide (alignTo s1 m1 e1 q < alignTo s2 m2 e2 q)

/-- Equal as numbers, -0 equal to +0. -/
def FVal.eqv (a b : FVal) : Bool := !a.isNan && !b.isNan && !FVal.lt false a b && !FVal.lt false b a

/-- `v.fmin` (R361). -/
def Fmt.fmin (f : Fmt) (a b : Nat) : Nat × FpFlags :=
  let x := f.decode a
  let y := f.decode b
  (if x.isNan && y.isNan then f.qnan else if x.isNan then b else if y.isNan then a
   else if FVal.lt true y x then b else a, nvOf [x, y])

/-- `v.fmax` (R361). -/
def Fmt.fmax (f : Fmt) (a b : Nat) : Nat × FpFlags :=
  let x := f.decode a
  let y := f.decode b
  (if x.isNan && y.isNan then f.qnan else if x.isNan then b else if y.isNan then a
   else if FVal.lt true x y then b else a, nvOf [x, y])

/-- `v.fsgn`, and with it `v.fabs` and `v.fneg`: the magnitude of a with a sign bit (R361). -/
def Fmt.withSign (f : Fmt) (a : Nat) (sign : Bool) : Nat × FpFlags :=
  let x := f.decode a
  if x.isNan then (f.qnan, nvOf [x]) else (f.sign sign + a % 2 ^ (f.w - 1), 0)

/-- `v.fint` (R361). -/
def Fmt.fint (f : Fmt) (rm : Nat) (nx : Bool) (a : Nat) : Nat × FpFlags :=
  match f.decode a with
  | .nan g => (f.qnan, flagIf g fNV)
  | .inf s => (f.infinity s, 0)
  | .num s m e =>
    if 0 ≤ e ∨ m = 0 then (a, 0)
    else
      let k := (-e).toNat
      let y := { rm := rm : Rnd }.round s m k
      let (x, _) := if y = 0 then (f.sign s, 0) else f.round { rm := 0 } false s y 0
      (x, flagIf (nx && m % 2 ^ k != 0) fNX)

/-- `v.fscl` (R361): exponents beyond 4,096 round alike. -/
def Fmt.fscl (f : Fmt) (a b : Nat) : Nat × FpFlags :=
  let n := max (-4096) (min 4096 (sval f.w b))
  match f.decode a with
  | .nan g => (f.qnan, flagIf g fNV)
  | .inf s => (f.infinity s, 0)
  | .num s m e => f.arith { rm := 0 } (.num s m (e + n))

/-- `v.fcls` (R361). -/
def Fmt.fcls (f : Fmt) (a : Nat) : Nat :=
  match f.decode a with
  | .inf true => 1
  | .inf false => 128
  | .nan true => 256
  | .nan false => 512
  | .num s m e =>
    if m = 0 then (if s then 8 else 16)
    else if ilog m e < f.emin then (if s then 4 else 32)
    else (if s then 2 else 64)

/-- `v.fcmp` (R363): the predicate and its flag. -/
def Fmt.fcmp (f : Fmt) (p a b : Nat) : Bool × FpFlags :=
  let x := f.decode a
  let y := f.decode b
  let un := x.isNan || y.isNan
  let v := match p with
    | 0 => FVal.eqv x y
    | 1 => !FVal.eqv x y
    | 2 => FVal.lt false x y
    | 3 => FVal.lt false x y || FVal.eqv x y
    | 4 => FVal.lt false y x
    | 5 => FVal.lt false y x || FVal.eqv x y
    | 6 => un
    | _ => !un
  (v, if 2 ≤ p ∧ p ≤ 5 then flagIf un fNV else nvOf [x, y])

/-- The exact value of an integer. -/
def intVal (z : Int) : FVal := .num (decide (z < 0)) z.natAbs 0

/-- One field of `cvtmode` (R321). -/
structure CvtField where
  rm : Nat
  sr : Bool
  sat : Bool

def cvtField (n : Nat) : CvtField := { rm := n % 4, sr := bit n 2, sat := bit n 3 }

/-- The field of `cvtmode` that governs a destination TYPE (R321). -/
def cvtFieldOf (cm : W32) (ty : Nat) : CvtField :=
  let n := cm.toNat
  cvtField (match ty with
    | 8 => bits n 11 8
    | 9 => bits n 7 4
    | 10 => bits n 3 0
    | 12 => bits n 15 12
    | 13 => bits n 19 16
    | 14 => bits n 23 20
    | 15 => bits n 27 24
    | _ => bits n 31 28)

/-- `convert` to a floating format (R321). -/
def convertFloat (x : FVal) (f : Fmt) (c : CvtField) (draw : Nat) : Nat × FpFlags :=
  let e2m1 := !f.ieee && !f.oneNan
  match x with
  | .nan g => if e2m1 then (0, fNV) else (f.qnan, flagIf g fNV)
  | .inf s =>
    if f.ieee then (f.infinity s, 0)
    else if e2m1 || c.sat then (f.maxFinite s, fOF ||| fNX)
    else (f.qnan, fNV)
  | .num s m e => if m = 0 then (f.sign s, 0) else f.round { rm := c.rm, sr := c.sr, draw := draw } c.sat s m e

/-- `to_int` (R322): the value modulo 2^w. -/
def toInt (x : FVal) (w : Nat) (signed : Bool) (c : CvtField) (draw : Nat) : Nat × FpFlags :=
  let lo : Int := if signed then -((2 ^ (w - 1) : Nat) : Int) else 0
  let hi : Int := if signed then ((2 ^ (w - 1) : Nat) : Int) - 1 else ((2 ^ w : Nat) : Int) - 1
  match x with
  | .nan _ => (0, fNV)
  | .inf s => (wrap w (if s then lo else hi), fNV)
  | .num s m e =>
    let r : Rnd := { rm := c.rm, sr := c.sr, draw := draw }
    let mag := if 64 + 1 < ilog m e then 2 ^ 66 else r.roundAt s m e 0
    let y : Int := if s then -(mag : Int) else mag
    if y < lo ∨ hi < y then (wrap w (max lo (min hi y)), fNV)
    else (wrap w y, flagIf (decide (e < 0) && m % 2 ^ (-e).toNat != 0) fNX)

/-- `to_e8m0` (R322). -/
def toE8m0 (x : FVal) (c : CvtField) (draw : Nat) : Nat × FpFlags :=
  match x with
  | .nan _ => (0xFF, fNV)
  | .inf true => (0xFF, fNV)
  | .inf false => (if c.sat then 0xFE else 0xFF, fOF ||| fNX)
  | .num s m e =>
    if s || m == 0 then (0xFF, fNV)
    else
      let k := Nat.log2 m
      let f := (k : Int) + e
      let rem := m % 2 ^ k
      let up := if rem = 0 then false
        else if c.sr then decide (draw < rem * 2 ^ 32 / 2 ^ k)
        else c.rm == 3 || (c.rm == 0 && decide (2 ^ k ≤ 2 * rem))
      let g := if up then f + 1 else f
      if g < -127 then (0, fUF ||| fNX)
      else if 127 < g then (if c.sat then 0xFE else 0xFF, fOF ||| fNX)
      else ((g + 127).toNat, flagIf (rem != 0) fNX)

/-- The value of an E8M0 code (R313). -/
def e8m0Val (c : Nat) : FVal := if c = 0xFF then .nan false else .num false 1 ((c : Int) - 127)

/-- The exact value of an element of a TYPE (R311-R313). -/
def elemVal (ty x : Nat) : FVal :=
  if ty < 8 then intVal (if tySignedCode ty then sval (intW ty) x else (x % 2 ^ intW ty : Nat))
  else if ty = 15 then e8m0Val x
  else (fmtOf ty).decode x
where
  tySignedCode (t : Nat) : Bool := decide (4 ≤ t)
  intW (t : Nat) : Nat := 8 * 2 ^ (t % 4)

/-- Some destination value of TYPE `d` fails to hold a value of TYPE `s`: the conversion is narrowing (R321, R364). Both floating, or
integer to floating. -/
def narrows (s d : Nat) : Bool :=
  let f := fmtOf d
  if s < 8 then
    let wid := 8 * 2 ^ (s % 4)
    let p := if 4 ≤ s then wid - 1 else wid
    decide (f.fb + 1 < p) || decide (f.maxQ + f.fb < (p : Int) - (if 4 ≤ s then 0 else 1))
  else if s = 15 then
    decide (f.maxQ + f.fb < 127) || decide (-127 < f.emin - f.fb) || (!f.ieee && !f.oneNan)
  else
    let g := fmtOf s
    decide (f.fb < g.fb) || decide (f.maxQ + f.fb < g.maxQ + g.fb) || decide (g.emin - g.fb < f.emin - f.fb)
      || (g.ieee && !f.ieee) || (g.oneNan && !f.ieee && !f.oneNan)

/-- `rotl32` and `counter_gen` of R323. -/
def rotl32 (v n : Nat) : Nat := ((v <<< n) % 2 ^ 32) ||| (v >>> (32 - n))

def counterRounds : Nat → Nat → Nat → Nat → Nat → Nat → Nat → Nat
  | 0, a, _, c, _, _, _ => a ^^^ c
  | n + 1, a, b, c, d, kl, kh =>
    let ph := 0xC6A4A793 * a
    let qh := 0x8F5D3B2D * c
    counterRounds n (((qh >>> 32) ^^^ b) ^^^ kl) (rotl32 (qh % 2 ^ 32) 11) (((ph >>> 32) ^^^ d) ^^^ kh) (rotl32 (ph % 2 ^ 32) 19)
      ((kl + 0x5A3D7C19) % 2 ^ 32) ((kh + 0xB26E94C5) % 2 ^ 32)

def counterGen (key row col stream : Nat) : Nat :=
  counterRounds 6 (row % 2 ^ 32) (col % 2 ^ 32) (stream % 2 ^ 32) 0x2F1ED3C7 (bits key 31 0) (bits key 63 32)

end Sys2Proof.Machine
end

