-- ==== Sys2Proof/Machine/Operands.lean ====
section
/-! DEFINITION. Every operand form of the lane stream (R295-R299), and how a lane instruction issues: the checks that precede it, its
effect, its pending writes and the position after it (R120, R121, R258, R260, R302, R304, R352-R354). -/

namespace Sys2Proof.Machine

open Sys2Proof

/-- An FP32 encoding as the FP64 encoding of the same value; a NaN keeps its sign and its fraction (R298; log 20). -/
def widen32 (x : Nat) : Nat :=
  match (fmtOf 10).decode x with
  | .num s m e => ((fmtOf 11).arith { rm := 0 } (.num s m e)).1
  | .inf s => (fmtOf 11).infinity s
  | .nan _ => b2n (bit x 31) * 2 ^ 63 + 0x7FF * 2 ^ 52 + bits x 22 0 * 2 ^ 29

/-- A value of width `e` in every sub-element (R298). -/
def replicate (e v : Nat) : W64 := BitVec.ofNat 64 (ofElems e (List.replicate (64 / e) v))

/-- The immediate operand of an instruction of a TYPE (R298). -/
def immValue (ty : Nat) (imm : W32) : W64 :=
  if ty = 3 ∨ ty = 7 then sext64 32 imm.toNat
  else if ty = 11 then BitVec.ofNat 64 (widen32 imm.toNat)
  else replicate (tyWidth ty) imm.toNat

/-- A lane instruction as it issues: its path, its course, its fields, its active lanes. -/
structure LaneIn where
  x : Issuer
  r : Running
  o : Lane
  act : Mask
  deriving DecidableEq, Repr

/-- A mask specifier of word 1: 0x10 names `em` (R299). -/
def kSpec (n : Nat) : Nat := if n = 16 then 0 else n

/-- Active lanes: `em` with kn or its inverse, within what a trap answer left (R7, R262, R295). -/
def activeOf (x : Issuer) (o : Lane) : Mask :=
  let em := x.path.em
  let m := if o.msel = 0 then em
    else if o.mneg then em &&& ~~~(x.mask o.msel.toNat) else em &&& x.mask o.msel.toNat
  match x.path.only with
  | some k => m &&& k
  | none => m

/-- Key of a lane register or temporary (R297). -/
def vKey (spec l : Nat) : Nat := spec * 64 + l

/-- The value of a lane operand in lane `l` (R297). -/
def LaneIn.val (i : LaneIn) (ty spec l : Nat) : W64 :=
  if spec ≤ 0xF7 then Tab.get 0 i.x.strand.vregs (vKey spec l)
  else if spec ≤ 0xFB then i.r.course.params.getD (spec - 0xF8) 0
  else if spec = 0xFC then replicate (tyWidth ty) l
  else if spec = 0xFD then 0
  else if spec = 0xFE then BitVec.ofNat 64 (2 ^ 64 - 1)
  else immValue ty i.o.imm

/-- The word of a lane operand is poisoned (R263). -/
def LaneIn.bad (i : LaneIn) (spec l : Nat) : Bool :=
  if spec ≤ 0xF7 then Tab.get false i.x.strand.vpoison (vKey spec l) else false

def LaneIn.ty (i : LaneIn) : Nat := i.o.ty.toNat
def LaneIn.e (i : LaneIn) : Nat := tyWidth i.o.ty.toNat
/-- Sub-elements of a register. -/
def LaneIn.n (i : LaneIn) : Nat := 64 / i.e
def LaneIn.lanes (i : LaneIn) : List Nat := lanesOf i.act i.x.w
def LaneIn.a (i : LaneIn) (l : Nat) : W64 := i.val i.ty i.o.a.toNat l
def LaneIn.b (i : LaneIn) (l : Nat) : W64 := i.val i.ty i.o.b.toNat l
def LaneIn.c (i : LaneIn) (l : Nat) : W64 := i.val i.ty i.o.c.toNat l
/-- D as a source: what it merges into; a discarded destination reads as zero. -/
def LaneIn.dOld (i : LaneIn) (l : Nat) : W64 := i.val i.ty i.o.d.toNat l

/-- Active lanes in which some of these operands is poisoned. -/
def LaneIn.badLanes (i : LaneIn) (specs : List Nat) : Mask :=
  maskOf (i.lanes.filter (fun l => specs.any (fun p => i.bad p l)))

/-- What a lane instruction writes. -/
structure LaneOut where
  /-- Lanes of the destination register: value, poisoned. -/
  v : List (Nat × W64 × Bool) := []
  /-- The mask written, 0 for `em`: its lanes and their bits. -/
  k : Option (Nat × Mask × Mask) := none
  /-- Masks beyond the first (R425, R426). -/
  ks : List (Nat × Mask × Mask) := []
  /-- A scalar register: value, poisoned. -/
  sc : Option (Nat × W64 × Bool) := none
  flags : FpFlags := 0
  /-- It drew (R323). -/
  drew : Bool := false

/-- Writes lanes of a lane register by key. -/
def Strand.putV (st : Strand) (l : List (Nat × W64 × Bool)) : Strand :=
  { st with
    vregs := Tab.setAll 0 st.vregs (l.map (fun e => (e.1, e.2.1)))
    vpoison := Tab.setAll false st.vpoison (l.map (fun e => (e.1, e.2.2))) }

/-- Writes some lanes of a mask; `em` drops lanes that are not live (R359). -/
def Strand.putK (st : Strand) (w p k : Nat) (lanes b : Mask) : Strand :=
  if k = 0 then st.updPath p (fun q => { q with em := (q.em &&& ~~~lanes) ||| (b &&& lanes &&& st.live &&& laneAll w) })
  else st.setK w k ((Tab.get 0 st.kregs k &&& ~~~lanes) ||| (b &&& lanes))

/-- The lane writes of a destination, by key; 0xFD discards them (R297). -/
def destKeys (d : Nat) (l : List (Nat × W64 × Bool)) : List (Nat × W64 × Bool) :=
  if d ≤ 0xF7 then l.map (fun e => (vKey d e.1, e.2)) else []

/-- Every mask that an instruction writes. -/
def LaneOut.masks (out : LaneOut) : List (Nat × Mask × Mask) := (match out.k with | some k => [k] | none => []) ++ out.ks

/-- The writes of a short instruction take effect (R302, R352, R353). -/
def LaneOut.commit (out : LaneOut) (i : LaneIn) (st : Strand) : Strand :=
  let st := st.putV (destKeys i.o.d.toNat out.v)
  let st := out.masks.foldl (fun st k => st.putK i.x.w i.x.id.path k.1 k.2.1 k.2.2) st
  let st := match out.sc with
    | some (r, v, bad) => st.setS i.x.id.path r v bad
    | none => st
  { st with fpf := st.fpf ||| out.flags }

/-- A path that drew raises its SEQ by one (R323). -/
def State.drew (s : State) (id : PathId) (b : Bool) : State :=
  if b then s.updPath id (fun p => { p with seq := p.seq + 1 }) else s

/-- A short instruction's writes. -/
def LaneOut.short (out : LaneOut) (i : LaneIn) (s : State) : State :=
  let s1 := (s.updStrand i.x.id.coil i.x.id.strand (out.commit i)).drew i.x.id out.drew
  if out.masks.any (fun k => k.1 == 0) then
    (match s1.issuerAt i.x.id with
    | some y => s1.traceEm y y.path.em
    | none => s1)
  else s1

/-- A long instruction's writes wait for its completion (R120); it counts on in-flight counters `sels` and waits for `remote`. -/
def LaneOut.long (out : LaneOut) (i : LaneIn) (op : Nat) (sels remote : List Nat) (s : State) : State :=
  let g : LongOp :=
    { width := i.e, path := i.x.id.path, courseNumber := i.r.course.number, pos := i.r.pos, la := i.o.la.toNat
      vWrites := destKeys i.o.d.toNat out.v
      kWrites := out.masks.map (fun k => (if k.1 = 0 then 16 else k.1, k.2.1, k.2.2))
      sWrites := [], flags := out.flags, remote := remote, awaited := false, ended := false }
  (s.updStrand i.x.id.coil i.x.id.strand (fun st =>
    { st with longs := Dict.put st.longs op g
              flight := st.flight ++ sels.map (fun c => { sel := c, op := op, done := false }) })).push [.laneLongComplete op]

/-- Specifiers of a word-1 field that name lane registers or temporaries. -/
def fieldRegs (k : FieldKind) (x : Nat) : List Nat :=
  match k with
  | .src | .srcNoImm | .dst | .vOrT | .vreg _ => if x ≤ 0xF7 then [x] else []
  | _ => []

def fieldScalars (k : FieldKind) (x : Nat) : List Nat :=
  match k with
  | .scalar => [x]
  | _ => []

def fieldMasks (k : FieldKind) (x : Nat) : List Nat :=
  match k with
  | .mask => [kSpec x]
  | _ => []

/-- A collection over the four specifier fields. -/
def overFields (f : Form) (o : Lane) (g : FieldKind → Nat → List Nat) : List Nat :=
  g f.d o.d.toNat ++ g f.a o.a.toNat ++ g f.b o.b.toNat ++ g f.c o.c.toNat

/-- The window of a long instruction of the running course ends before the next one (R120). -/
def lookahead (x : Issuer) (r : Running) : Bool :=
  x.strand.longs.any (fun e => !e.2.ended && e.2.path == x.id.path && e.2.courseNumber == r.course.number && decide (e.2.pos + e.2.la < r.pos))

/-- A lane instruction uses a lane register, a mask or a scalar register whose pending write is awaited (R121). -/
def awaitsWrite (x : Issuer) (vs ks ss : List Nat) : Bool :=
  x.strand.longs.any (fun e =>
    let g := e.2
    g.ended && (g.kWrites.any (fun w => w.1 == 16 && g.path == x.id.path)
      || g.sWrites.any (fun w => ss.any (fun n => n != 0 && sKey x.id.path n == w.1))
      || (g.awaited && (g.vWrites.any (fun w => vs.contains (w.1 / 64)) || g.kWrites.any (fun w => ks.contains w.1)))))

/-- The instruction may not issue yet (R120, R121). -/
def laneStalls (x : Issuer) (r : Running) (vs ks ss : List Nat) : Bool := lookahead x r || awaitsWrite x vs ks ss

/-- Lane registers that an instruction writes: D, D + 1 of a ray query, A of address mode 2 (R297, R374, R417). -/
def laneWrites (op : Nat) (f : Form) (o : Lane) : List Nat :=
  (match f.d with
    | .dst => [o.d.toNat]
    | .vOrT => [o.d.toNat]
    | .vreg _ => if op = 0xC8 then [o.d.toNat, o.d.toNat + 1] else [o.d.toNat]
    | _ => [])
  ++ (if (op = 0x80 ∨ op = 0x90) ∧ bits o.sub.toNat 1 0 = 2 then [o.a.toNat] else [])

/-- Masks that a coverage or atlas instruction writes (R424-R426). -/
def laneMasks (op : Nat) (o : Lane) : List Nat :=
  if op = 0xCC then (if o.d = 0 then [] else [o.d.toNat])
  else if op = 0xCD then [o.d.toNat, o.d.toNat + 1]
  else if op = 0xD0 then [o.d.toNat]
  else []

/-- Lane registers, masks and scalar registers that a lane instruction names, by the fields of its form and `more` (R297, R299). -/
def laneUses (op : Nat) (o : Lane) (more : List Nat) : List Nat × List Nat × List Nat :=
  let f := (laneForm op o).getD {}
  (overFields f o fieldRegs ++ more, overFields f o fieldMasks ++ laneMasks op o ++ (if o.msel = 0 then [] else [o.msel.toNat]),
   overFields f o fieldScalars)

/-- Registers that follow those which the fields of a query or a coverage instruction name (R417, R424, R425). -/
def laneMore (op : Nat) (o : Lane) : List Nat :=
  let a := o.a.toNat
  if op = 0xC8 then [a + 1, a + 2, a + 3, o.d.toNat + 1] else if op = 0xCC ∨ op = 0xCD then upFrom a (o.sub.toNat + 1) else []

/-- A trap record of the lane instruction at which a course stands, with the instructions after it that have issued (R260, R261). -/
def laneTrap (x : Issuer) (r : Running) (act : Mask) (t : TrapInfo) : TrapInfo :=
  { t with stream := 1, pos := r.pos, doneAfter := (r.after.map (fun n => n - (r.pos + 1))).getD 0, ipc := r.course.addr + BitVec.ofNat 64 (12 * r.pos), spc := x.path.pc, active := act
           insn := r.words.getD r.pos 0 }

/-- A lane cause of the lanes of a mask. -/
def laneCause (c : Cause) (m : Mask) (w : Nat) : TrapInfo :=
  { cause := c, laneMask := m, lcause := Tab.setAll 0 [] ((lanesOf m w).map (fun l => (l, c.code))) }

/-- The running course of a strand goes on after the instruction that has issued (R260). -/
def Strand.advance (st : Strand) : Strand :=
  { st with running := st.running.map (fun r => { r with pos := r.after.getD (r.pos + 1), after := none }) }

/-- The number under which an instruction of a path that is parked on a translation fault counts on its in-flight counters (R153). -/
def parkedOp (p : Nat) : Nat := 2 ^ 40 + p

/-- The units of the path's parked instruction are withdrawn (R153, R258). -/
def Strand.withdrawn (p : Nat) (st : Strand) : Strand := { st with flight := st.flight.filter (fun f => f.op != parkedOp p) }

/-- An operation of a path counts one unit on an in-flight counter: it takes over one that the instruction has counted since it was parked, in that
unit's place, or it is the newest (R153). -/
def Strand.flyOne (p op : Nat) (st : Strand) (sel : Nat) : Strand :=
  let before := st.flight.takeWhile (fun f => !(f.op == parkedOp p && f.sel == sel))
  { st with flight := before ++ { sel := sel, op := op, done := false } :: (st.flight.drop before.length).drop 1 }

/-- An operation of a path counts one unit on each of some in-flight counters (R153). -/
def Strand.fly (st : Strand) (p op : Nat) (sels : List Nat) : Strand := sels.foldl (Strand.flyOne p op) st

/-- An instruction parks on a translation fault, and counts until it finishes (R153). -/
def Strand.flyParked (p : Nat) (sels : List Nat) (st : Strand) : Strand :=
  if st.flight.any (fun f => f.op == parkedOp p) then st else st.fly p (parkedOp p) sels

/-- What the issue of a lane instruction leaves: one that parks on a fault is to issue again with the lanes left to it (R137, R260, R262). -/
def settleLane (x : Issuer) (r : Running) (act : Mask) : Act → State
  | .go s1 => (s1.issued x.id).updStrand x.id.coil x.id.strand Strand.advance
  | .jump s1 _ => s1
  | .park s1 k => (match k with
    | .fault _ _ _ _ _ => s1.count x.id.coil
    | _ => s1.issued x.id).updPath x.id (PathState.parkLane k)
  | .wait s1 => s1
  | .trap s1 t => ((s1.issued x.id).updStrand x.id.coil x.id.strand (Strand.withdrawn x.id.path)).takeTrap x (laneTrap x r act t)

/-- Lane instructions that access memory: loads, stores, atomics, copies and FIFO accesses (R262, R295). -/
def laneMemory (op : Nat) : Bool := [0x80, 0x90, 0xA0, 0xA1, 0xB0, 0xB1, 0xB2].contains op

/-- The checks of every lane instruction, then its own effect (R103, R108, R120, R121, R257, R304). `legal` holds what depends on W;
`more` lists registers that no field names by itself. -/
def laneAct (s : State) (x : Issuer) (r : Running) (op : Nat) (o : Lane) (legal : LaneIn → Option Cause)
    (more : LaneIn → List Nat) (body : LaneIn → Act) : Act :=
  let i : LaneIn := { x := x, r := r, o := o, act := activeOf x o }
  let f := (laneForm op o).getD {}
  let (vs, ks, ss) := laneUses op o (more i)
  match legal i with
  | some c => .trap s { cause := c, memory := laneMemory op }
  | none =>
    if f.roles &&& x.role = 0 then .trap s { cause := .roleViolation, memory := laneMemory op }
    else if vs.any (fun v => decide (v ≤ 0xEF) && decide (x.desc.vregs ≤ v)) || (more i).any (fun v => decide (x.desc.vregs ≤ v))
        || ss.any (fun n => decide (x.desc.sregs ≤ n)) then
      .trap s { cause := .regUnreserved, memory := laneMemory op }
    else if laneStalls x r vs ks ss || (laneWrites op f o).any (s.heldRegs x.id.coil x.id.strand x.w).contains then .wait s
    else body i

/-- A lane instruction issues: refused only where no path has the turn, or no course runs. -/
def laneIssue (s : State) (op : Nat) (o : Lane) (legal : LaneIn → Option Cause) (more : LaneIn → List Nat)
    (body : LaneIn → Act) : Out :=
  match s.issuer with
  | none => .refused .noIssuer
  | some x => match x.strand.running with
    | none => .refused .noIssuer
    | some r => .next (settleLane x r (activeOf x o) (laneAct s x r op o legal more body))

/-- The writes of a compute instruction, at once or pending (R302). -/
def laneDone (s : State) (op : Nat) (o : Lane) (i : LaneIn) (out : LaneOut) : Act :=
  if (laneForm op o).any (fun f => f.lat == .long) then
    let (n, s1) := s.fresh
    .go (out.long i n [] [] s1)
  else .go (out.short i s)

/-- A compute instruction: lanes that consume poison, then its writes, at once or pending (R302, R352-R354). -/
def laneCompute (s : State) (op : Nat) (o : Lane) (legal : LaneIn → Option Cause) (body : LaneIn → Mask × LaneOut) : Out :=
  laneIssue s op o legal (fun _ => []) (fun i =>
    let (bad, out) := body i
    if bad ≠ 0 then .trap s (laneCause .poison bad i.x.w) else laneDone s op o i out)

/-- No condition beyond the encoding's. -/
def always (_ : LaneIn) : Option Cause := none

/-- `ILLEGAL_INSTRUCTION` unless a condition on W holds (R367, R368). -/
def illegalUnless (ok : LaneIn → Bool) (i : LaneIn) : Option Cause := if ok i then none else some .illegalInstruction

/-- Each sub-element of D receives a function of those of A, B and C, with its flags (R296). -/
def elementwise (specs : List Nat) (f : Nat → Nat → Nat → Nat × FpFlags) (i : LaneIn) : Mask × LaneOut :=
  let e := i.e
  let res := i.lanes.map (fun l =>
    let a := i.a l
    let b := i.b l
    let c := i.c l
    (l, (upFrom 0 i.n).map (fun j => f (elem e j a) (elem e j b) (elem e j c))))
  (i.badLanes specs,
   { v := res.map (fun r => (r.1, BitVec.ofNat 64 (ofElems e (r.2.map Prod.fst)), false))
     flags := res.foldl (fun g r => r.2.foldl (fun g p => g ||| p.2) g) 0 })

/-- An elementwise integer form: no flag. -/
def intForm (s : State) (op : Nat) (o : Lane) (specs : List Byte) (f : Nat → Nat → Nat → Nat) : Out :=
  laneCompute s op o always (elementwise (specs.map BitVec.toNat) (fun a b c => (f a b c, 0)))

/-- An elementwise floating form. -/
def floatForm (s : State) (op : Nat) (o : Lane) (specs : List Byte) (f : Fmt → Nat → Nat → Nat → Nat × FpFlags) : Out :=
  laneCompute s op o always (elementwise (specs.map BitVec.toNat) (f (fmtOf o.ty.toNat)))

/-- The value of an element by the signedness of its TYPE (R311). -/
def ival (ty x : Nat) : Int := if tySigned ty then sval (tyWidth ty) x else (x : Int)

/-- Range of an integer TYPE. -/
def tyMin (ty : Nat) : Int := if tySigned ty then -((2 ^ (tyWidth ty - 1) : Nat) : Int) else 0
def tyMax (ty : Nat) : Int :=
  if tySigned ty then ((2 ^ (tyWidth ty - 1) : Nat) : Int) - 1 else ((2 ^ tyWidth ty : Nat) : Int) - 1

/-- A compare into a mask: RED and IDX of MOD select the deciding elements (R358). -/
def compareForm (s : State) (op : Nat) (o : Lane) (f : Nat → Nat → Bool × FpFlags) : Out :=
  laneCompute s op o always (fun i =>
    let e := i.e
    let red := bits o.mod.toNat 4 3
    let idx := bits o.mod.toNat 2 0
    let res := i.lanes.map (fun l =>
      let a := i.a l
      let b := i.b l
      let js := if red = 0 then [idx] else upFrom 0 i.n
      let r := js.map (fun j => f (elem e j a) (elem e j b))
      (l, if red = 2 then r.all Prod.fst else r.any Prod.fst, r.foldl (fun g p => g ||| p.2) 0))
    (i.badLanes [o.a.toNat, o.b.toNat],
     { k := some (kSpec o.d.toNat, i.act, maskOf ((res.filter (fun r => r.2.1)).map (fun r => r.1)))
       flags := res.foldl (fun g r => g ||| r.2.2) 0 }))

end Sys2Proof.Machine
end

