-- ==== Sys2Proof/Machine/LaneCvt.lean ====
section
/-! DEFINITION. Lane conversions (R321-R323, R364, R365). -/

namespace Sys2Proof.Machine

open Sys2Proof

/-- The draw of a destination element (R323): key, row, column and stream of the lane instruction. -/
def LaneIn.draw (i : LaneIn) (l j : Nat) : Nat :=
  let c := i.x.coil
  let d := i.x.desc
  counterGen c.bolt ((Tab.get 0 i.x.strand.tids l).toNat + 4096 * j) i.x.path.seq.toNat (c.x + d.gridX * (c.y + d.gridY * c.z))

/-- A finite value that is not zero. -/
def FVal.finite (v : FVal) : Bool := !v.isNan && !v.isInf && !v.isZero

/-- What one conversion gives: the element, its flags, whether it drew. -/
structure Cvt where
  v : Nat
  f : FpFlags
  drew : Bool
  deriving DecidableEq, Repr

/-- One element from source TYPE `s` to destination TYPE `t` (R364). -/
def convertElem (cm : W32) (s t x draw : Nat) : Cvt :=
  let v := elemVal s x
  if tyInt s && tyInt t then
    let z := ival s x
    let sat := (cvtFieldOf cm t).sat
    { v := if sat then wrap (tyWidth t) (max (tyMin t) (min (tyMax t) z)) else wrap (tyWidth t) z, f := 0, drew := false }
  else if tyInt t then
    let c := cvtFieldOf cm t
    let (y, f) := toInt v (tyWidth t) (tySigned t) c draw
    { v := y, f := f, drew := c.sr && v.finite }
  else if t = 15 then
    let c := cvtFieldOf cm t
    let (y, f) := toE8m0 v c draw
    { v := y, f := f, drew := c.sr && v.finite && !v.neg }
  else if t != 11 && narrows s t then
    let c := cvtFieldOf cm t
    let (y, f) := convertFloat v (fmtOf t) c draw
    { v := y, f := f, drew := c.sr && v.finite }
  else
    let (y, f) := convertFloat v (fmtOf t) (cvtField 0) 0
    { v := y, f := f, drew := false }

/-- A conversion of `n` elements of width `es` from element `from0` of A into elements of width `ed` from element `to0` of `old` (R364). -/
def convertInto (old : W64) (ed to0 : Nat) (l : List Nat) : W64 :=
  (l.foldl (fun (w, j) v => (setElem ed j w v, j + 1)) (old, to0)).1

/-- The conversions of every active lane: `elems` gives a lane's converted elements, `old` what they are written into. -/
def convertForm (i : LaneIn) (specs : List Nat) (keeps : Bool) (to0 : Nat) (elems : Nat → List Cvt) : Mask × LaneOut :=
  let ed := tyWidth i.ty
  let res := i.lanes.map (fun l => (l, elems l))
  (i.badLanes specs,
   { v := res.map (fun r => (r.1, convertInto (if keeps then i.dOld r.1 else 0) ed to0 (r.2.map Cvt.v), keeps && i.bad i.o.d.toNat r.1))
     flags := res.foldl (fun g r => r.2.foldl (fun g c => g ||| c.f) g) 0
     drew := res.any (fun r => r.2.any Cvt.drew) })

/-- Source TYPE in MOD[3:0] (R364). -/
def srcTy (o : Lane) : Nat := bits o.mod.toNat 3 0

/-- Elements of A converted in one lane: `n` of them from `from0`, into destination elements from `to0`. -/
def cvtElems (i : LaneIn) (n from0 to0 l : Nat) : List Cvt :=
  let s := srcTy i.o
  let a := i.val s i.o.a.toNat l
  (upFrom 0 n).map (fun j => convertElem i.x.strand.cvt s i.ty (elem (tyWidth s) (from0 + j) a) (i.draw l (to0 + j)))

/-- `v.cvt` (R364). -/
def execVCvt (o : Lane) (s : State) : Out :=
  laneCompute s 0x48 o always (fun i => convertForm i [o.a.toNat] false 0 (cvtElems i (cvtCount (tyWidth (srcTy o)) i.e) 0 0))

/-- `v.pack` (R364). -/
def execVPack (o : Lane) (s : State) : Out :=
  laneCompute s 0x49 o always (fun i =>
    let n := cvtCount (tyWidth (srcTy o)) i.e
    convertForm i [o.a.toNat] true (o.sub.toNat * n) (cvtElems i n 0 (o.sub.toNat * n)))

/-- `v.unpack` (R364). -/
def execVUnpack (o : Lane) (s : State) : Out :=
  laneCompute s 0x4A o always (fun i =>
    let n := cvtCount (tyWidth (srcTy o)) i.e
    convertForm i [o.a.toNat] false 0 (cvtElems i n (o.sub.toNat * n) 0))

/-- A value times 2^k. -/
def FVal.scale (v : FVal) (k : Int) : FVal :=
  match v with
  | .num s m e => .num s m (e + k)
  | w => w

/-- One element under a block scale (R365). -/
def scaleElem (cm : W32) (s t : Nat) (down : Bool) (x code draw : Nat) : Cvt :=
  let c := cvtFieldOf cm t
  if code = 0xFF then { v := (convertFloat (.nan false) (fmtOf t) c 0).1, f := 0, drew := false }
  else
    let k : Int := (code : Int) - 127
    let v := (elemVal s x).scale (if down then -k else k)
    let (y, f) := convertFloat v (fmtOf t) c draw
    { v := y, f := f, drew := c.sr && v.finite }

/-- `v.bscl` (R365). -/
def execVBscl (o : Lane) (s : State) : Out :=
  laneCompute s 0x4B o always (fun i =>
    let src := srcTy o
    let n := cvtCount (tyWidth src) i.e
    let p := o.sub.toNat
    let down := bit o.mod.toNat 4
    let elems (l : Nat) : List Cvt :=
      let a := i.val src o.a.toNat l
      let code := elem 8 (bits o.imm.toNat 2 0) (i.b l)
      (upFrom 0 n).map (fun j =>
        let (si, di) := if down then (j, p * n + j) else (p * n + j, j)
        scaleElem i.x.strand.cvt src i.ty down (elem (tyWidth src) si a) code (i.draw l di))
    convertForm i [o.a.toNat, o.b.toNat] down (if down then p * n else 0) elems)

end Sys2Proof.Machine
end

