-- ==== Sys2Proof/Machine/ScalarMem.lean ====
section
/-! DEFINITION. Scalar loads, stores and atomics (R335, R378, R380, R451). -/

namespace Sys2Proof.Machine

open Sys2Proof

/-- A scalar access leaves the device: the path stands at its instruction until the answer comes (R335, R48). -/
def scalarRemote (s : State) (x : Issuer) (i : Instr) (r : RemoteReq) (a : RemoteAcc) (acq : Option Nat := none) : Act :=
  let (op, s1) := (s.issuedS x.id).fresh
  let (ids, s2) := s1.sendAll { r with op := op } [a]
  let g : LongOp := { path := x.id.path, courseNumber := 0, pos := 255, la := 0, vWrites := [], kWrites := [], sWrites := []
                      flags := 0, remote := ids, awaited := false, ended := false, insn := insnWords i, ott := 1, acq := acq }
  .wait (s2.updStrand x.id.coil x.id.strand (fun st => { st with longs := Dict.put st.longs op g }))

/-- Key that a scalar destination fills in a request. -/
def scalarDst (x : Issuer) (d : BitVec 6) : Nat := if d = 0 then 2 ^ 20 else 2 ^ 16 + sKey x.id.path d.toNat

/-- A load of `n` bytes (R335). -/
def scalarLoad (s : State) (i : Instr) (d a : BitVec 6) (imm : BitVec 14) (n : Nat) : Out :=
  scalar s i { reads := [a.toNat], writes := [d.toNat], courses := true, memory := true } (fun x =>
    let ea := x.s a + immS imm
    scalarAccess s x [{ kind := .read, va := ea.toNat, size := n }] (fun s1 ps =>
      match ps with
      | p :: _ =>
        if p.isRemote then
          scalarRemote s1 x i { p := x.id, op := 0, parts := [], kind := .read, size := n }
            { lane := 0, place := p, va := ea, dst := scalarDst x d, data := [] }
        else
          let (l, bad) := s1.load x.view (some x.coil) p n
          .go ((s1.afterLoad p n).setS x.id d.toNat (BitVec.ofNat 64 (ofBytes l)) bad)
      | [] => .wait s1))

/-- A store of `n` bytes: its data register moves its poison (R330, R335). -/
def scalarStore (s : State) (i : Instr) (d a : BitVec 6) (imm : BitVec 14) (n : Nat) : Out :=
  scalar s i { reads := [a.toNat], moves := [d.toNat], courses := true, memory := true } (fun x =>
    let ea := x.s a + immS imm
    let l := toBytes n (x.s d).toNat
    scalarAccess s x [{ kind := .write, va := ea.toNat, size := n }] (fun s1 ps =>
      match ps with
      | p :: _ =>
        if p.isRemote then
          scalarRemote s1 x i { p := x.id, op := 0, parts := [], kind := .write, size := n, bad := b2n (x.sBad d.toNat) }
            { lane := 0, place := p, va := ea, dst := 2 ^ 20, data := l }
        else .go (s1.store x.view x.id.coil x.id.strand ea.toNat p l (x.sBad d.toNat))
      | [] => .wait s1))

/-- `ld.n8` (R335). -/
def execLdN8 (d a : BitVec 6) (imm : BitVec 14) (s : State) : Out := scalarLoad s (.ldN8 d a imm) d a imm 1
/-- `ld.n16` (R335). -/
def execLdN16 (d a : BitVec 6) (imm : BitVec 14) (s : State) : Out := scalarLoad s (.ldN16 d a imm) d a imm 2
/-- `ld.n32` (R335). -/
def execLdN32 (d a : BitVec 6) (imm : BitVec 14) (s : State) : Out := scalarLoad s (.ldN32 d a imm) d a imm 4
/-- `ld.b64` (R335). -/
def execLdB64 (d a : BitVec 6) (imm : BitVec 14) (s : State) : Out := scalarLoad s (.ldB64 d a imm) d a imm 8
/-- `st.b8` (R335). -/
def execStB8 (d a : BitVec 6) (imm : BitVec 14) (s : State) : Out := scalarStore s (.stB8 d a imm) d a imm 1
/-- `st.b16` (R335). -/
def execStB16 (d a : BitVec 6) (imm : BitVec 14) (s : State) : Out := scalarStore s (.stB16 d a imm) d a imm 2
/-- `st.b32` (R335). -/
def execStB32 (d a : BitVec 6) (imm : BitVec 14) (s : State) : Out := scalarStore s (.stB32 d a imm) d a imm 4
/-- `st.b64` (R335). -/
def execStB64 (d a : BitVec 6) (imm : BitVec 14) (s : State) : Out := scalarStore s (.stB64 d a imm) d a imm 8

/-- The operation of a scalar atomic: OP, and whether it compares signed values (R380). -/
def atomOp (p : Nat) : AtomicOp :=
  match p with
  | 0 => .add | 1 => .and | 2 => .or | 3 => .xor | 4 => .swap | 5 => .cas | 6 => .min | _ => .max

/-- `atomic_int` of R378 on elements of TYPE `ty`. -/
def atomicInt (op : AtomicOp) (ty x c d : Nat) : Nat :=
  let e := tyWidth ty
  let v (z : Nat) : Int := if tySigned ty then sval e z else (z : Int)
  match op with
  | .add => (x + c) % 2 ^ e
  | .min => if v x ≤ v c then x else c
  | .max => if v x ≤ v c then c else x
  | .and => x &&& c
  | .or => x ||| c
  | .xor => x ^^^ c
  | .swap => c
  | .cas => if x = d then c else x
  | _ => x

/-- The new element and the flags of any atomic (R378, R379). -/
def atomicNew (op : AtomicOp) (ty x c d : Nat) : Nat × FpFlags :=
  match op with
  | .fadd => (fmtOf ty).add 0 x c
  | .fmin => (fmtOf ty).fmin x c
  | .fmax => (fmtOf ty).fmax x c
  | _ => (atomicInt op ty x c d, 0)

/-- PCI Express has this atomic (R56, R143). -/
def pcieHas (op : AtomicOp) (size : Nat) : Bool := (op == .add || op == .swap || op == .cas) && (size == 4 || size == 8)

/-- `atom` (R380). -/
def execAtom (d a b : BitVec 6) (p sc : BitVec 3) (q : BitVec 2) (s : State) : Out :=
  let op := atomOp p.toNat
  let i : Instr := .atom d a b p sc q
  scalar s i { reads := [a.toNat, b.toNat] ++ (if op = .cas then [d.toNat] else []), writes := [d.toNat], courses := true, memory := true } (fun x =>
    let ea := x.s a
    let ty := if op = .min ∨ op = .max then 7 else 3
    let ord := q.toNat
    scalarAccess s x [{ kind := .atomic, va := ea.toNat, size := 8, pcieAtomic := pcieHas op 8, l2 := x.atL2 sc.toNat }] (acq := if ord % 2 = 1 then some sc.toNat else none)
      (rel := if 2 ≤ ord then some sc.toNat else none) (fun s1 ps =>
      match ps with
      | pl :: _ =>
        if pl.isRemote then
          let cmp := if op = .cas then toBytes 8 (x.s d).toNat else []
          scalarRemote s1 x i { p := x.id, op := 0, parts := [], kind := .atomic, size := 8, atom := some (op, ty) }
            { lane := 0, place := pl, va := ea, dst := scalarDst x d, data := toBytes 8 (x.s b).toNat ++ cmp } (if ord % 2 = 1 then some (pl.scope sc.toNat) else none)
        else
          let (old, bad, _, s2) := s1.rmw x.view x.id.coil x.id.strand ea.toNat pl 8
            (fun v => atomicNew op ty v (x.s b).toNat (x.s d).toNat)
          .go (s2.setS x.id d.toNat (BitVec.ofNat 64 old) bad)
      | [] => .wait s1))

end Sys2Proof.Machine
end

