-- ==== Sys2Proof/Machine/Flow.lean ====
section
/-! DEFINITION. Branches, mask instructions, course issue, `nop` and `trap` of the scalar stream (R336-R340, R347, R349). -/

namespace Sys2Proof.Machine

open Sys2Proof

/-- Target of an SB instruction (R291). -/
def branchTarget (pc : W64) (off : BitVec 21) : W64 := pc + off.signExtend 64 <<< 2

/-- A branch to a target that is not canonical traps before any effect (R336). -/
def branchTo (x : Issuer) (s : State) (off : BitVec 21) (body : W64 → Act) : Act :=
  let t := branchTarget x.path.pc off
  if canonical t then body t else .trap s { cause := .addrNoncanonical }

/-- `b` (R292, R336); a `b` without condition writes no packet (R437). -/
def execB (c : BitVec 5) (off : BitVec 21) (s : State) : Out :=
  scalar s (.b c off) {} (fun x => branchTo x s off (fun t =>
    let taken := condHolds c.toNat x.path.scc
    let s1 := if c = 0 then s else s.traceBranch x taken
    if taken then .jump s1 t else .go s1))

/-- A branch on a mask (R336). -/
def branchMask (s : State) (i : Instr) (k : BitVec 4) (off : BitVec 21) (nonzero : Bool) : Out :=
  scalar s i { masks := [k.toNat], courses := true } (fun x => branchTo x s off (fun t =>
    let taken := (x.mask k.toNat != 0) == nonzero
    let s1 := s.traceBranch x taken
    if taken then .jump s1 t else .go s1))

/-- `bz` (R336). -/
def execBz (k : BitVec 4) (off : BitVec 21) (s : State) : Out := branchMask s (.bz k off) k off false
/-- `bnz` (R336). -/
def execBnz (k : BitVec 4) (off : BitVec 21) (s : State) : Out := branchMask s (.bnz k off) k off true

/-- `call`: s63 = PC + 4 (R336). -/
def execCall (off : BitVec 21) (s : State) : Out :=
  scalar s (.call off) { writes := [63] } (fun x => branchTo x s off (fun t => .jump (s.setS x.id 63 (x.path.pc + 4) false) t))

/-- `jalr`: the target is taken from sa before sd is written (R337). -/
def execJalr (d a : BitVec 6) (imm : BitVec 14) (s : State) : Out :=
  scalar s (.jalr d a imm) { reads := [a.toNat], writes := [d.toNat] } (fun x =>
    let t := (x.s a + immS imm) &&& ~~~3
    .jump ((s.setS x.id d.toNat (x.path.pc + 4) false).traceIndirect x t) t)

/-- Writes a mask of the path, and its EM packet when it is `em` (R278, R338). -/
def putMask (s : State) (x : Issuer) (d : BitVec 4) (v : Mask) : State :=
  let s1 := s.setMask x d.toNat v
  if d = 0 then s1.traceEm x (v &&& laneAll x.w &&& x.strand.live) else s1

/-- Mask logic (R338). -/
def maskOp (s : State) (i : Instr) (d a b : BitVec 4) (f : Mask → Mask → Mask) : Out :=
  scalar s i { masks := [d.toNat, a.toNat, b.toNat], courses := true } (fun x =>
    .go (putMask s x d (f (x.mask a.toNat) (x.mask b.toNat))))

/-- `kand` (R338). -/
def execKand (d a b : BitVec 4) (s : State) : Out := maskOp s (.kand d a b) d a b (fun a b => a &&& b)
/-- `kor` (R338). -/
def execKor (d a b : BitVec 4) (s : State) : Out := maskOp s (.kor d a b) d a b (fun a b => a ||| b)
/-- `kxor` (R338). -/
def execKxor (d a b : BitVec 4) (s : State) : Out := maskOp s (.kxor d a b) d a b (fun a b => a ^^^ b)
/-- `kandn` (R338). -/
def execKandn (d a b : BitVec 4) (s : State) : Out := maskOp s (.kandn d a b) d a b (fun a b => a &&& ~~~b)
/-- `knot` (R338). -/
def execKnot (d a : BitVec 4) (s : State) : Out := maskOp s (.knot d a) d a a (fun a _ => ~~~a)
/-- `kmov` (R338). -/
def execKmov (d a : BitVec 4) (s : State) : Out := maskOp s (.kmov d a) d a a (fun a _ => a)

/-- `kfroms` (R339). -/
def execKfroms (d : BitVec 4) (n : BitVec 6) (s : State) : Out :=
  scalar s (.kfroms d n) { reads := [n.toNat], masks := [d.toNat], courses := true } (fun x => .go (putMask s x d (x.s n)))

/-- A function of a mask into a scalar register (R339). -/
def maskToScalar (s : State) (i : Instr) (a : BitVec 4) (n : BitVec 6) (f : Mask → W64) : Out :=
  scalar s i { writes := [n.toNat], masks := [a.toNat], courses := true } (fun x => .go (s.setS x.id n.toNat (f (x.mask a.toNat)) false))

/-- `ktos` (R339). -/
def execKtos (a : BitVec 4) (n : BitVec 6) (s : State) : Out := maskToScalar s (.ktos a n) a n (fun m => m)
/-- `kpopc` (R339). -/
def execKpopc (a : BitVec 4) (n : BitVec 6) (s : State) : Out := maskToScalar s (.kpopc a n) a n opPopc
/-- `kffs`: 64 for an empty mask (R339). -/
def execKffs (a : BitVec 4) (n : BitVec 6) (s : State) : Out := maskToScalar s (.kffs a n) a n opCtz

/-- `ktest` (R339). -/
def execKtest (a b : BitVec 4) (s : State) : Out :=
  scalar s (.ktest a b) { masks := [a.toNat, b.toNat], courses := true } (fun x =>
    .go (s.setScc x.id (sccOf (x.mask a.toNat &&& x.mask b.toNat == 0) false false false)))

/-- `crs`: appends a course, and blocks while the queue of four is full (R119, R340). -/
def execCrs (a : BitVec 6) (n : BitVec 4) (off : W32) (s : State) : Out :=
  let regs := upFrom a.toNat n.toNat
  scalar s (.crs a n off) { reads := regs } (fun x =>
    if 4 ≤ x.strand.queue.length + b2n x.strand.running.isSome then .wait s
    else
      let c : Course := { addr := x.desc.lcode + off.zeroExtend 64, params := (upFrom 0 4).map (fun j => if j < n.toNat then x.sAt (a.toNat + j) else 0)
                          path := x.id.path, number := x.strand.courses }
      let s1 := s.updStrand x.id.coil x.id.strand (fun st => { st with queue := st.queue ++ [c], courses := st.courses + 1 })
      .go (s1.traceCourse x off.toNat))

/-- `nop` (R347). -/
def execNop (s : State) : Out := scalar s .nop {} (fun _ => .go s)

/-- `trap` (R349). -/
def execTrap (n : BitVec 6) (s : State) : Out := scalar s (.trap n) {} (fun _ => .trap s { cause := .trapInsn })

end Sys2Proof.Machine
end

