-- ==== Sys2Proof/Machine/Split.lean ====
section
/-! DEFINITION. Barrier words, the end of strands, splits, joins and ends of paths (R122-R126, R341, R348, R385, R387). -/

namespace Sys2Proof.Machine

open Sys2Proof

/-- A barrier word by its fields (R385). -/
def barWord (phase expect count : Nat) : W64 := BitVec.ofNat 64 (phase % 2 ^ 32 * 2 ^ 32 + expect * 2 ^ 24 + count * 2 ^ 16)

def Coil.barExpect (c : Coil) (b : Nat) : Nat := bits (Tab.get 0 c.bars b).toNat 30 24
def Coil.barCount (c : Coil) (b : Nat) : Nat := bits (Tab.get 0 c.bars b).toNat 22 16
def Coil.armed (c : Coil) (b : Nat) : Bool := Tab.get false c.barArmed b

/-- Raises the progress count of a strand (R117). -/
def Strand.progressBy (n : Nat) (st : Strand) : Strand := { st with progress := st.progress + n }

/-- A phase completes: PHASE rises, COUNT and the arrival bits clear (R387). -/
def Coil.completePhase (c : Coil) (b : Nat) : Coil :=
  let arr := Tab.get 0 c.barArrived b
  { c with
    bars := Tab.set 0 c.bars b (barWord (c.phase b + 1) (c.barExpect b) 0)
    barArrived := Tab.set 0 c.barArrived b 0
    strands := (upFrom 0 c.strands.length).foldl (fun l i => if arr.getLsbD i then l.modify i (Strand.progressBy 8) else l) c.strands }

/-- Arrivals that complete a phase (R385). -/
def Coil.barNeed (c : Coil) (b : Nat) : Nat := if c.barExpect b = 0 then c.liveStrands.length else c.barExpect b

/-- Completes a phase that has all its arrivals (R387). -/
def Coil.barSettle (c : Coil) (b : Nat) : Coil :=
  if c.armed b && c.barCount b != 0 && decide (c.barNeed b ≤ c.barCount b) then c.completePhase b else c

/-- A strand arrives at the current phase, once (R387). -/
def Coil.arrive (c : Coil) (b i : Nat) : Coil :=
  let arr := Tab.get 0 c.barArrived b
  if arr.getLsbD i then c
  else
    ({ c with bars := Tab.set 0 c.bars b (barWord (c.phase b) (c.barExpect b) (c.barCount b + 1))
              barArrived := Tab.set 0 c.barArrived b (arr ||| maskOf [i]) } : Coil).barSettle b

/-- A strand ends: its transaction is abandoned, its arrivals are no longer awaited, and its coil may end (R126, R348, R387). -/
def State.endStrand (s : State) (k i : Nat) : State :=
  match s.strand? k i with
  | none => s
  | some st =>
    let s1 := match st.txn with | some t => s.dropTents t | none => s
    let s2 := s1.updStrand k i (fun st => { st with ended := true, txn := none, queue := [], running := none, live := 0, entries := [] })
    let s3 := s2.updCoil k (fun c => (upFrom 0 16).foldl Coil.barSettle c)
    (s3.strandAbsent k i).settleCoil k

/-- Live children of a path. -/
def Strand.hasChildren (st : Strand) (p : Nat) : Bool := st.entries.any (fun e => e.2.parent == p)

/-- The lowest free split-table entry (R122). -/
def Strand.freeEntry (st : Strand) (splits : Nat) : Option Nat :=
  (upFrom 0 splits).find? (fun e => (Dict.find? st.entries e).isNone)

/-- The entry that a split writes, with its copy of s48 to s63 (R122). -/
def Strand.addEntry (st : Strand) (p e : Nat) (q : PathState) : Strand :=
  (upFrom 48 16).foldl (fun st r => st.putS (64 * (e + 1) + r) (st.getS p r) (st.badS p r)) { st with entries := Dict.put st.entries e q }

/-- A split that takes an entry; none while no entry is free (R122). -/
def State.takeSplit (s : State) (x : Issuer) (k : Mask) (target : W64) : Option State :=
  let n := k &&& x.path.em
  let m := x.path.em &&& ~~~k
  (x.strand.freeEntry x.desc.splits).map (fun e =>
    let q : PathState :=
      { pc := target, em := n, scc := x.path.scc, seq := x.path.seq, parent := x.id.path, splitSince := false, park := .running
        only := none, bpPass := false, bpCourse := false }
    let s1 := s.updStrand x.id.coil x.id.strand (fun st => st.addEntry x.id.path e q)
    let s2 := (s1.updPath x.id (fun p => { p with em := m, splitSince := true })).traceSplit x e n
    match s2.issuerAt { x.id with path := e } with
    | some y => s2.traceSync y 4
    | none => s2)

/-- A path ends: its lanes leave the live-lane mask; an entry is freed, and with the root path the strand ends (R126). -/
def State.endPath (s : State) (x : Issuer) : State :=
  let s1 := (s.traceEnd x).updStrand x.id.coil x.id.strand (fun st =>
    { st with live := st.live &&& ~~~x.path.em, entries := if x.isRoot then st.entries else Dict.del st.entries x.id.path })
  if x.isRoot then s1.endStrand x.id.coil x.id.strand else s1

/-- A child parked at a join is fused into its parent, which is parked there too (R124). -/
def State.fuse (s : State) (x : Issuer) : State :=
  let par := x.path.parent
  let s1 := s.updStrand x.id.coil x.id.strand (fun st =>
    let st := { st with entries := Dict.del st.entries x.id.path }
    st.updPath par (fun q => { q with em := q.em ||| x.path.em, seq := if q.seq.toNat < x.path.seq.toNat then x.path.seq else q.seq }))
  match s1.issuerAt { x.id with path := par } with
  | some y => s1.traceJoin y true x.id.path
  | none => s1

/-- What a path parked at a join, at an end or at a split may now do (R122, R124, R126); none when nothing. -/
def State.splitStep (s : State) (x : Issuer) : Option State :=
  match x.path.park with
  | .join addr label =>
    if x.strand.hasChildren x.id.path then none
    else
      let fuses := !x.isRoot && (match x.strand.path? x.path.parent with
        | some q => (match q.park with | .join a _ => a == addr | _ => false)
        | none => false)
      if fuses then some (s.fuse x)
      else if x.isRoot || x.path.splitSince then
        some ((s.updPath x.id (fun p => { p with park := .running, splitSince := false, pc := label })).traceJoin x false 0xFF)
      else none
  | .ending => if x.strand.hasChildren x.id.path then none else some (s.endPath x)
  | .splitWait k target =>
    (s.takeSplit x k target).map (fun s => s.updPath x.id (fun p => { p with park := .running, pc := p.pc + 4 }))
  | _ => none

/-- The first of some paths of a strand that can go on does so. -/
def State.splitAny (s : State) (k i : Nat) : List Nat → Option State
  | [] => none
  | p :: r => match (s.issuerAt { coil := k, strand := i, path := p }).bind s.splitStep with
    | some s1 => some s1
    | none => State.splitAny s k i r

/-- Every path is parked at a join, an end or a split that waits for an entry (R126). -/
def Strand.stuck (st : Strand) : Bool :=
  !st.ended && st.livePaths.all (fun p => match st.path? p with
    | some q => (match q.park with | .join _ _ => true | .ending => true | .splitWait _ _ => true | _ => false)
    | none => false)

/-- The instruction words at the scalar PC of a path, as they lie in memory (R261). -/
def State.wordsAt (s : State) (x : Issuer) : W96 :=
  match s.translate (.hamper x.hamper) x.asid x.path.pc.toNat .execute with
  | (.ok pa, _) => let w := s.peekN pa 4; BitVec.ofNat 96 (if isSx w then s.peekN pa 8 else w)
  | _ => 0

/-- Joins, ends and splits of a strand proceed as far as they can; where none can follow, the strand traps `SPLIT_DEADLOCK` at its root
path (R124, R126). -/
def State.settleSplits (s : State) (k i : Nat) : Nat → State
  | 0 => s
  | fuel + 1 =>
    match s.strand? k i with
    | none => s
    | some st =>
      match s.splitAny k i st.livePaths with
      | some s1 => State.settleSplits s1 k i fuel
      | none =>
        if st.stuck then
          match s.issuerAt { coil := k, strand := i, path := 15 } with
          | some x => s.takeTrap x (scalarTrap x (s.wordsAt x) { cause := .splitDeadlock, active := x.path.em })
          | none => s
        else s

/-- Fuel for the joins of one strand: nine paths, each of which may go on a few times. -/
def splitFuel : Nat := 32

/-- `split` (R122, R341). -/
def execSplit (k : BitVec 4) (off : BitVec 21) (s : State) : Out :=
  scalar s (.split k off) { masks := [k.toNat, 0], courses := true } (fun x =>
    if x.desc.splits = 0 then .trap s { cause := .regUnreserved }
    else branchTo x s off (fun t =>
      let n := x.mask k.toNat &&& x.path.em
      let m := x.path.em &&& ~~~(x.mask k.toNat)
      if n = 0 then .go s
      else if m = 0 then .jump (s.traceBranch x true) t
      else match s.takeSplit x (x.mask k.toNat) t with
        | some s1 => .go s1
        | none => .wait (((s.issuedS x.id).setPark x.id (.splitWait (x.mask k.toNat) t)).settleSplits x.id.coil x.id.strand splitFuel)))

/-- `join` (R124, R125, R341). -/
def execJoin (off : BitVec 21) (s : State) : Out :=
  scalar s (.join off) { masks := [0], courses := true } (fun x => branchTo x s off (fun t =>
    .wait (((s.issuedS x.id).setPark x.id (.join x.path.pc t)).settleSplits x.id.coil x.id.strand splitFuel)))

/-- `end` (R126, R348). -/
def execEndPath (s : State) : Out :=
  scalar s .endPath { courses := true, masks := [0] } (fun x =>
    .wait (((s.issuedS x.id).setPark x.id .ending).settleSplits x.id.coil x.id.strand splitFuel))

end Sys2Proof.Machine
end

