-- ==== Sys2Proof/Machine/Sync.lean ====
section
/-! DEFINITION. Barriers, hoops, waits, fences and try-waits, and how their parked paths resume (R112, R129, R342-R344, R381,
R385-R389). -/

namespace Sys2Proof.Machine

open Sys2Proof

/-- A trap of the whole scalar instruction. -/
def trapNow (s : State) (c : Cause) : Act := .trap s { cause := c }

/-- A barrier or a hoop is named in an address space without a scratchpad window (R141). -/
def noWindow (s : State) (x : Issuer) : Bool := (s.swin x.asid).isNone

/-- A barrier form needs its word reserved, and all but two of them an armed one (R103, R386). -/
def Needs.bar (n : Needs) (b : BitVec 4) (armed : Bool) : Needs :=
  { n with unreserved := fun x => decide (x.desc.bars ≤ b.toNat) || (armed && !x.coil.armed b.toNat) }

/-- The scratchpad window that barriers and hoops need (R141), then the effect. -/
def windowed (s : State) (x : Issuer) (body : Act) : Act := if noWindow s x then trapNow s .scratchRange else body

/-- `bar.init` (R386). -/
def execBarInit (a : BitVec 6) (b : BitVec 4) (s : State) : Out :=
  scalar s (.barInit a b) (({ reads := [a.toNat], courses := true } : Needs).bar b false) (fun x => windowed s x (
    let n := (x.s a).toNat % 128
    let expect := if 64 < n then 0 else n
    .go (s.updCoil x.id.coil (fun c =>
      if c.armed b.toNat then
        ({ c with bars := Tab.set 0 c.bars b.toNat (barWord (c.phase b.toNat) expect (c.barCount b.toNat)) } : Coil).barSettle b.toNat
      else { c with bars := Tab.set 0 c.bars b.toNat (barWord (c.phase b.toNat) expect 0)
                    barArmed := Tab.set false c.barArmed b.toNat true
                    barArrived := Tab.set 0 c.barArrived b.toNat 0 }))))

/-- `bar.drop` (R386). -/
def execBarDrop (b : BitVec 4) (s : State) : Out :=
  scalar s (.barDrop b) (({ courses := true } : Needs).bar b false) (fun x => windowed s x (
    .go (s.updCoil x.id.coil (fun c =>
      let c := if c.armed b.toNat && c.barCount b.toNat != 0 then c.completePhase b.toNat else c
      { c with barArmed := Tab.set false c.barArmed b.toNat false }))))

/-- `bar.arrive` (R386, R387). -/
def execBarArrive (d : BitVec 6) (b : BitVec 4) (s : State) : Out :=
  scalar s (.barArrive d b) (({ writes := [d.toNat], courses := true } : Needs).bar b true) (fun x => windowed s x (
    .go (((s.releaseAt x 1).setS x.id d.toNat (BitVec.ofNat 64 (x.coil.phase b.toNat)) false).updCoil x.id.coil (fun c => c.arrive b.toNat x.id.strand))))

/-- `bar.wait` (R386). -/
def execBarWait (a : BitVec 6) (b : BitVec 4) (s : State) : Out :=
  scalar s (.barWait a b) (({ reads := [a.toNat] } : Needs).bar b true) (fun x => windowed s x (
    if x.coil.phase b.toNat ≠ (x.s a).toNat % 2 ^ 32 then .go (s.acquireAt x 1)
    else .park s (.barrier b.toNat (BitVec.ofNat 32 (x.coil.phase b.toNat)))))

/-- `bar.sync` (R386, R387). -/
def execBarSync (d : BitVec 6) (b : BitVec 4) (s : State) : Out :=
  scalar s (.barSync d b) (({ writes := [d.toNat], courses := true } : Needs).bar b true) (fun x => windowed s x (
    let ph := x.coil.phase b.toNat
    let s1 := ((s.releaseAt x 1).setS x.id d.toNat (BitVec.ofNat 64 ph) false).updCoil x.id.coil (fun c => c.arrive b.toNat x.id.strand)
    if (s1.coil? x.id.coil).any (fun c => c.phase b.toNat != ph) then .go (s1.acquireAt x 1)
    else .park s1 (.barrier b.toNat (BitVec.ofNat 32 ph))))

/-- Slot i of a hoop: its full and empty phase bits, its address (R111, R388). -/
def hoopF (w i : Nat) : Bool := bit w (48 + i)
def hoopE (w i : Nat) : Bool := bit w (32 + i)
def hoopAddr (s : State) (x : Issuer) (w i : Nat) : W64 :=
  BitVec.ofNat 64 ((s.swin x.asid).getD 0 + x.half * 2 ^ 20 + bits w 18 0 + 64 * i * bits w 27 19)

def Coil.hoop (c : Coil) (h : Nat) : Nat := (Tab.get 0 c.hoops h).toNat

/-- A hoop form needs its hoop reserved, and all but `hoop.init` an initialised one (R103, R388). -/
def Needs.hoop (n : Needs) (h : BitVec 4) (ready : Bool) : Needs :=
  { n with unreserved := fun x => decide (x.desc.hoops ≤ h.toNat) || (ready && !Tab.get false x.coil.hoopInit h.toNat) }

/-- The conditions of a hoop form, then its effect (R111, R388): `i` is the slot it names. -/
def hoopAct (s : State) (x : Issuer) (h : BitVec 4) (slot : Option Nat) (body : Act) : Act :=
  windowed s x (match slot with
    | some i => if bits (x.coil.hoop h.toNat) 31 28 < i then trapNow s .scratchRange else body
    | none => body)

/-- `hoop.init` (R388). -/
def execHoopInit (a : BitVec 6) (h : BitVec 4) (s : State) : Out :=
  scalar s (.hoopInit a h) (({ reads := [a.toNat] } : Needs).hoop h false) (fun x =>
    let w := (x.s a).toNat % 2 ^ 32
    let units := bits w 27 19
    let base := bits w 18 0
    if noWindow s x then trapNow s .scratchRange
    else if units = 0 ∨ 480 < units ∨ base % 64 ≠ 0 ∨ x.desc.scratch * 1024 < base + 64 * units * (bits w 31 28 + 1) then
      trapNow s .scratchRange
    else .go (s.updCoil x.id.coil (fun c =>
      { c with hoops := Tab.set 0 c.hoops h.toNat (BitVec.ofNat 64 w), hoopInit := Tab.set false c.hoopInit h.toNat true })))

/-- The phase bit that a fill (or a take) of slot i waits for stands (R112, R388). -/
def hoopReady (w i : Nat) (parity take : Bool) : Bool := if take then hoopF w i != parity else hoopE w i == parity

/-- A fill or a take begins, with an acquire of what the last take or fill of its slot released, or parks (R171, R388). -/
def hoopBegin (s : State) (ins : Instr) (d a b : BitVec 6) (h : BitVec 4) (take : Bool) : Out :=
  scalar s ins (({ reads := [a.toNat, b.toNat], writes := [d.toNat] } : Needs).hoop h true) (fun x =>
    let i := (x.s a).toNat % 16
    let parity := bit (x.s b).toNat 0
    hoopAct s x h (some i) (
      let w := x.coil.hoop h.toNat
      if hoopReady w i parity take then .go ((s.acquireAt x 1).setS x.id d.toNat (hoopAddr s x w i) false)
      else .park s (.hoop h.toNat i parity take d)))

/-- `hoop.wfill` (R388). -/
def execHoopWfill (d a b : BitVec 6) (h : BitVec 4) (s : State) : Out := hoopBegin s (.hoopWfill d a b h) d a b h false
/-- `hoop.wtake` (R388). -/
def execHoopWtake (d a b : BitVec 6) (h : BitVec 4) (s : State) : Out := hoopBegin s (.hoopWtake d a b h) d a b h true

/-- A fill or a take ends by toggling its bit (R112, R117). -/
def hoopToggle (s : State) (ins : Instr) (a : BitVec 6) (h : BitVec 4) (at0 : Nat) : Out :=
  scalar s ins (({ reads := [a.toNat], courses := true } : Needs).hoop h true) (fun x =>
    let i := (x.s a).toNat % 16
    hoopAct s x h (some i) (
      let s1 := (s.releaseAt x 1).updCoil x.id.coil (fun c =>
        { c with hoops := Tab.set 0 c.hoops h.toNat (Tab.get 0 c.hoops h.toNat ^^^ BitVec.ofNat 64 (2 ^ (at0 + i))) })
      .go (s1.updStrand x.id.coil x.id.strand (Strand.progressBy 2))))

/-- `hoop.filled` toggles F (R388). -/
def execHoopFilled (a : BitVec 6) (h : BitVec 4) (s : State) : Out := hoopToggle s (.hoopFilled a h) a h 48
/-- `hoop.taken` toggles E (R388). -/
def execHoopTaken (a : BitVec 6) (h : BitVec 4) (s : State) : Out := hoopToggle s (.hoopTaken a h) a h 32

/-- `hoop.rd` (R388). -/
def execHoopRd (d : BitVec 6) (h : BitVec 4) (s : State) : Out :=
  scalar s (.hoopRd d h) (({ writes := [d.toNat] } : Needs).hoop h true) (fun x => hoopAct s x h none (
    .go (s.setS x.id d.toNat (BitVec.ofNat 64 (x.coil.hoop h.toNat)) false)))

/-- `wait` on an in-flight counter (R342). -/
def execWaitPath (a : BitVec 6) (c : BitVec 4) (s : State) : Out :=
  scalar s (.waitPath a c) { reads := [a.toNat] } (fun x =>
    let n := (x.s a).toNat % 2 ^ 16
    if x.strand.inFlight c.toNat ≤ n then .go s else .park s (.waitPath c.toNat n))

/-- `wait` on a timeline of the coil (R342). -/
def waitTl (s : State) (ins : Instr) (a : BitVec 6) (ctx : Nat) (sc : BitVec 3) : Out :=
  scalar s ins { reads := [a.toNat] } (fun x =>
    if (x.s a).toNat ≤ x.coil.timeline ctx then .go (s.acquireAt x sc.toNat) else .park s (.waitTimeline ctx (x.s a) sc))

/-- `wait mx` (R342). -/
def execWaitMx (a : BitVec 6) (sc : BitVec 3) (s : State) : Out := waitTl s (.waitMx a sc) a 0 sc
/-- `wait trv` (R342). -/
def execWaitTrv (a : BitVec 6) (sc : BitVec 3) (s : State) : Out := waitTl s (.waitTrv a sc) a 1 sc
/-- `wait cov` (R342). -/
def execWaitCov (a : BitVec 6) (sc : BitVec 3) (s : State) : Out := waitTl s (.waitCov a sc) a 2 sc

/-- Asks another device or the host for the 8-byte word that a parked path waits on (R344). -/
def State.pollRemote (s : State) (id : PathId) (va : W64) (p : Place) : State :=
  (s.sendAll { p := id, op := 0, parts := [], kind := .read, size := 8, poll := true }
    [{ lane := 0, place := p, va := va, dst := 2 ^ 20, data := [] }]).2

/-- Reads the 8-byte word at an address for a wait, with an acquire load of a scope: in a ply region the current ply (R344). -/
def waitWord (s : State) (x : Issuer) (va : W64) (sc : Nat) (body : State → Place → W64 → Bool → Act) (remote : State → Place → Act) : Act :=
  let (js, s0) := s.judgeAll x.who [(0, { kind := .read, va := va.toNat, size := 8, l2 := x.acts sc })]
  let s1 := s0.ordered x.hamper false false (placesOf js)
  match topCause (causesOf js) with
  | some c => .trap (s1.noteUnreach c) (scalarCause c va.toNat true)
  | none =>
    match faultsOf js with
    | [] =>
      match placesOf js with
      | (_, _, p) :: _ =>
        if s1.refuses p .read then .trap s1 (scalarCause .fabricAccess va.toNat true)
        else if p.isRemote then remote s1 p
        else
          let (l, bad) := s1.load .current (some x.coil) p 8
          body (s1.afterLoad p 8) p (BitVec.ofNat 64 (ofBytes l)) bad
      | [] => .wait s1
    | fs =>
      match s1.postFaults x.source x.asid (fun m => .path x.id m) fs [] with
      | none => .wait s1
      | some (w, s2) => .park s2 (.fault w false 0 0 (faultAddrs fs))

/-- What a memory wait comes to at its issue and at each reading (R344); a poisoned word is consumed. -/
def waitMemAct (s : State) (x : Issuer) (va n : W64) (sc : BitVec 3) : Act :=
  waitWord s x va sc.toNat
    (fun s1 p v bad =>
      if bad then .trap s1 (scalarCause .poison va.toNat true)
      else if n.toNat ≤ v.toNat then .go (s1.acquireAt x (p.scope sc.toNat))
      else .park (s1.push [.waitMemRecheck x.id]) (.waitMem va n sc))
    (fun s1 p => .park (s1.pollRemote x.id va p) (.waitMem va n sc))

/-- `wait mem` (R342, R344). -/
def execWaitMem (a b : BitVec 6) (sc : BitVec 3) (s : State) : Out :=
  scalar s (.waitMem a b sc) { reads := [a.toNat, b.toNat], courses := true, memory := true } (fun x => waitMemAct s x (x.s b) (x.s a) sc)

/-- A parked path's wait is settled without a new issue: it goes on, parks anew or traps (R137). -/
def settleParked (x : Issuer) : Act → State
  | .go s1 => s1.resumeAfter x.id 4
  | .jump s1 _ => s1
  | .park s1 k => s1.setPark x.id k
  | .wait s1 => s1
  | .trap s1 t => s1.takeTrap x (scalarTrap x (s1.wordsAt x) t)

/-- WAIT_MEM_RECHECK: the word is read again (R344). -/
def execWaitMemRecheck (p : PathId) (s : State) : Out :=
  .next (match s.issuerAt p with
    | some x => (match x.path.park with
      | .waitMem va n sc => if x.coil.issues then settleParked x (waitMemAct s x va n sc) else s.push [.waitMemRecheck p]
      | _ => s)
    | none => s)

/-- Some lane instruction, access or copy of the strand has not completed (R152). -/
def State.pendingWork (s : State) (x : Issuer) : Bool :=
  !x.strand.longs.isEmpty || s.copies.any (fun c => c.2.p.coil == x.id.coil && c.2.p.strand == x.id.strand)

/-- `fence` waits for earlier courses and for the strand's accesses, then acts on the L1 for its scope (R150, R176, R381). -/
def execFence (sc : BitVec 3) (q : BitVec 2) (s : State) : Out :=
  scalar s (.fence sc q) { courses := true } (fun x => 
    if s.pendingWork x then .wait s
    else
      let s1 := if q = 0 then s else s.releaseAt x sc.toNat
      .go (if q = 1 then s1 else s1.acquireAt x sc.toNat))

/-- Condition of a `twait` other than a memory word's (R389). -/
def twaitHolds (x : Issuer) (cond : Nat) (v : W64) : Bool :=
  if cond = 0 then false
  else if cond ≤ 7 then decide (x.strand.inFlight (cond - 1) ≤ v.toNat % 2 ^ 16)
  else if cond = 8 then false
  else decide (v.toNat ≤ x.coil.timeline (cond - 9))

/-- The end of a `twait`: sd and `scc` receive the predicate (R389). -/
def State.twaitEnd (s : State) (id : PathId) (d : BitVec 6) (pred : Bool) : State :=
  ((s.setS id d.toNat (BitVec.ofNat 64 (b2n pred)) false).setScc id (sccOf (!pred) false false false))

/-- `twait` (R129, R389). -/
def execTwait (d a b : BitVec 6) (c : BitVec 4) (s : State) : Out :=
  let cond := c.toNat
  scalar s (.twait d a b c) { reads := if cond = 0 then [a.toNat] else [a.toNat, b.toNat], writes := [d.toNat], courses := cond == 8, memory := cond == 8 } (fun x =>
    let hint := (x.s a).toNat % 2 ^ 32
    let v := x.s b
    let parkAt (s1 : State) (seen : Option W64) : Act := .park (s1.push [.twaitHintExpiry x.id]) (.twait c false v seen d)
    if cond = 8 then
      waitWord s x v 2
        (fun s1 _ w bad =>
          if bad then .trap s1 (scalarCause .poison v.toNat true)
          else
            let s2 := s1.acquireAt x 2
            if hint = 0 then .go (s2.twaitEnd x.id d false) else parkAt s2 (some w))
        (fun s1 p => let s2 := s1.pollRemote x.id v p
          if hint = 0 then .park s2 (.twait c true v none d) else parkAt s2 none)
    else if twaitHolds x cond v then .go ((if 9 ≤ cond then s.acquireAt x 2 else s).twaitEnd x.id d true)
    else if hint = 0 then .go (s.twaitEnd x.id d (cond == 0))
    else parkAt s none)

/-- A memory word has changed since a parked `twait` read it; false where it cannot be read now. -/
def State.wordChanged (s : State) (x : Issuer) (va seen : W64) : Bool :=
  match s.judge x.who { kind := .read, va := va.toNat, size := 8, l2 := true } with
  | (.ok p, s1) => !p.isRemote && !(s1.refuses p .read)
      && (let (l, bad) := s1.load .current (some x.coil) p 8; !bad && BitVec.ofNat 64 (ofBytes l) != seen)
  | _ => false

/-- The condition of a parked `twait` holds now. -/
def State.twaitNow (s : State) (x : Issuer) (cond : Nat) (v : W64) (seen : Option W64) : Bool :=
  if cond = 8 then (match seen with | some w => s.wordChanged x v w | none => false) else twaitHolds x cond v

/-- The word that a `twait` reads at its issue has been asked for, and its answer has not come: the path waits for it as for any load. -/
def twaitReading (cond : Nat) (seen : Option W64) : Bool := cond == 8 && seen.isNone

/-- A parked `twait` ends with its predicate; one that holds acquires, for memory words and timelines (R389). Nothing waits for the word any more. -/
def State.twaitWake (s : State) (x : Issuer) (cond : Nat) (d : BitVec 6) (pred : Bool) : State :=
  let s := s.disown (fun r => r.poll && r.p == x.id)
  ((if pred && decide (8 ≤ cond) then s.acquireAt x 2 else s).twaitEnd x.id d pred).resumeAfter x.id 4

/-- TWAIT_HINT_EXPIRY: the hint has elapsed, and the path wakes (R129). -/
def execTwaitHintExpiry (p : PathId) (s : State) : Out :=
  .next (match s.issuerAt p with
    | some x => (match x.path.park with
      | .twait c _ v seen d =>
        if x.coil.issues && !twaitReading c.toNat seen then s.twaitWake x c.toNat d (c == 0 || s.twaitNow x c.toNat v seen)
        else s.setPark p (.twait c true v seen d)
      | _ => s)
    | none => s)

/-- A parked path whose condition holds resumes: barriers, hoops, waits and try-waits (R115, R129, R342, R387, R388). -/
def State.wakePath (s : State) (x : Issuer) : State :=
  match x.path.park with
  | .barrier b ph => if x.coil.phase b ≠ ph.toNat then (s.acquireAt x 1).resumeAfter x.id 4 else s
  | .hoop h i parity take d =>
    let w := x.coil.hoop h
    if hoopReady w i parity take then ((s.acquireAt x 1).setS x.id d.toNat (hoopAddr s x w i) false).resumeAfter x.id 4 else s
  | .waitPath sel n => if x.strand.inFlight sel ≤ n then s.resumeAfter x.id 4 else s
  | .waitTimeline ctx n sc => if n.toNat ≤ x.coil.timeline ctx then (s.acquireAt x sc.toNat).resumeAfter x.id 4 else s
  | .twait c late v seen d =>
    if s.twaitNow x c.toNat v seen then s.twaitWake x c.toNat d true
    else if late && !twaitReading c.toNat seen then s.twaitWake x c.toNat d (c == 0) else s
  | _ => s

end Sys2Proof.Machine
end

