-- ==== Sys2Proof/Machine/LaneMem.lean ====
section
/-! DEFINITION. Lane loads, stores, atomics, reductions, per-lane copies and FIFO access, and the completion of long instructions and of
accesses that left the device (R42, R48, R54, R120, R143, R153, R258, R320, R372-R384, R451). -/

namespace Sys2Proof.Machine

open Sys2Proof

/-- An access waits for answers from outside that the order of its path puts before it: all of them before a release, those of an acquire before any
access (R163, R165, R372). -/
def orderWaits (x : Issuer) (rel : Bool) : Bool :=
  x.strand.longs.any (fun g => g.2.path == x.id.path && !g.2.remote.isEmpty && (rel || g.2.acq.isSome))

/-- A lane instruction acquires, or releases, at a scope that acts on the L1 (R150, R372). -/
def laneAcq (x : Issuer) (o : Lane) : Bool :=
  let ord := ordOf o.mod.toNat
  (ord == 1 || ord == 3 || ord == 4) && x.acts (scopeOf o.mod.toNat)
/-- The scope of an instruction's acquire (R372). -/
def laneAcqScope (o : Lane) : Option Nat :=
  let ord := ordOf o.mod.toNat
  if ord = 1 ∨ ord = 3 ∨ ord = 4 then some (scopeOf o.mod.toNat) else none
/-- That of its answers from outside (R52, R143). -/
def laneAcqFar (o : Lane) (ps : List (Nat × Acc × Place)) : Option Nat :=
  (laneAcqScope o).map (fun k => ps.foldl (fun m e => max m (e.2.2.scope k)) k)
def laneLate (o : Lane) : Bool := ordOf o.mod.toNat == 2 || ordOf o.mod.toNat == 3 || ordOf o.mod.toNat == 4
def laneRelScope (o : Lane) : Option Nat := if laneLate o then some (scopeOf o.mod.toNat) else none
def laneRel (x : Issuer) (o : Lane) : Bool := laneLate o && x.acts (scopeOf o.mod.toNat)

/-- In-flight counters that an instruction counts on by its accesses: S for the scratchpad window, G for the others (R153). -/
def State.unitsOf (s : State) (x : Issuer) (accs : List (Nat × Acc)) : List Nat :=
  let near (a : Nat × Acc) : Bool := !inPeerWin a.2.va && (s.winOff x.asid a.2.va).isSome
  (if accs.any (fun a => !near a) then [0] else []) ++ (if accs.any near then [1] else [])

/-- The causes of a lane instruction's accesses and its translation faults, then its effect (R257, R258, R452). `bad` holds the lanes
that consume poison; `own` the causes that the instruction adds by itself, which do not keep a lane's other causes from being found; `acq` and `rel` the
scopes at which it acquires and releases; `late` says that earlier accesses come before it; `entries` is what it takes of the outstanding-transaction
table, and `units` what it counts on in-flight counters, if not what its accesses do (R152, R153); `view` is how it sees ply regions. -/
def memJudge (s : State) (i : LaneIn) (bad : Mask) (own : List (Nat × Cause × Nat)) (accs : List (Nat × Acc))
    (body : State → List (Nat × Acc × Place) → Act) (acq : Option Nat := none) (rel : Option Nat := none) (late : Bool := false)
    (entries : Option Nat := none) (units : Option (List Nat) := none) (view : View := i.x.view) : Act :=
  let early (l : Nat) : Bool := own.any (fun o => o.1 == l && decide (Cause.rank o.2.1 < Cause.rank .sysSpaceAccess))
  let left := accs.filter (fun a => !bad.getLsbD a.1)
  let (js, s1) := s.judgeAll i.x.who (left.filter (fun a => !early a.1))
  let first := (left.filter (fun a => early a.1)).filterMap (fun a => match s.stage1 i.x.who a.2 with
    | some (.inl c) => some (a.1, c, a.2.va)
    | _ => none)
  let ps := placesOf js
  let causes := (lanesOf bad i.x.w).map (fun l => (l, Cause.poison, 0)) ++ own ++ first ++ causesOf js
  if meetsRevoked s1 view ps then .trap s1 { cause := .snapshotRevoked, memory := true }
  else match topCause causes with
    | some c =>
      let best (l : Nat) : Option (Nat × Cause × Nat) :=
        match topCause (causes.filter (fun e => e.1 == l)) with
        | some b => causes.find? (fun e => e.1 == l && e.2.1 == b)
        | none => none
      let all := i.lanes.filterMap best
      let hit := (all.filter (fun e => e.2.1 == c)).map Prod.fst
      .trap (s1.noteUnreach c)
        { cause := c, laneMask := maskOf hit, other := maskOf ((all.filter (fun e => e.2.1 != c)).map Prod.fst), memory := true
          lcause := Tab.setAll 0 [] (all.map (fun e => (e.1, e.2.1.code)))
          laddr := Tab.setAll 0 [] (all.map (fun e => (e.1, BitVec.ofNat 64 e.2.2))) }
    | none =>
      match faultsOf js with
      | [] =>
        let (ok, s2) := s1.unsnoopAll ps
        if !ok || orderWaits i.x late || decide (512 < s2.ottUsed i.x.hamper + entries.getD (s2.ottEntries ps)) then .wait s2
        else body (s2.ordered i.x.hamper (i.x.actsFor acq ps) (i.x.actsFor rel ps) ps) ps
      | fs =>
        match s1.postFaults i.x.source i.x.asid (fun m => .path i.x.id m) fs [] with
        | none => .wait s1
        | some (w, s2) => .park (s2.updStrand i.x.id.coil i.x.id.strand (Strand.flyParked i.x.id.path (units.getD (s.unitsOf i.x accs))))
            (.fault w false 0 1 (faultAddrs fs))

/-- In-flight counters of an instruction's accesses: S for the scratchpad window, G for the others (R153, R376). -/
def counters (ps : List (Nat × Acc × Place)) : List Nat :=
  (if ps.any (fun p => !p.2.2.inWindow) then [0] else []) ++ (if ps.any (fun p => p.2.2.inWindow) then [1] else [])

/-- What a lane memory instruction leaves pending. -/
structure MemOut where
  /-- Register writes at completion; those at once are made already. -/
  v : List (Nat × W64 × Bool) := []
  flags : FpFlags := 0
  sels : List Nat := []
  remote : List Nat := []
  fails : List (Nat × Cause × W64) := []
  la : Nat := 0
  long : Bool := false
  ott : Nat := 0
  acq : Option Nat := none
  deriving DecidableEq, Repr

/-- Requests and writes wait for their completion, a long instruction whose answers have not come still for its window; a short instruction with no
request outstanding is complete (R120, R153). -/
def MemOut.settle (m : MemOut) (i : LaneIn) (op : Nat) (s : State) : State :=
  let counted (st : Strand) : Strand := (st.fly i.x.id.path op m.sels).withdrawn i.x.id.path
  if m.long || m.remote != [] || m.fails != [] then
    let g : LongOp :=
      { width := i.e, path := i.x.id.path, courseNumber := i.r.course.number, pos := i.r.pos, la := m.la, vWrites := m.v
        kWrites := [], sWrites := [], flags := m.flags, remote := m.remote, awaited := false, ended := false, act := i.act, fails := m.fails, ott := m.ott
        acq := if m.remote = [] then none else m.acq }
    let s1 := s.updStrand i.x.id.coil i.x.id.strand (fun st => { counted st with longs := Dict.put st.longs op g })
    if m.remote = [] then s1.push [.laneLongComplete op] else s1
  else
    s.updStrand i.x.id.coil i.x.id.strand (fun st => ((counted st).landed op).putV m.v)

/-- Lanes that the export check of this device itself refuses (R42). -/
def refusedLanes (s : State) (ps : List (Nat × Acc × Place)) : List (Nat × Cause × W64) :=
  (ps.filter (fun p => s.refuses p.2.2 p.2.1.kind)).map (fun p => (p.1, Cause.fabricAccess, BitVec.ofNat 64 p.2.1.va))

/-- Accesses performed in this device, in an order that no rule states (R169, R378). -/
def localOnes (s : State) (ps : List (Nat × Acc × Place)) : List (Nat × Acc × Place) :=
  permuteBy ps.length (Config.choice s.tick) (ps.filter (fun p => !p.2.2.isRemote && !s.refuses p.2.2 p.2.1.kind))

/-- The accesses that leave the device. -/
def remoteOnes (ps : List (Nat × Acc × Place)) : List (Nat × Acc × Place) := ps.filter (fun p => p.2.2.isRemote)

/-- ea of each active lane of a load or a store (R373). -/
def laneEa (i : LaneIn) (l : Nat) : W64 :=
  let w := i.o.imm.toNat
  match (bits i.o.sub.toNat 1 0) with
  | 0 => i.a l + sext64 32 w
  | 1 =>
    let idx := if bit w 27 then sext64 32 (i.b l).toNat else BitVec.ofNat 64 ((i.b l).toNat % 2 ^ 32)
    i.a l + idx <<< (bits w 26 24) + sext64 24 w
  | _ => i.a l

/-- `advance` of R374. -/
def advanceAddr (a step base len : W64) : W64 :=
  if len = 0 then a + step else base + BitVec.ofNat 64 ((a + step - base).toNat % len.toNat)

/-- The advanced addresses of mode 2, for A of each active lane (R374). -/
def modeWrites (i : LaneIn) : List (Nat × W64 × Bool) :=
  if bits i.o.sub.toNat 1 0 = 2 then
    let w := i.o.imm.toNat
    let m := bits w 17 16
    let base := Tab.get 0 i.x.strand.mregs (2 * m)
    let len := Tab.get 0 i.x.strand.mregs (2 * m + 1)
    i.lanes.map (fun l => (vKey i.o.a.toNat l, advanceAddr (i.a l) (sext64 16 w) base len, false))
  else []

/-- Bytes of an access: the element, or the whole register (R375). -/
def accSize (o : Lane) : Nat := if shapeOf o.mod.toNat = 1 then 8 else tyWidth o.ty.toNat / 8

/-- The value that a load gives its lane: extended by its TYPE (R375). -/
def extend (ty size n : Nat) : W64 := if size < 8 ∧ tySigned ty then sext64 (8 * size) n else BitVec.ofNat 64 n

/-- Address registers of a load or a store that consume poison. -/
def addrSpecs (o : Lane) : List Nat := o.a.toNat :: (if bits o.sub.toNat 1 0 = 1 then [o.b.toNat] else [])

/-- `v.ld` (R373-R376). Where an answer may still refuse a lane, A of mode 2 is written with the data, and nothing issues before that (R374). -/
def execVLd (o : Lane) (s : State) : Out :=
  laneIssue s 0x80 o always (fun _ => []) (fun i =>
    let n := accSize o
    let acq := laneAcq i.x o
    let accs := i.lanes.map (fun l => (l, ({ kind := .read, va := (laneEa i l).toNat, size := n, l2 := acq } : Acc)))
    memJudge s i (i.badLanes (addrSpecs o)) [] accs (fun s1 ps =>
      let (op, s2) := s1.draw.fresh
      let vals := (localOnes s1 ps).map (fun p =>
        let (b, bad) := s1.load i.x.view (some i.x.coil) p.2.2 n
        (p.1, extend i.ty n (ofBytes b), bad))
      let s3 := ps.foldl (fun s p => s.afterLoad p.2.2 n) s2
      let dst (l : Nat) : Nat := if o.d.toNat ≤ 0xF7 then vKey o.d.toNat l else 2 ^ 20
      let (ids, s4) := s3.sendAll { p := i.x.id, op := op, parts := [], kind := .read, size := n, signed := tySigned i.ty && decide (n < 8) }
        ((remoteOnes ps).map (fun p => { lane := p.1, place := p.2.2, va := BitVec.ofNat 64 p.2.1.va, dst := dst p.1, data := [] }))
      let fails := refusedLanes s1 ps
      let late := ids != [] || fails != []
      let s5 := if late then s4 else s4.updStrand i.x.id.coil i.x.id.strand (fun st => st.putV (modeWrites i))
      .go (({ v := destKeys o.d.toNat vals ++ (if late then modeWrites i else []), sels := counters ps, remote := ids
              fails := fails, la := if late && bits o.sub.toNat 1 0 == 2 then 0 else o.la.toNat, long := true, ott := s1.ottEntries ps, acq := laneAcqFar o ps } : MemOut).settle i op s5))
      (acq := laneAcqScope o))

/-- `v.st`: its data move their poison (R375, R376). -/
def execVSt (o : Lane) (s : State) : Out :=
  laneIssue s 0x90 o always (fun _ => []) (fun i =>
    let n := accSize o
    let rel := laneRel i.x o
    let accs := i.lanes.map (fun l => (l, ({ kind := .write, va := (laneEa i l).toNat, size := n, l2 := rel } : Acc)))
    memJudge s i (i.badLanes (addrSpecs o)) [] accs (fun s1 ps =>
      let (op, s2) := s1.draw.fresh
      let data (l : Nat) : List Byte := toBytes n (i.c l).toNat
      let s3 := s2.asOne (fun s => (localOnes s1 ps).foldl (fun s p =>
        s.store ((s.issuerAt i.x.id).elim i.x.view Issuer.view) i.x.id.coil i.x.id.strand p.2.1.va p.2.2 (data p.1) (i.bad o.c.toNat p.1)) s)
      let (ids, s4) := s3.sendAll { p := i.x.id, op := op, parts := [], kind := .write, size := n }
        ((permuteBy ps.length (Config.choice s1.tick) (remoteOnes ps)).map (fun p =>
          { lane := p.1, place := p.2.2, va := BitVec.ofNat 64 p.2.1.va, dst := 2 ^ 20, data := data p.1, bad := i.bad o.c.toNat p.1 }))
      .go (({ v := modeWrites i, sels := counters ps, remote := ids, fails := refusedLanes s1 ps
              ott := s1.ottEntries (remoteOnes ps) } : MemOut).settle i op s4))
      (rel := laneRelScope o) (late := laneLate o))

/-- The operation of a lane atomic (R377). -/
def laneAtomOp (sub : Nat) : AtomicOp :=
  match sub with
  | 0 => .add | 1 => .min | 2 => .max | 3 => .and | 4 => .or | 5 => .xor | 6 => .swap | 7 => .cas | 8 => .fadd | 9 => .fmin | _ => .fmax

/-- Merges flags into the reduction-flags word of a coil's bolt (R320): none when its translation fault cannot be posted yet. -/
def State.mergeRflags (s : State) (id : PathId) (f : FpFlags) : Option State :=
  match s.coilBolt? id.coil with
  | none => some s
  | some (c, b) =>
    let va := b.desc.rflags.toNat
    if f = 0 ∨ va = 0 ∨ inPeerWin va = true ∨ canonical b.desc.rflags = false ∨ (s.winOff b.asid va).isSome then some s
    else match s.translate (.hamper (c.hamper + b.desc.halfOf id.strand)) b.asid va .atomic with
      | (.ok pa, s1) =>
        if inRegSpace pa || inHostWin pa then some s1
        else if s1.inCarve pa then some (s1.setErr 2 2)
        else
          let s2 := s1.l1Flush (c.hamper + b.desc.halfOf id.strand) pa 8
          if s2.memPoison pa 8 then some (s2.write pa (s2.bytes pa 8) true)
          else some (s2.write pa (toBytes 8 (s2.peekN pa 8 ||| f.toNat)) false)
      | (.fail c1 l p, s1) =>
        let src : FaultSource := { source := 0, hamper := c.hamper + b.desc.halfOf id.strand, bolt := c.bolt
                                   slot := match c.strands[id.strand]? with | some st => st.slot | none => 0xFF }
        (s1.postFault src b.asid { kind := .atomic, va := va, size := 8 } c1 l p (.reduction id f)).map Prod.snd

/-- Flags whose translation fault cannot be posted yet are kept under a number that no record has, and merged later (R69, R320). -/
def State.keepRflags (s : State) (id : PathId) (f : FpFlags) : State :=
  let r : FaultRec := { asid := 2 ^ 16, page := 0, kind := .atomic, cause := 0, waiters := [.reduction id f], count := 0 }
  { s with faults := Dict.put s.faults (2 ^ 32 + s.nextOp) r, nextOp := s.nextOp + 1 }

/-- Merges flags now, or keeps them until they can be merged. -/
def State.mergeOrKeep (s : State) (id : PathId) (f : FpFlags) : State := (s.mergeRflags id f).getD (s.keepRflags id f)

/-- Merges the flags that were kept. -/
def State.retryRflags (s : State) : State :=
  (s.faults.filter (fun e => decide (2 ^ 32 ≤ e.1))).foldl (fun s e =>
    e.2.waiters.foldl (fun s w => match w with
      | .reduction p f => s.mergeOrKeep p f
      | _ => s) { s with faults := Dict.del s.faults e.1 }) s

/-- A lane atomic, with or without a result (R377-R379). -/
def laneAtomic (s : State) (opc : Nat) (o : Lane) (result : Bool) : Out :=
  laneIssue s opc o always (fun _ => []) (fun i =>
    let n := tyWidth i.ty / 8
    let op := laneAtomOp o.sub.toNat
    let accs := i.lanes.map (fun l =>
      (l, ({ kind := .atomic, va := (i.a l + sext64 32 o.imm.toNat).toNat, size := n, pcieAtomic := pcieHas op n,
              l2 := i.x.atL2 (scopeOf o.mod.toNat) } : Acc)))
    let specs := [o.a.toNat, o.c.toNat] ++ (if op = .cas then [o.d.toNat] else [])
    memJudge s i (i.badLanes specs) [] accs (fun s1 ps =>
      let (id, s2) := s1.draw.fresh
      let e := tyWidth i.ty
      let opnd (l : Nat) : Nat := elem e 0 (i.c l)
      let cmp (l : Nat) : Nat := elem e 0 (i.dOld l)
      let step (a : List (Nat × W64 × Bool) × FpFlags × State) (p : Nat × Acc × Place) : List (Nat × W64 × Bool) × FpFlags × State :=
        let v := (a.2.2.issuerAt i.x.id).elim i.x.view Issuer.view
        let (old, bad, f, s') := a.2.2.rmw v i.x.id.coil i.x.id.strand p.2.1.va p.2.2 n (fun x => atomicNew op i.ty x (opnd p.1) (cmp p.1))
        (a.1 ++ [(p.1, extend i.ty n old, bad)], a.2.1 ||| f, s')
      let (vals, f, made) := (localOnes s1 ps).foldl step ([], 0, s2.grouped)
      let s3 := made.ungrouped
      let dst (l : Nat) : Nat := if result ∧ o.d.toNat ≤ 0xF7 then vKey o.d.toNat l else 2 ^ 20
      let (ids, s4) := s3.sendAll { p := i.x.id, op := id, parts := [], kind := .atomic, size := n, signed := tySigned i.ty && decide (n < 8)
                                    red := !result, atom := some (op, i.ty) }
        ((remoteOnes ps).map (fun p =>
          { lane := p.1, place := p.2.2, va := BitVec.ofNat 64 p.2.1.va, dst := dst p.1
            data := toBytes n (opnd p.1) ++ (if op = .cas then toBytes n (cmp p.1) else []) }))
      let m : MemOut := { v := if result then destKeys o.d.toNat vals else [], flags := if result then f else 0, sels := counters ps
                          remote := ids, fails := refusedLanes s1 ps, la := o.la.toNat, long := result
                          ott := s1.ottEntries (if result then ps else remoteOnes ps), acq := laneAcqFar o ps }
      let done := m.settle i id s4
      .go (if result then done else done.mergeOrKeep i.x.id f))
      (acq := laneAcqScope o) (rel := laneRelScope o) (late := laneLate o))

/-- `v.atom` (R377). -/
def execVAtom (o : Lane) (s : State) : Out := laneAtomic s 0xA0 o true
/-- `v.red` (R377). -/
def execVRed (o : Lane) (s : State) : Out := laneAtomic s 0xA1 o false

/-- The source words of a copy lane: `V` bytes from src in accesses of at most 8 (R382). -/
def cpaSource (src v : Nat) : List Acc :=
  (upFrom 0 ((v + 7) / 8)).map (fun j => { kind := .read, va := (src + 8 * j) % 2 ^ 64, size := min 8 (v - 8 * j), align := 8 })

/-- The cause that a copy lane's destination meets, if any (R102, R265, R266, R382). -/
def cpaDest (s : State) (i : LaneIn) (dst : Nat) : Option Cause :=
  if !canonical (BitVec.ofNat 64 dst) && !inPeerWin dst then some .addrNoncanonical
  else if dst % 32 ≠ 0 then some .misaligned
  else match s.winOff i.x.asid dst with
    | none => some .scratchRange
    | some off =>
      let ps := (upFrom 0 4).map (fun j => winPlace i.x.coil i.x.desc i.x.half (off + 8 * j) 8)
      if ps.any Option.isNone then some .scratchRange
      else if s.watched i.x.asid dst 32 .write then some .watchpoint
      else if ps.any (fun p => p.any (armedWrite i.x.who .write)) then some .barArmedWrite
      else none

/-- The 32 bytes of a copy lane from its words, zero above V (R382). -/
def cpaBytes (v : Nat) (words : List (List Byte)) : List Byte :=
  let l := words.flatten.take v
  l ++ List.replicate (32 - l.length) 0

/-- `v.cpa` (R382, R383). -/
def execVCpa (o : Lane) (s : State) : Out :=
  laneIssue s 0xB0 o always (fun _ => []) (fun i =>
    let src (l : Nat) : Nat := (i.a l + sext64 32 o.imm.toNat).toNat
    let dst (l : Nat) : Nat := (i.b l).toNat
    let cnt (l : Nat) : Nat := min 32 (i.c l).toNat
    let own := i.lanes.flatMap (fun l =>
      (match cpaDest s i (dst l) with | some c => [(l, c, dst l)] | none => [])
      ++ (if cnt l ≠ 0 ∧ src l % 8 = 0 ∧ (upFrom 0 ((cnt l + 7) / 8)).any (fun j => (s.winOff i.x.asid (src l + 8 * j)).isSome) = true
          then [(l, Cause.scratchRange, src l)] else []))
    let accs := i.lanes.flatMap (fun l => (cpaSource (src l) (cnt l)).map (fun a => (l, a)))
    memJudge s i (i.badLanes [o.a.toNat, o.b.toNat, o.c.toNat]) own accs (fun s1 ps =>
      let fails := (refusedLanes s1 ps).foldl (fun l e => if l.any (fun x => x.1 == e.1) then l else l ++ [e]) []
      let lanes := i.lanes.filter (fun l => !(fails.any (fun e => e.1 == l)))
      let add (a : State × List (Nat × Nat)) (l : Nat) : State × List (Nat × Nat) :=
        let (op, s2) := a.1.fresh
        let words := (ps.filter (fun p => p.1 == l)).map (fun p =>
          let (b, bad) := if p.2.2.isRemote then (List.replicate p.2.1.size 0, false) else s1.load .current (some i.x.coil) p.2.2 p.2.1.size
          (b, bad))
        let c : CpaLane := { p := i.x.id, lane := l, dst := i.b l, bytes := cpaBytes (cnt l) (words.map Prod.fst)
                             poison := words.map Prod.snd ++ List.replicate (4 - words.length) false }
        (({ s2 with copies := Dict.put s2.copies op c } : State).updStrand i.x.id.coil i.x.id.strand (fun st =>
            st.fly i.x.id.path op [3 + bits o.sub.toNat 1 0]),
         a.2 ++ [(l, op)])
      let (s3, ops) := lanes.foldl add (s1, [])
      let num (l : Nat) : Nat := match ops.find? (fun e => e.1 == l) with | some e => e.2 | none => 0
      let (id, s4) := s3.fresh
      let (ids, s5) := s4.sendAll { p := i.x.id, op := id, copy := true, parts := [], kind := .read, size := 8 }
        ((remoteOnes ps).filter (fun p => lanes.contains p.1) |>.map (fun p =>
          { lane := p.1, place := p.2.2, va := BitVec.ofNat 64 p.2.1.va, dst := 4 * num p.1 + (p.2.1.va + 2 ^ 64 - src p.1) % 2 ^ 64 / 8, data := [] }))
      let far (l : Nat) : Bool := (remoteOnes ps).any (fun p => p.1 == l)
      let s6 := s5.push ((ops.filter (fun e => !far e.1)).map (fun e => .laneAccessFinish e.2))
      let s7 := (localOnes s1 ps).foldl (fun s p => s.afterLoad p.2.2 p.2.1.size) s6
      .go (({ remote := ids, fails := fails } : MemOut).settle i id s7))
      (entries := some i.lanes.length) (units := some (i.lanes.map (fun _ => 3 + bits o.sub.toNat 1 0))) (view := .current))

/-- LANE_ACCESS_FINISH: a copy lane's 32 bytes are written in the bank (R153, R383). -/
def execLaneAccessFinish (op : Nat) (s : State) : Out :=
  .next (match Dict.find? s.copies op with
    | none => s
    | some c =>
      let s1 := { s.landCopy c with copies := Dict.del s.copies op }
      (s1.updStrand c.p.coil c.p.strand (fun st => st.landed op)).settleCoil c.p.coil)

/-- A FIFO bank in force on the strand's Hamper that its address space may use (R145, R384). -/
def fifoOk (s : State) (x : Issuer) (b : Nat) : Bool :=
  decide (b < 30) && Tab.get 0 s.roles (x.hamper * 32 + b) == 2 && s.regF (aFifoAsid x.hamper) 15 0 == x.asid

/-- Entries of a FIFO bank. -/
def State.fifo (s : State) (x : Issuer) (b : Nat) : List (W64 × Bool) := (Dict.find? s.fifos (x.hamper * 32 + b)).getD []

def State.setFifo (s : State) (x : Issuer) (b : Nat) (l : List (W64 × Bool)) : State :=
  { s with fifos := Dict.put s.fifos (x.hamper * 32 + b) l }

/-- `FIFO_ACCESS` of an instruction's active lanes; without one it has no effect (R384). -/
def fifoTrap (s : State) (i : LaneIn) : Act :=
  if i.lanes.isEmpty then .go s else .trap s { laneCause .fifoAccess i.act i.x.w with memory := true }

/-- `v.fpush` (R384). -/
def execVFpush (o : Lane) (s : State) : Out :=
  laneIssue s 0xB1 o always (fun _ => []) (fun i =>
    let b := bits o.imm.toNat 4 0
    if !fifoOk s i.x b then fifoTrap s i
    else
      let q := s.fifo i.x b
      if decide (2048 < q.length + i.lanes.length) || orderWaits i.x (laneLate o) then .wait s
      else
        let s1 := if laneRel i.x o && !i.lanes.isEmpty then s.l1Release i.x.hamper else s
        .go (s1.setFifo i.x b (q ++ i.lanes.map (fun l => (i.a l, i.bad o.a.toNat l)))))

/-- `v.fpop` (R384). -/
def execVFpop (o : Lane) (s : State) : Out :=
  laneIssue s 0xB2 o always (fun _ => []) (fun i =>
    let b := bits o.imm.toNat 4 0
    if !fifoOk s i.x b then fifoTrap s i
    else
      let q := s.fifo i.x b
      if decide (q.length < i.lanes.length) || orderWaits i.x false then .wait s
      else
        let (op, s1) := s.fresh
        let out : LaneOut := { v := i.lanes.zip (q.take i.lanes.length) }
        let s2 := if laneAcq i.x o && !i.lanes.isEmpty then s1.l1Acquire i.x.hamper else s1
        .go (out.long i op [] [] (s2.setFifo i.x b (q.drop i.lanes.length))))

/-- The strand that holds a pending operation: coil, strand, operation. -/
def State.longOf (s : State) (op : Nat) : Option (Nat × Nat × LongOp) :=
  s.coils.findSome? (fun c =>
    ((upFrom 0 c.2.strands.length).findSome? (fun i => match c.2.strands[i]? with
      | some st => (Dict.find? st.longs op).map (fun g => (c.1, i, g))
      | none => none)))

/-- A pending operation's writes take effect, and it is no longer pending (R120, R153, R319). -/
def Strand.complete (st : Strand) (w op : Nat) (g : LongOp) : Strand :=
  let st := { st with longs := Dict.del st.longs op, fpf := st.fpf ||| g.flags }
  let st := st.putV g.vWrites
  let st := g.kWrites.foldl (fun st k => st.putK w g.path (kSpec k.1) k.2.1 k.2.2) st
  let st := g.sWrites.foldl (fun st e => st.putS e.1 e.2.1 e.2.2) st
  st.landed op

/-- One sub-element of a lane, one lane, or one bit of a mask of a pending write takes effect before its instruction completes (R120). -/
def State.landEarly (s : State) (op : Nat) : State :=
  let s1 := s.draw.draw
  match s1.longOf op with
  | none => s1
  | some (k, i, g) =>
    let n := 64 / g.width
    let j := Config.choice s.tick % (g.vWrites.length + g.kWrites.length)
    let e := Config.choice (s.tick + 1)
    match g.vWrites[j]? with
    | some (key, v, bad) =>
      if (s1.coilBolt? k).any (fun c => s1.holdsBack k i c.2.desc.lanes [(key, v, bad)]) then s1
      else s1.updStrand k i (fun st =>
        if e % (n + 1) = n then { st.putV [(key, v, bad)] with longs := Dict.put st.longs op { g with vWrites := g.vWrites.eraseIdx j } }
        else st.putV [(key, setElem g.width (e % (n + 1)) (Tab.get 0 st.vregs key) (elem g.width (e % (n + 1)) v), bad || Tab.get false st.vpoison key)])
    | none => (match g.kWrites[j - g.vWrites.length]?, s1.coilBolt? k with
      | some (m, lanes, b), some (_, bolt) =>
        if m = 16 then s1 else s1.updStrand k i (fun st => st.putK bolt.desc.lanes g.path (kSpec m) (lanes &&& maskOf [e % 64]) b)
      | _, _ => s1)

/-- The lanes that a response refused trap at the instruction, whose other lanes stay performed (R54, R258, R260). -/
def State.lateTrap (s : State) (x : Issuer) (op : Nat) (g : LongOp) : State :=
  let all := g.fails
  let cause := (topCause (all.map (fun e => (e.1, e.2.1, 0)))).getD .fabricAccess
  let bad := maskOf (all.map Prod.fst)
  let t : TrapInfo :=
    { cause := cause, memory := true, laneMask := maskOf ((all.filter (fun e => e.2.1 == cause)).map Prod.fst)
      other := maskOf ((all.filter (fun e => e.2.1 != cause)).map Prod.fst), performed := g.act &&& ~~~bad
      lcause := Tab.setAll 0 [] (all.map (fun e => (e.1, e.2.1.code))), laddr := Tab.setAll 0 [] (all.map (fun e => (e.1, e.2.2))) }
  let s1 := s.updStrand x.id.coil x.id.strand (fun st =>
    st.complete x.w op { g with vWrites := g.vWrites.filter (fun w => !bad.getLsbD (w.1 % 64)) })
  if g.pos = 255 then s1.takeTrap x (scalarTrap x g.insn { t with laneMask := 0, other := 0, performed := 0, lcause := [] })
  else match x.strand.running with
    | none => s1
    | some r =>
      let r1 := { r with pos := g.pos, after := some r.pos }
      let s2 := s1.updStrand x.id.coil x.id.strand (fun st => { st with running := some r1 })
      s2.takeTrap x (laneTrap x r1 g.act t)

/-- A failure that an answer brings can stop its path now: its lane stream is open, and stands at no reissue (R260). -/
def Issuer.mayLateTrap (x : Issuer) : Bool := x.path.park.lanesOpen && x.strand.running.all (fun r => r.after.isNone)

/-- LANE_LONG_COMPLETE: the writes of a long instruction, or of one whose answers have all come, take effect; an acquire whose values came from
outside acquires now. Writes to a register that a multiply holds wait for it (R120, R165, R211, R335). -/
def execLaneLongComplete (op : Nat) (s : State) : Out :=
  .next (match s.longOf op with
    | none => s
    | some (k, i, g) =>
      if g.remote ≠ [] ∨ g.held = true then s
      else match s.coilBolt? k with
        | none => s
        | some (_, b) =>
          if s.holdsBack k i b.desc.lanes g.vWrites then s.push [.laneLongComplete op]
          else if g.fails = [] then
            let id : PathId := { coil := k, strand := i, path := g.path }
            let s1 := (s.acquireOf id g.acq).updStrand k i (fun st => st.complete b.desc.lanes op g)
            let s2 := if g.pos = 255 then s1.updPath id (fun p => { p with pc := p.pc + 4 }) else s1
            let s3 := if g.kWrites.any (fun w => w.1 == 16) then
              (match s2.issuerAt id with
              | some y => s2.traceEm y y.path.em
              | none => s2) else s2
            s3.settleCoil k
          else match s.issuerAt { coil := k, strand := i, path := g.path } with
            | none => (s.updStrand k i (fun st => st.complete b.desc.lanes op g)).settleCoil k
            | some x => if x.mayLateTrap then s.lateTrap x op g else s.push [.laneLongComplete op])

/-- The value of a part in a request's answer. -/
def partValue (r : RemoteReq) (data : List Byte) (p : RemotePart) : W64 :=
  let n := ofBytes ((data.drop p.pos).take p.len)
  if r.signed then sext64 (8 * p.len) n else BitVec.ofNat 64 n

/-- What an answer brings: bytes and flags, or the cause that the lanes concerned meet. -/
inductive Answer where
  | ok (data : List Byte) (poisoned : Bool) (flags : FpFlags)
  | fail (c : Cause)
  deriving DecidableEq, Repr

/-- A path is parked on the word that a request polls. -/
def Issuer.polls (x : Issuer) (r : RemoteReq) : Bool :=
  match x.path.park with
  | .waitMem va _ _ => r.parts.any (fun p => p.va == va)
  | .twait _ _ va _ _ => r.parts.any (fun p => p.va == va)
  | _ => false

/-- A polled word has come for a parked wait (R344, R389): the wait is settled by it, or the word is asked for again. A poisoned word is consumed,
but for one that a `twait` reads again. -/
def State.pollAnswer (s : State) (r : RemoteReq) (x : Issuer) (v : W64) (bad : Bool) : State :=
  let poison (va : W64) : State := s.takeTrap x (scalarTrap x (s.wordsAt x) (scalarCause .poison va.toNat true))
  match x.path.park with
  | .waitMem va n sc =>
    if bad then poison va
    else if n.toNat ≤ v.toNat then (s.acquireAt x (if r.port = 255 then 4 else max 3 sc.toNat)).resumeAfter x.id 4
    else s.push [.waitMemRecheck x.id]
  | .twait c late va seen d =>
    (match seen with
     | none =>
       if bad then poison va
       else if late then s.twaitWake x c.toNat d false
       else ((s.acquireAt x 2).setPark x.id (.twait c late va (some v) d)).push [.waitMemRecheck x.id]
     | some w => if bad || v == w then s.push [.waitMemRecheck x.id] else s.twaitWake x c.toNat d true)
  | _ => s

/-- The register writes that an answer brings to the parts of a request: lane registers, then scalar registers. -/
def partWrites (r : RemoteReq) (data : List Byte) (bad : Bool) : List (Nat × W64 × Bool) × List (Nat × W64 × Bool) :=
  let all := (r.parts.filter (fun p => p.dst != 2 ^ 20)).map (fun p => (p.dst, partValue r data p, bad))
  (all.filter (fun e => decide (e.1 < 2 ^ 16)), (all.filter (fun e => decide (2 ^ 16 ≤ e.1))).map (fun e => (e.1 - 2 ^ 16, e.2)))

/-- The bytes that an answer brings to copy lanes (R382). -/
def State.copyAnswer (s : State) (r : RemoteReq) (data : List Byte) (bad : Bool) : State :=
  r.parts.foldl (fun s p =>
    let j := p.dst % 4
    { s with copies := Dict.upd s.copies (p.dst / 4) (fun c =>
        let n := min p.len (32 - 8 * j)
        { c with bytes := c.bytes.take (8 * j) ++ ((data.drop p.pos).take n) ++ c.bytes.drop (8 * j + n), poison := c.poison.set j bad }) }) s

/-- The cause that a reader meets; whatever the host, or a peer over PCI Express, refuses of a chunk is an error of the fabric (R143; log 99). -/
def readerCause (r : RemoteReq) (rd : Reader) (c : Cause) : Cause :=
  match rd with
  | .chunk _ _ _ => if 254 ≤ r.port ∧ c = .fabricAccess then .fabricUnreachable else c
  | _ => c

/-- An answer is kept for the reader that asked; poison that comes from the host fails a chunk (R143). -/
def State.keepAnswer (s : State) (r : RemoteReq) (a : Answer) : State :=
  match r.reader with
  | none => s
  | some rd =>
    let entry (p : RemotePart) : Option Arrived := match a with
      | .ok data bad _ =>
        if bad && r.port == 255 && (match rd with | .chunk _ _ _ => true | _ => false) then
          some { reader := rd, kind := r.kind, va := p.va.toNat, size := p.len, bytes := [], poisoned := false, cause := some .fabricUnreachable }
        else if r.kind = .write && (match rd with | .path _ _ => false | _ => true) then none
        else some { reader := rd, kind := r.kind, va := p.va.toNat, size := p.len, bytes := (data.drop p.pos).take p.len, poisoned := bad, cause := none }
      | .fail c => some { reader := rd, kind := r.kind, va := p.va.toNat, size := p.len, bytes := [], poisoned := false, cause := some (readerCause r rd c) }
    ({ s with arrived := r.parts.filterMap entry ++ s.arrived } : State).wakeReader rd

/-- An answer to a request has come, or its absence is known: its parts are filled or refused, and the operation that waits for it
goes on when every answer has come (R42, R48, R54, R143, R320). -/
def State.answer (s : State) (id : Nat) (a : Answer) : State :=
  match Dict.find? s.remotes id with
  | none => s
  | some r =>
    let s := { s with remotes := Dict.del s.remotes id }
    if r.gone then s
    else if r.reader.isSome then s.keepAnswer r a
    else if r.poll then
      match s.issuerAt r.p with
      | none => s
      | some x =>
        if !x.polls r then s
        else match a with
          | .ok data bad _ => s.pollAnswer r x (BitVec.ofNat 64 (ofBytes ((data.drop (match r.parts with | p :: _ => p.pos | [] => 0)).take 8))) bad
          | .fail c => s.takeTrap x (scalarTrap x (s.wordsAt x) (scalarCause c (match r.parts with | p :: _ => p.va.toNat | [] => 0) true))
    else
      match s.longOf r.op with
      | none => s
      | some (k, i, g) =>
        let left := g.remote.filter (fun x => x != id)
        let g1 : LongOp := match a with
          | .ok data bad f =>
            let (vw, sw) := if r.copy then ([], []) else partWrites r data bad
            { g with remote := left, vWrites := g.vWrites ++ vw, sWrites := g.sWrites ++ sw, flags := if r.red then g.flags else g.flags ||| f }
          | .fail c => { g with remote := left, fails := g.fails ++ r.parts.map (fun p => (p.lane, c, p.va)) }
        let s1 := s.updStrand k i (fun st => { st with longs := Dict.put st.longs r.op g1 })
        let s2 := match a with
          | .ok data bad f =>
            if r.copy then s1.copyAnswer r data bad
            else if r.red then s1.mergeOrKeep r.p f else s1
          | .fail _ =>
            if r.copy then
              { s1 with copies := s1.copies.filter (fun c => !(r.parts.any (fun p => p.dst / 4 == c.1))) }
            else s1
        let s3 := if left = [] then s2.push [.laneLongComplete r.op] else s2
        if r.copy && left == [] then
          s3.push ((s3.copies.filter (fun c => c.2.p.coil == k && c.2.p.strand == i
            && !(s3.agenda.contains (.laneAccessFinish c.1)))).map (fun c => .laneAccessFinish c.1))
        else s3

end Sys2Proof.Machine
end

