-- ==== Sys2Proof/Machine/Fetch.lean ====
section
/-! DEFINITION. Reads that may leave the device before their reader goes on, the fetch of code, and breakpoints (R141, R143, R192, R263,
R273, R287, R288, R450). -/

namespace Sys2Proof.Machine

open Sys2Proof

/-- What a read comes to. -/
inductive Got where
  | data (l : List Byte) (bad : Bool)
  /-- An answer from outside is awaited. -/
  | later
  | cause (c : Cause)
  /-- A failed translation: CAUSE, LEVEL, PTE_PA. -/
  | fault (cause level pte : Nat)
  deriving DecidableEq, Repr

/-- The path on whose behalf a reader reads. -/
def Reader.owner : Reader → PathId
  | .path p _ => p
  | .engine _ => noPath
  | .chunk _ _ _ => noPath
  | .packet _ _ => noPath
  | .bteQueue _ => noPath
  | .queue _ => noPath
  | .yoke _ => noPath

/-- The answer kept for a reader's access. -/
def State.arrivedFor (s : State) (rd : Reader) (kind : AccessKind) (va n : Nat) : Option Arrived :=
  s.arrived.find? (fun a => a.reader == rd && a.kind == kind && a.va == va && a.size == n)

/-- A reader goes on: what was kept for it is used up. -/
def State.forget (s : State) (rd : Reader) : State := { s with arrived := s.arrived.filter (fun a => a.reader != rd) }

/-- An access at a place outside the device: the answer kept, or a request for it (R47, R48, R143). An answer kept for a path's write has
no bytes. -/
def State.remoteDo (s : State) (rd : Reader) (p : Place) (kind : AccessKind) (va n : Nat) (data : List Byte)
    (atom : Option (AtomicOp × Nat)) : Got × State :=
  match s.arrivedFor rd kind va n with
  | some a => (match a.cause with
    | some c => (.cause c, s)
    | none => (.data a.bytes a.poisoned, s))
  | none =>
    if s.remotes.any (fun r => r.2.reader == some rd && r.2.kind == kind && r.2.parts.any (fun q => q.va.toNat == va && q.len == n)) then
      (.later, s)
    else
      (.later, (s.sendAll { p := rd.owner, op := 0, parts := [], kind := kind, size := n, reader := some rd, atom := atom }
        [{ lane := 0, place := p, va := BitVec.ofNat 64 va, dst := 2 ^ 20, data := data }]).2)

/-- A read at a place outside the device. -/
def State.readRemote (s : State) (rd : Reader) (p : Place) (va n : Nat) : Got × State := s.remoteDo rd p .read va n [] none

/-- Before a reader of a Hamper reads: lines that it reads at the L2 leave the L1 of the Hamper, and so do those over which its engines have
written where an engine with a timeline reads (R169, R211). -/
def State.readyFor (s : State) (w : Who) (rd : Reader) (p : Place) (n : Nat) : State :=
  match p, w.l1 with
  | .mem pa, some h => s.l1Flush h pa n
  | .l1 h pa, _ => (match rd with
    | .engine op => (match Dict.find? s.ops op with
      | some o => if o.ctx ≤ 2 then s.l1Renew h pa n else s
      | none => s)
    | _ => s)
  | _, _ => s

/-- A read of bytes that lie in one page, for a reader (R141, R192, R450). -/
def State.readFor (s : State) (w : Who) (rd : Reader) (v : View) (a : Acc) : Got × State :=
  match s.judge w a with
  | (.cause c, s1) => (.cause c, s1.noteUnreach c)
  | (.fault c l p, s1) => (.fault c l p, s1)
  | (.ok p, s1) =>
    if s1.refuses p .read then (.cause .fabricAccess, s1)
    else if p.isRemote then s1.readRemote rd p a.va a.size
    else
      let s2 := s1.readyFor w rd p a.size
      let (l, bad) := s2.load v (w.coil.bind (fun (c, _, _) => some c)) p a.size
      (.data l bad, s2.afterLoad p a.size)

/-- A code word that was fetched ahead for a bolt (R288). -/
def State.codeHeld (s : State) (bid pa : Nat) : Option (Nat × Bool) :=
  ((Dict.find? s.bolts bid).bind (fun b => b.code.find? (fun e => e.1 == pa))).map Prod.snd

/-- A code word is fetched ahead for a bolt: any executable word of this device's memory whose translation is cached (R155, R288). A later
store to it may then be fetched or not. -/
def State.codeAhead (s : State) (bid : Nat) : State :=
  let s1 := s.draw.draw
  let va := 4 * (Config.choice s.tick % 2 ^ 62)
  match Dict.find? s.bolts bid with
  | none => s1
  | some b =>
    if inPeerWin va || !canonical (BitVec.ofNat 64 va) || (s1.winOff b.asid va).isSome then s1
    else match s1.tlbFind (.hamper (Config.choice (s.tick + 1) % s1.hampers)) b.asid va .execute with
      | none => s1
      | some e =>
        let pa := e.pbase + (va - e.vbase)
        if inRegSpace pa || inHostWin pa || decide (s1.memBytes < pa + 4) then s1
        else
          let (l, bad, s2) := s1.read pa 4
          { s2 with bolts := Dict.upd s2.bolts bid (fun b => { b with code := (pa, ofBytes l, bad) :: b.code.filter (fun e => e.1 != pa) }) }

/-- One of the code words fetched ahead for a bolt is fetched again at its next use (R288). -/
def State.codeDrop (s : State) (bid : Nat) : State :=
  { s.draw with bolts := Dict.upd s.bolts bid (fun b => { b with code := b.code.eraseIdx (Config.choice s.tick % b.code.length) }) }

/-- A code word of a path: as it was fetched ahead, or as it stands in memory (R287, R288). -/
def State.fetchWord (s : State) (x : Issuer) (stream va : Nat) : Got × State :=
  if inPeerWin va then (.cause .fabricAccess, s)
  else if !canonical (BitVec.ofNat 64 va) then (.cause .addrNoncanonical, s)
  else if (s.winOff x.asid va).isSome then (.cause .scratchRange, s)
  else match s.translate (.hamper x.hamper) x.asid va .execute with
    | (.fail c l p, s1) => (.fault c l p, s1)
    | (.ok pa, s1) =>
      if inRegSpace pa then (.cause .sysSpaceAccess, s1)
      else if inHostWin pa then s1.readRemote (.path x.id stream) (.host pa) va 4
      else match s1.codeHeld x.coil.bolt pa with
        | some (v, bad) => (.data (toBytes 4 v) bad, s1)
        | none =>
          let (l, bad, s2) := s1.read pa 4
          (.data l bad, s2)

/-- What the fetch of the code words of an instruction comes to; `rest` continues with a word. -/
inductive Fetched where
  | instr (i : Instr)
  | trap (t : TrapInfo)
  | fault (va cause level pte : Nat)
  | later
  deriving DecidableEq, Repr

/-- Fetches and decodes the scalar instruction at which a path stands (R285, R287, R294). -/
def State.fetchScalar (s : State) (x : Issuer) : Fetched × State :=
  let pc := x.path.pc.toNat
  match s.fetchWord x 0 pc with
  | (.later, s1) => (.later, s1)
  | (.cause c, s1) => (.trap { cause := c }, s1)
  | (.fault c l p, s1) => (.fault pc c l p, s1)
  | (.data b0 bad0, s1) =>
    let w0 := ofBytes b0
    if bad0 then (.trap { cause := .poison, insn := BitVec.ofNat 96 w0 }, s1)
    else if isSx w0 then
      let pc1 := (pc + 4) % 2 ^ 64
      match s1.fetchWord x 0 pc1 with
      | (.later, s2) => (.later, s2)
      | (.cause c, s2) => (.trap { cause := c, insn := BitVec.ofNat 96 w0 }, s2)
      | (.fault c l p, s2) => (.fault pc1 c l p, s2)
      | (.data b1 bad1, s2) =>
        let w := BitVec.ofNat 96 (w0 + 2 ^ 32 * ofBytes b1)
        if bad1 then (.trap { cause := .poison, insn := w }, s2)
        else match decodeScalar w0 (ofBytes b1) with
          | some i => (.instr i, s2.forget (.path x.id 0))
          | none => (.trap { cause := .illegalInstruction, insn := w }, s2)
    else match decodeScalar w0 0 with
      | some i => (.instr i, s1.forget (.path x.id 0))
      | none => (.trap { cause := .illegalInstruction, insn := BitVec.ofNat 96 w0 }, s1)

/-- A path parks on a fault of a code fetch, or waits while the fault queue takes no record (R69, R287). -/
def State.fetchFault (s : State) (x : Issuer) (stream va cause level pte : Nat) : State :=
  match s.postFault x.source x.asid { kind := .execute, va := va, size := 4 } cause level pte (.path x.id 0) with
  | none => s
  | some (i, s1) => s1.setPark x.id (.fault [(i, 0)] false 0 stream (Tab.set 0 [] 0 (BitVec.ofNat 64 va)))

/-- A path traps at the scalar instruction at which it stands, before decoding (R259, R294). -/
def State.fetchTrap (s : State) (x : Issuer) (t : TrapInfo) : State :=
  (s.issuedS x.id).takeTrap x (scalarTrap x t.insn t)

/-- The breakpoint of a KIND that an address matches in an address space (R273). -/
def State.breakpoint (s : State) (asid kind : Nat) (a : W64) : Option Nat :=
  (upFrom 0 8).find? (fun n =>
    let c := s.regN (aBpCtl n)
    bit c 0 && bits c 1 1 == kind && bits c 47 32 == asid && s.reg (aBpAddr n) == a)

/-- An instruction of a coil has not issued: its count stands (R137). -/
def sameCount (s t : State) (k : Nat) : Bool :=
  match s.coil? k, t.coil? k with
  | some a, some b => a.insnUsed == b.insnUsed
  | _, _ => false

/-- Where a scalar instruction that would issue meets a breakpoint, the coil stops before it with STOP_CAUSE 1 (R273). -/
def State.breakOr (s : State) (x : Issuer) (after : Out) : Out :=
  match after with
  | .next t =>
    if x.path.bpPass || sameCount s t x.id.coil then .next t
    else match s.breakpoint x.asid 0 x.path.pc with
      | some n => .next ((s.updPath x.id (fun p => { p with bpPass := true })).debugStopCoil x.id.coil (1, n))
      | none => .next t
  | .fault f => .fault f
  | .refused r => .refused r

end Sys2Proof.Machine
end

