-- ==== Sys2Proof/Machine/Ply.lean ====
section
/-! DEFINITION. Ply instructions: transactions, their rendezvous and commit, handles and stamps; ply regions and the picker (R184-R208,
R427-R430, R454). -/

namespace Sys2Proof.Machine

open Sys2Proof

/-- A handle as a register holds it (R194). -/
def Snap.handle (n : Snap) : W64 := BitVec.ofNat 64 (n.gen % 2 ^ 32 * 2 ^ 32 + n.entry)

/-- The snapshot of a handle that the coil holds (R194). -/
def Coil.heldHandle (c : Coil) (h : W64) : Option Snap := c.handles.find? (fun n => n.handle == h)

/-- A result in the layout of R202: 0 for success, else a cause with what CONFLICT adds. -/
def State.plyResult (s : State) (id : PathId) (d : BitVec 6) (v : Nat) : State :=
  let c := v % 256
  (s.setS id d.toNat (BitVec.ofNat 64 v) false).setScc id (sccOf (c == 0) false (c == 1 || c == 3 || c == 7 || c == 8) false)

/-- A root path without a live split-table entry (R197). -/
def Issuer.alone (x : Issuer) : Bool := x.isRoot && x.strand.entries.isEmpty

/-- The snapshot that a source names: none for a missing one; `.new` names none of these (R194, R428). -/
def plySource (x : Issuer) (c : BitVec 2) (h : W64) : Option Snap :=
  if c = 1 then x.bolt.snap else if c = 2 then x.coil.heldHandle h else none

/-- A transaction opens at a snapshot (R196). -/
def State.newTxn (s : State) (n : Snap) (holds : Bool) : Txn × State :=
  ({ tag := s.ply.nextTag, snap := n, holds := holds, aborted := none },
   { s with ply := { s.ply with nextTag := s.ply.nextTag + 1 } })

/-- What the opening of a transaction comes to (R428). -/
inductive Opening where
  | trap
  | full
  | ok (t : Txn) (s : State)
  deriving DecidableEq, Repr

/-- Takes the snapshot of a source and opens a transaction at it. -/
def State.opening (s : State) (x : Issuer) (c : BitVec 2) (h : W64) : Opening :=
  if c = 0 then
    match s.takeSnap with
    | none => .full
    | some (n, s1) => let (t, s2) := s1.newTxn n true; .ok t s2
  else match plySource x c h with
    | none => .trap
    | some n => let (t, s1) := s.newTxn n false; .ok t s1

/-- Reads of a ply instruction that takes a source. -/
def plyNeeds (d a : BitVec 6) (c : BitVec 2) : Needs :=
  { reads := if c = 2 then [a.toNat] else [], writes := [d.toNat], courses := true }

/-- `ply.begin`, strand form (R196, R197, R428). -/
def execPlyBegin (d a : BitVec 6) (c : BitVec 2) (s : State) : Out :=
  scalar s (.plyBegin d a c) (plyNeeds d a c) (fun x =>
    if !x.alone || x.strand.txn.isSome || x.coil.openTxn.isSome then trapNow s .plyState
    else match s.opening x c (x.s a) with
      | .trap => trapNow s .plyState
      | .full => .go (s.plyResult x.id d 7)
      | .ok t s1 => .go (((s1.acquireAt x 2).updStrand x.id.coil x.id.strand (fun st => { st with txn := some t })).plyResult x.id d 0))

/-- The lines of a write set. -/
def Tentative.lineVa (t : Tentative) : Nat := t.va / 128 % 2 ^ 50

/-- The commit of one line: its displaced ply is kept, and its tentative bytes and poison become current (R201). -/
def State.commitLine (s : State) (t : Tentative) : State :=
  let s1 := s.displace t.line
  (s1.poke (128 * t.line) (t.bytes.take 64) (t.poison.getD 0 false)).poke (128 * t.line + 64) (t.bytes.drop 64) (t.poison.getD 1 false)

/-- The commit of a transaction that is not aborted: its result, with the transaction's hold released (R201). -/
def State.commitTxn (s : State) (t : Txn) : Nat × State :=
  let w := s.writeSet t.tag
  if s.revoked t.snap then (3, s.dropTents t)
  else if w = [] then (0, s.dropTents t)
  else
    let hit := w.filter (fun x => decide (t.snap.stamp < s.stampOf x.line))
    match hit.map Tentative.lineVa with
    | v :: r => (1 + 256 * (r.foldl Nat.min v), s.dropTents t)
    | [] => (0, (w.foldl State.commitLine s.nextStamp).publish.dropTents t)

/-- Holders of copies of the lines of a write set are invalidated before the commit (R50). -/
def State.unsnoopSet (s : State) (t : Txn) : Bool × State :=
  if t.aborted.isSome || s.revoked t.snap then (true, s)
  else (s.writeSet t.tag).foldl (fun (ok, s) x => let (o, s1) := s.unsnoop (128 * x.line) 128; (ok && o, s1)) (true, s)

/-- `ply.commit`, strand form (R201, R429). -/
def execPlyCommit (d : BitVec 6) (s : State) : Out :=
  scalar s (.plyCommit d) { writes := [d.toNat], courses := true } (fun x =>
    match (if x.alone then x.strand.txn else none) with
    | none => trapNow s .plyState
    | some t =>
      if s.pendingWork x then .wait s
      else
        let s := s.releaseAt x 2
        let close (v : Nat) (s : State) : Act :=
          .go ((s.updStrand x.id.coil x.id.strand (fun st => { st with txn := none })).plyResult x.id d v)
        match t.aborted with
        | some c => close c s
        | none =>
          let (ok, s1) := s.unsnoopSet t
          if ok then (let (v, s2) := s1.commitTxn t; close v s2) else .wait s1)

/-- `ply.abort`, strand form (R200, R429). -/
def execPlyAbort (d : BitVec 6) (s : State) : Out :=
  scalar s (.plyAbort d) { writes := [d.toNat], courses := true } (fun x =>
    match (if x.alone then x.strand.txn else none) with
    | none => trapNow s .plyState
    | some t =>
      let s1 := if t.aborted.isSome then s else s.dropTents t
      .go ((s1.updStrand x.id.coil x.id.strand (fun st => { st with txn := none })).plyResult x.id d (t.aborted.getD 4)))

/-- The strands parked at the rendezvous of a coil, with their root paths. -/
def State.plyWaiters (s : State) (k : Nat) (c : Coil) : List Issuer :=
  (c.liveStrands.filterMap (fun i => s.issuerAt { coil := k, strand := i, path := 15 })).filter (fun x =>
    match x.path.park with | .plyRdv _ _ _ _ => true | _ => false)

/-- sd of a parked arrival. -/
def Issuer.plyDest (x : Issuer) : BitVec 6 :=
  match x.path.park with
  | .plyRdv _ _ _ d => d
  | _ => 0

/-- Source and handle of a parked arrival (R428). -/
def Issuer.plyArrival (x : Issuer) : BitVec 2 × W64 :=
  match x.path.park with
  | .plyRdv _ c h _ => (c, if c = 2 then h else 0)
  | _ => (0, 0)

/-- Every arrival receives one result and goes on. -/
def State.plyRelease (s : State) (l : List Issuer) (v : Nat) : State :=
  l.foldl (fun s x => (s.plyResult x.id x.plyDest v).resumeAfter x.id 4) s

/-- Every arrival traps `PLY_STATE`. -/
def State.plyTrapAll (s : State) (l : List Issuer) : State :=
  l.foldl (fun s x => s.takeTrap x (scalarTrap x (s.wordsAt x) { cause := .plyState })) s

/-- The rendezvous of a coil ends once every strand that has not ended, and has not had its report, has arrived (R196, R201, R428, R429). -/
def State.plySettle (s : State) (k : Nat) : State :=
  match s.coil? k with
  | none => s
  | some c =>
    let l := s.plyWaiters k c
    let need := c.liveStrands.filter (fun i => !(c.openTxn.isSome && c.plyReported.getLsbD i))
    match l with
    | [] => s
    | x :: _ =>
      if need.all (fun i => c.plyArrived.getLsbD i) then
        match c.openTxn with
        | none =>
          let s1 := s.updCoil k (fun c => { c with plyArrived := 0, plyReported := 0, txn := none })
          if l.any (fun y => y.plyArrival != x.plyArrival) then s1.plyTrapAll l
          else match s1.opening x x.plyArrival.1 x.plyArrival.2 with
            | .trap => s1.plyTrapAll l
            | .full => s1.plyRelease l 7
            | .ok t s2 => ((l.foldl (fun s y => s.acquireAt y 2) s2).updCoil k (fun c => { c with txn := some t })).plyRelease l 0
        | some t =>
          let close (v : Nat) (s : State) : State :=
            (s.updCoil k (fun c => { c with plyArrived := 0, plyReported := 0, txn := none })).plyRelease l v
          match t.aborted with
          | some c => close c s
          | none =>
            let (ok, s1) := s.unsnoopSet t
            if ok then (let (v, s2) := s1.commitTxn t; close v s2) else s1
      else s

/-- An arrival at the rendezvous is followed by its end when it is the last. -/
def plyRendezvous (s : State) : Out → Out
  | .next t => .next (match s.issuer with | some x => t.plySettle x.id.coil | none => t)
  | .fault f => .fault f
  | .refused r => .refused r

/-- The arrival of a strand at the rendezvous of its coil. -/
def plyArrive (s : State) (x : Issuer) (commit : Bool) (c : BitVec 2) (h : W64) (d : BitVec 6) : Act :=
  .park (s.updCoil x.id.coil (fun c => { c with plyArrived := c.plyArrived ||| maskOf [x.id.strand] })) (.plyRdv commit c h d)

/-- `ply.begin.coil` (R196, R197, R428). -/
def execPlyBeginCoil (d a : BitVec 6) (c : BitVec 2) (s : State) : Out :=
  plyRendezvous s (scalar s (.plyBeginCoil d a c) (plyNeeds d a c) (fun x =>
    if !x.alone || x.coil.openTxn.isSome || x.coil.strands.any (fun st => st.txn.isSome) then trapNow s .plyState
    else plyArrive s x false c (x.s a) d))

/-- `ply.commit.coil`: a release, then a rendezvous (R201, R429). -/
def execPlyCommitCoil (d : BitVec 6) (s : State) : Out :=
  plyRendezvous s (scalar s (.plyCommitCoil d) { writes := [d.toNat], courses := true } (fun x =>
    if !x.alone || x.coil.openTxn.isNone || x.coil.plyReported.getLsbD x.id.strand then trapNow s .plyState
    else if s.pendingWork x then .wait s
    else plyArrive (s.releaseAt x 2) x true 0 0 d))

/-- `ply.abort.coil`: the transaction aborts at once, and this strand has its report (R200, R201, R429). -/
def execPlyAbortCoil (d : BitVec 6) (s : State) : Out :=
  plyRendezvous s (scalar s (.plyAbortCoil d) { writes := [d.toNat], courses := true } (fun x =>
    match (if x.alone && !x.coil.plyReported.getLsbD x.id.strand then x.coil.openTxn else none) with
    | none => trapNow s .plyState
    | some t =>
      let s1 := if t.aborted.isSome then s else s.dropTents t
      .go ((s1.updCoil x.id.coil (fun c =>
        { c with txn := some { t with aborted := some (t.aborted.getD 4) }, plyReported := c.plyReported ||| maskOf [x.id.strand] })).plyResult
          x.id d (t.aborted.getD 4))))

/-- `ply.snap` (R194, R430). -/
def execPlySnap (d : BitVec 6) (s : State) : Out :=
  scalar s (.plySnap d) { writes := [d.toNat], courses := true } (fun x =>
    match (if x.coil.handles.length < 8 then s.takeSnap else none) with
    | none => .go (s.plyResult x.id d 7)
    | some (n, s1) =>
      .go (((s1.updCoil x.id.coil (fun c => { c with handles := c.handles ++ [n] })).setS x.id d.toNat n.handle false).setScc x.id
        (sccOf true false false false)))

/-- `ply.drop` (R194, R430). -/
def execPlyDrop (a : BitVec 6) (s : State) : Out :=
  scalar s (.plyDrop a) { reads := [a.toNat], courses := true } (fun x =>
    match x.coil.heldHandle (x.s a) with
    | none => trapNow s .plyState
    | some n =>
      .go (((s.updCoil x.id.coil (fun c => { c with handles := c.handles.erase n })).dropSnap n).setScc x.id (sccOf true false false false)))

/-- `ply.stamp` (R430, R454). -/
def execPlyStamp (d a : BitVec 6) (c : BitVec 2) (s : State) : Out :=
  scalar s (.plyStamp d a c) (plyNeeds d a c) (fun x =>
    let done (stamp : Nat) (revoked : Bool) : Act :=
      .go ((s.setS x.id d.toNat (BitVec.ofNat 64 stamp) false).setScc x.id (sccOf (!revoked) false false false))
    if c = 0 then
      match (match x.strand.txn with | some t => some t | none => x.coil.openTxn) with
      | none => trapNow s .plyState
      | some t => done t.snap.stamp (match t.aborted with | some e => e == 3 | none => s.revoked t.snap)
    else match plySource x c (x.s a) with
      | none => trapNow s .plyState
      | some n => done n.stamp (s.revoked n))

/-- `ply.clock` (R430). -/
def execPlyClock (d : BitVec 6) (s : State) : Out :=
  scalar s (.plyClock d) { writes := [d.toNat], courses := true } (fun x =>
    .go ((s.setS x.id d.toNat (BitVec.ofNat 64 s.ply.pub) false).setScc x.id (sccOf true false false false)))

/-- PICKER_FREE: older plies that no snapshot reaches are freed (R205). -/
def execPickerFree (s : State) : Out := .next s.pick

/-- PLY_SLOT_WAIT_REVOKE: one repetition for a commit that waits for a slot (R206). -/
def execPlySlotWaitRevoke (s : State) : Out := .next (if s.plyFree = 0 then s.slotWaitStep else s)

/-- PLY_REVOKE_TIMER: while few slots are free and the picker has nothing left to free, one entry is revoked (R206). -/
def execPlyRevokeTimer (s : State) : Out :=
  .next (if s.plyFree < s.regF aPlyCfg 31 16 * 2 ^ 16 ∧ s.pick = s then
      (match s.ply.victim with | some i => s.revoke i | none => s)
    else s)

/-- Base and size in bytes of the region that a register value declares (R184). -/
def rgnOf (v : Nat) : Nat × Nat := (bits v 39 21 * 2 ^ 21, (bits v 14 0 + 1) * 2 ^ 21)

/-- The KL9 accepts a region (R187). -/
def State.rgnFits (s : State) (i v : Nat) : Bool :=
  let (lo, n) := rgnOf v
  decide (lo + n ≤ s.carveBase) && s.regions.all (fun j => j == i || decide (lo + n ≤ s.rgnBase j) || decide (s.rgnBase j + s.rgnSize j ≤ lo))
    && decide ((s.regions.filter (fun j => s.regF (aPlyRgn j) 55 40 == bits v 55 40)).length < 32)
    && decide (n / 8 ≤ s.plyFree * 144)

/-- A region is declared, or refused (R187). -/
def State.declareRegion (s : State) (i v : Nat) : State :=
  if s.rgnFits i v then
    let (lo, n) := rgnOf v
    let s1 := (s.l1Purge lo n).setRegN (aPlyRgn i) v
    { s1 with ply := { s1.ply with lineStamp := Tab.clearRange s1.ply.lineStamp (lo / 128) ((lo + n) / 128) } }
  else (s.setRegN (aPlyRgn i) (v % 2 ^ 63)).setErr 2 1

/-- A transaction that wrote to a region aborts with RETIRED (R189). -/
def retireTxn (hit : List Nat) (t : Txn) : Txn := if hit.contains t.tag && t.aborted.isNone then { t with aborted := some 5 } else t

/-- The transactions of a coil and of its strands at the retirement of a region. -/
def Coil.retireTxns (hit : List Nat) (c : Coil) : Coil :=
  { c with txn := c.txn.map (retireTxn hit), strands := c.strands.map (fun st => { st with txn := st.txn.map (retireTxn hit) }) }

/-- A region is retired: transactions that wrote to it abort, its older plies and directory are freed, its current plies remain (R189). -/
def State.retireRegion (s : State) (i v : Nat) : State :=
  let lo := s.rgnBase i / 128
  let hi := (s.rgnBase i + s.rgnSize i) / 128
  let hit := ((s.ply.tents.filter (fun t => decide (lo ≤ t.line) && decide (t.line < hi))).map Tentative.tag).eraseDups
  let txns := s.coils.flatMap (fun c => (match c.2.txn with | some t => [t] | none => [])
    ++ c.2.strands.filterMap (fun st => st.txn))
  let s1 := (txns.filter (fun t => hit.contains t.tag)).foldl State.dropTents s
  let s2 := { s1 with
    coils := List.map (fun (e : Nat × Coil) => (e.1, e.2.retireTxns hit)) s1.coils
    ply := { s1.ply with
      olds := s1.ply.olds.filter (fun o => !(decide (lo ≤ o.line) && decide (o.line < hi)))
      lineStamp := Tab.clearRange s1.ply.lineStamp lo hi } }
  s2.setRegN (aPlyRgn i) (v % 2 ^ 63)

/-- A write to `PLY_RGN[i]` (R187, R189). -/
def State.writeRegion (s : State) (i v : Nat) : State :=
  if s.rgnValid i then (if bit v 63 then s else s.retireRegion i v)
  else if bit v 63 then s.declareRegion i v
  else s.setRegN (aPlyRgn i) v

/-- The bits of a `PLY_RGN` value that are not reserved. -/
def rgnBits (i : Nat) (v : W64) : Nat := v.toNat &&& (regInfo (aPlyRgn i)).rw

/-- PLY_RGN_DECLARE: a write that sets VALID (R187). -/
def execPlyRgnDeclare (i : Nat) (value : W64) (s : State) : Out :=
  .next (if i < 256 then s.writeRegion i (rgnBits i value ||| 2 ^ 63) else s)

/-- PLY_RGN_RETIRE: a write that clears VALID (R189). -/
def execPlyRgnRetire (i : Nat) (s : State) : Out :=
  .next (if i < 256 ∧ s.rgnValid i = true then s.retireRegion i (s.regN (aPlyRgn i)) else s)

end Sys2Proof.Machine
end

