-- ==== Sys2Proof/Machine/Course.lean ====
section
/-! DEFINITION. How a quadrant picks, how a course begins and ends, and how lanes are regrouped (R113-R121, R127, R128, R263, R273, R286-R288,
R300, R301, R370, R371). -/

namespace Sys2Proof.Machine

open Sys2Proof

/-- What the reading of a course comes to, with the position concerned (R301). -/
inductive CourseRead where
  | words (l : List W96)
  | trap (pos : Nat) (c : Cause) (insn : W96)
  | fault (va cause level pte : Nat)
  | later
  deriving DecidableEq, Repr

/-- Reads the three words of one position. -/
def State.readPosition (s : State) (x : Issuer) (addr pos : Nat) : List Nat → Nat → CourseRead × State
  | acc, 0 => (.words [BitVec.ofNat 96 (ofElems 32 acc)], s)
  | acc, n + 1 =>
    let va := (addr + 4 * acc.length) % 2 ^ 64
    match s.fetchWord x 2 va with
    | (.later, s1) => (.later, s1)
    | (.cause c, s1) => (.trap pos c (BitVec.ofNat 96 (ofElems 32 acc)), s1)
    | (.fault c l p, s1) => (.fault va c l p, s1)
    | (.data b bad, s1) =>
      if bad then (.trap pos .poison (BitVec.ofNat 96 (ofElems 32 (acc ++ [ofBytes b]))), s1)
      else State.readPosition s1 x addr pos (acc ++ [ofBytes b]) n

/-- A word is a trailer's (R300). -/
def isTrailer (w : W96) : Bool := bits w.toNat 31 24 == 0xFF

/-- Reads positions from `pos` on up to the first trailer, or up to 24 (R301). -/
def State.readCourse (s : State) (x : Issuer) (addr pos : Nat) : Nat → CourseRead × State
  | 0 => (.words [], s)
  | n + 1 =>
    match s.readPosition x ((addr + 12 * pos) % 2 ^ 64) pos [] 3 with
    | (.words [w], s1) =>
      if isTrailer w then (.words [w], s1)
      else (match State.readCourse s1 x addr (pos + 1) n with
        | (.words r, s2) => (.words (w :: r), s2)
        | (e, s2) => (e, s2))
    | (e, s1) => (e, s1)

/-- The words 0, 1 and 2 of a lane instruction, decoded (R286, R300, R303). -/
def decodeLaneWord (w : W96) : Option Instr :=
  decodeLane (w.toNat % 2 ^ 32) (w.toNat / 2 ^ 32 % 2 ^ 32) (w.toNat / 2 ^ 64)

/-- The slots of a trailer that name a register of one kind: lane registers 0, masks 1 (R300). -/
def trailerSlots (n : BitVec 4) (kind : Byte) (slots : W64) (k : Nat) : List Nat :=
  ((upFrom 0 n.toNat).filter (fun i => b2n (kind.getLsbD i) == k)).map (fun i => bits slots.toNat (8 * i + 7) (8 * i))

/-- The checks on the words that a course has: the position and the cause it meets (R301). -/
def courseCause (d : Desc) (l : List W96) : Option (Nat × Cause) :=
  match l.getLast? with
  | none => some (0, .illegalCourse)
  | some w =>
    let last := l.length - 1
    if !isTrailer w then some (24, .illegalCourse)
    else if last = 0 then some (0, .illegalCourse)
    else match decodeLaneWord w with
      | some (.courseTrailer n kind _ slots) =>
        if (trailerSlots n kind slots 0).any (fun v => decide (d.vregs ≤ v)) then some (last, .regUnreserved) else none
      | _ => some (last, .illegalInstruction)

/-- A trap at the start of a course: words that have come from the host are read again at a retry (R301). -/
def State.courseTrap (s : State) (x : Issuer) (c : Course) (pos : Nat) (cause : Cause) (insn : W96) : State :=
  (s.forget (.path x.id 2)).takeTrap x { cause := cause, stream := 1, ipc := c.addr + BitVec.ofNat 64 (12 * pos), spc := x.path.pc, active := x.path.em, insn := insn }

/-- A write to `em` by an earlier course of a path is pending (R121). -/
def Strand.emPending (st : Strand) (p : Nat) : Bool :=
  st.longs.any (fun e => e.2.path == p && e.2.kWrites.any (fun w => w.1 == 16))

/-- A coil issues from a path: it is resident, and no STEP holds the path back; once a STEP has had its instruction, a course that runs goes on to its
trailer (R131, R272). -/
def coilFree (x : Issuer) : Bool :=
  x.coil.issues && (match x.coil.stepOnly with
    | some (i, p, done) => x.id.strand == i && x.id.path == p && (!done || x.strand.running.isSome)
    | none => true)

/-- A STEP has had its scalar instruction (R272). -/
def Coil.stepped1 (c : Coil) : Bool := match c.stepOnly with | some (_, _, done) => done | none => false

/-- A path may issue from its scalar stream: it is not parked, its coil issues, and no STEP has had its instruction (R115, R272). -/
def pathFree (x : Issuer) : Bool := x.path.park == .running && coilFree x && !x.coil.stepped1

/-- A path that is not parked, or stands at a trap in its scalar stream, issues from its lane stream (R115, R259). -/
def lanesFree (x : Issuer) : Bool := x.path.park.lanesOpen && coilFree x

/-- COURSE_BEGIN: the head of a strand's course queue is read, checked and begun (R119, R273, R301). -/
def execCourseBegin (k i : Nat) (s : State) : Out :=
  .next (match s.strand? k i with
    | none => s
    | some st =>
      match st.running, st.queue with
      | none, c :: rest =>
        (match s.issuerAt { coil := k, strand := i, path := c.path } with
        | none => s
        | some x =>
          if !lanesFree x ∨ st.emPending c.path then s
          else match (if x.path.bpCourse then none else s.breakpoint x.asid 1 c.addr) with
            | some n => (s.updPath x.id (fun p => { p with bpCourse := true })).debugStopCoil k (1, n)
            | none =>
              match s.readCourse x c.addr.toNat 0 25 with
              | (.later, s1) => s1
              | (.fault va c l p, s1) => s1.fetchFault x 2 va c l p
              | (.trap pos cause w, s1) => s1.courseTrap x c pos cause w
              | (.words l, s1) =>
                match courseCause x.desc l with
                | some (pos, cause) => s1.courseTrap x c pos cause (l.getD pos 0)
                | none =>
                  ((s1.forget (.path x.id 2)).updStrand k i (fun st =>
                    { st with queue := rest, running := some { course := c, words := l, pos := 0, after := none } })).updPath x.id
                    (fun p => { p with bpCourse := false }))
      | _, _ => s)

/-- The course that runs on a strand ends: pending writes are awaited where they are listed, temporaries end, P rises (R117, R119,
R121, R297). -/
def Strand.endCourse (st : Strand) (number : Nat) (lane masks : List Nat) : Strand :=
  let close (g : LongOp) : LongOp :=
    if g.courseNumber = number ∧ !g.ended then
      { g with
        ended := true
        vWrites := g.vWrites.filter (fun w => decide (w.1 < 0xF0 * 64))
        awaited := g.vWrites.any (fun w => lane.contains (w.1 / 64)) || g.kWrites.any (fun w => masks.contains w.1) }
    else g
  { st with
    longs := List.map (fun (e : Nat × LongOp) => (e.1, close e.2)) st.longs
    vregs := Tab.clearRange st.vregs (0xF0 * 64) (0xF8 * 64)
    vpoison := Tab.clearRange st.vpoison (0xF0 * 64) (0xF8 * 64)
    running := none
    progress := st.progress + 1 }

/-- A trailer's YIELD: its path has taken its turn in the rotation of its quadrant, and takes no second one (R116, R300; log 85). -/
def State.yieldTurn (s : State) (x : Issuer) (yield : Bool) : State :=
  let q := 4 * x.hamper + x.strand.slot % 4
  if yield then { s with rotations := Tab.set Rotation.start s.rotations q { Tab.get Rotation.start s.rotations q with again := true } } else s

/-- The trailer of a course (R119, R121, R300). It waits for answers from outside to the course's own accesses (log 24). -/
def execCourseTrailer (n : BitVec 4) (kind : Byte) (yield : Bool) (slots : W64) (s : State) : Out :=
  match s.issuer with
  | none => .refused .noIssuer
  | some x => match x.strand.running with
    | none => .refused .noIssuer
    | some r =>
      .next (if x.strand.longs.any (fun e => e.2.courseNumber == r.course.number && e.2.pos != 255 && !e.2.ended
            && (e.2.remote != [] || e.2.fails != [])) then s
        else (s.yieldTurn x yield).updStrand x.id.coil x.id.strand (fun st =>
          st.endCourse r.course.number (trailerSlots n kind slots 0) (trailerSlots n kind slots 1)))

/-- Participants of a `reorder` of strand `i`: the vector-role strands of its half that have not ended (R127). -/
def participants (c : Coil) (d : Desc) (i : Nat) : List Nat :=
  c.liveStrands.filter (fun q => d.roleOf q == 4 && d.halfOf q == d.halfOf i)

/-- `reorder`: the strand arrives at the rendezvous (R127, R197, R370). -/
def execReorder (o : Lane) (s : State) : Out :=
  laneIssue s 0x70 o (fun i => if i.r.pos + 2 = i.r.words.length then none else some .illegalCourse) (fun _ => []) (fun i =>
    if i.x.strand.entries ≠ [] ∨ i.x.path.em ≠ i.x.strand.live then .trap s { cause := .reorderDivergent }
    else if (participants i.x.coil i.x.desc i.x.id.strand).any (fun q => (i.x.coil.strands[q]?).any (fun st => st.txn.isSome)) then
      .trap s { cause := .plyState }
    else .park (s.releaseAt i.x 1) .reorder)

/-- The lane instruction at which a strand's course stands. -/
def Running.lane (r : Running) : Lane :=
  let w := (r.words.getD r.pos 0).toNat
  laneFields (w % 2 ^ 32) (w / 2 ^ 32 % 2 ^ 32) (w / 2 ^ 64)

/-- A strand has arrived at a `reorder` and nothing of it is in flight (R127). -/
def Strand.arrivedReorder (st : Strand) : Bool :=
  st.root.park == .reorder && st.longs.isEmpty && (upFrom 0 7).all (fun sel => st.inFlight sel == 0)

/-- What one lane takes with it: its key, its old place, its registers, their poison, its mask bits, its `tid` (R128). -/
structure Moved where
  key : Nat
  vregs : List (Nat × W64 × Bool)
  masks : List Bool
  tid : W16

/-- The live lanes of a strand with what they take. -/
def movedLanes (x : Issuer) (r : Running) : List Moved :=
  let i : LaneIn := { x := x, r := r, o := r.lane, act := x.strand.live }
  (lanesOf x.strand.live x.w).map (fun l =>
    { key := (i.val 1 i.o.a.toNat l).toNat % 2 ^ 16
      vregs := (upFrom 0 x.desc.vregs).map (fun v => (v, Tab.get 0 x.strand.vregs (vKey v l), Tab.get false x.strand.vpoison (vKey v l)))
      masks := (upFrom 1 15).map (fun k => (Tab.get 0 x.strand.kregs k).getLsbD l)
      tid := Tab.get 0 x.strand.tids l })

/-- Inserts behind every entry whose key is not greater. -/
def insertMoved (m : Moved) : List Moved → List Moved
  | [] => [m]
  | a :: r => if a.key ≤ m.key then a :: insertMoved m r else m :: a :: r

/-- Stable sort by key (R128). -/
def sortMoved (l : List Moved) : List Moved := l.foldl (fun acc m => insertMoved m acc) []

/-- A strand on the lanes it has received; what a lane that received none then holds is free (R128, log 21). -/
def Strand.receive (st : Strand) (tick w vregs : Nat) (seq : W32) (l : List Moved) : Strand :=
  let n := l.length
  let at0 := (upFrom 0 n).zip l
  let vacant := upFrom n (w - n)
  let vr := at0.flatMap (fun e => e.2.vregs.map (fun v => (vKey v.1 e.1, v.2.1)))
    ++ vacant.flatMap (fun q => (upFrom 0 vregs).map (fun v => (vKey v q, Config.vacantLane tick (vKey v q))))
  let vp := at0.flatMap (fun e => e.2.vregs.map (fun v => (vKey v.1 e.1, v.2.2)))
    ++ vacant.flatMap (fun q => (upFrom 0 vregs).map (fun v => (vKey v q, false)))
  let kr := (upFrom 1 15).map (fun k =>
    (k, maskOf ((at0.filter (fun e => e.2.masks.getD (k - 1) false)).map Prod.fst
      ++ vacant.filter (fun q => (Config.vacantLane tick (0x10000 + k)).getLsbD q))))
  { st with
    vregs := Tab.setAll 0 st.vregs vr
    vpoison := Tab.setAll false st.vpoison vp
    kregs := Tab.setAll 0 st.kregs kr
    tids := Tab.setAll 0 st.tids (at0.map (fun (e : Nat × Moved) => (e.1, e.2.tid)) ++ vacant.map (fun q => (q, 0)))
    live := laneAll n
    flight := []
    root := { st.root.unpark with em := laneAll n, seq := seq } }.advance

/-- The regrouping of R128 among the participants of a strand's `reorder`, once all have arrived (R127, R371). -/
def State.regroup (s : State) (x : Issuer) : State :=
  let qs := participants x.coil x.desc x.id.strand
  let xs := qs.filterMap (fun q => s.issuerAt { coil := x.id.coil, strand := q, path := 15 })
  if xs.all (fun y => y.strand.arrivedReorder && !(s.copies.any (fun c => c.2.p.coil == y.id.coil && c.2.p.strand == y.id.strand))) then
    let lanes := sortMoved (xs.flatMap (fun y => match y.strand.running with | some r => movedLanes y r | none => []))
    let seq := xs.foldl (fun m y => if m.toNat < y.path.seq.toNat then y.path.seq else m) (0 : W32)
    ((upFrom 0 xs.length).zip xs).foldl (fun s e =>
      let mine := (lanes.drop (x.w * e.1)).take x.w
      let s1 := if mine = [] then s.traceEnd e.2 else s
      let s2 := s1.updStrand x.id.coil e.2.id.strand (fun st => st.receive s.tick x.w x.desc.vregs seq mine)
      if mine = [] then s2.endStrand x.id.coil e.2.id.strand
      else match s2.issuerAt e.2.id with
        | some y => s2.traceEm y y.path.em
        | none => s2) (s.draw.acquireAt x 1)
  else s

/-- A coil that has been ordered to stop runs its running courses to their trailers (R131). -/
def pathWindsUp (x : Issuer) : Bool :=
  (match x.coil.residency with | .stopping _ => true | _ => false)
    && (match x.strand.running with | some r => r.course.path == x.id.path | none => false)
    && (match x.path.park with
      | .fault _ _ _ n _ => n == 0
      | .reorder => false
      | .trap t _ _ => inScalar t
      | _ => true)

/-- A `cp.push` that has claimed its slot goes on to its end although its coil has been ordered to stop (R412). -/
def State.mustFinish (s : State) (x : Issuer) : Bool :=
  (match x.coil.residency with | .stopping _ => true | _ => false) && x.path.park == .running
    && s.arrived.any (fun a => a.reader == .path x.id 4 && a.kind == .atomic)

/-- A trap of an engine operation is due at this path's next scalar boundary (R392, R410). -/
def State.trapDue (s : State) (x : Issuer) : Bool :=
  s.agenda.any (fun i => match i with | .deferredTrap t => t.path == x.id | _ => false)

/-- The scalar stream of a path may issue. -/
def State.scalarOpen (s : State) (x : Issuer) : Bool := (pathFree x || s.mustFinish x) && !s.trapDue x

/-- Candidates of a quadrant in rotation order: place in that order, path (R113). -/
def State.candidates (s : State) (h q : Nat) : List (Nat × Issuer) :=
  ((s.pathsOn h).filter (fun x => x.strand.slot % 4 == q)).map (fun x => (x.place, x))

/-- The pick of R116 among candidates that may issue: `last` is one more than the place last picked. -/
def pickFrom (r : Rotation) (c : List (Nat × Issuer)) : Option (Nat × Issuer × Bool) :=
  match c with
  | [] => none
  | first :: _ =>
    match (if r.again then none else c.find? (fun e => e.1 + 1 == r.last && e.2.strand.urgent)) with
    | some e => some (e.1, e.2, true)
    | none => match c.find? (fun e => decide (r.last ≤ e.1)) with
      | some e => some (e.1, e.2, false)
      | none => some (first.1, first.2, false)

/-- Everything that a parked path waits for inside the machine, for one path: joins of the wait, and the regrouping. -/
def State.wakeOne (s : State) (id : PathId) : State :=
  match s.issuerAt id with
  | none => s
  | some x => if x.path.park = .reorder then (if x.coil.issues then s.regroup x else s)
    else if x.coil.issues then (match x.path.park with
      | .plyRdv _ _ _ _ => s.plySettle id.coil
      | _ => s.wakePath x)
    else s

/-- QUADRANT_PICK: parked paths whose condition holds resume, and one candidate receives the turn. A path that then issues from neither stream was
not ready, and the quadrant picks again among the others; after the last of them it has issued nothing (R113-R116). -/
def execQuadrantPick (h q : Nat) (s : State) : Out :=
  let ids := (s.candidates h q).map (fun e => e.2.id)
  let s1 := ids.foldl State.wakeOne s
  let r := Tab.get Rotation.start s1.rotations (4 * h + q)
  let free := (s1.candidates h q).filter (fun e => (lanesFree e.2 || pathWindsUp e.2 || s1.mustFinish e.2) && !r.skip.contains e.2.id)
  .next (match pickFrom r free with
    | none => if r.skip = [] then s1 else { s1 with rotations := Tab.set Rotation.start s1.rotations (4 * h + q) { r with skip := [] } }
    | some (n, x, again) =>
      { s1 with
        turn := some { id := x.id, lane := true, back := some (4 * h + q, r) }
        rotations := Tab.set Rotation.start s1.rotations (4 * h + q) { r with last := n + 1, again := again } })

/-- URGENCY_UPDATE: the predictor marks at most one strand of a coil and clears every P (R117). -/
def execUrgencyUpdate (k : Nat) (s : State) : Out :=
  .next (s.updCoil k (fun c =>
    let may (i : Nat) : Bool := match c.strands[i]? with
      | some st => !st.ended && (match st.root.park with | .upcall _ _ => false | .fault _ _ _ _ _ => false | _ => true)
      | none => false
    let p (i : Nat) : Nat := match c.strands[i]? with | some st => st.progress | none => 0
    let l := (upFrom 0 c.strands.length).filter may
    let hi := (l.map p).foldl Nat.max 0
    let low := l.foldl (fun b i => match b with | none => some i | some j => if p i < p j then some i else some j) none
    let urgent := match low with | some i => if p i + 16 ≤ hi then some i else none | none => none
    { c with strands := ((upFrom 0 c.strands.length).zip c.strands).map (fun e => { e.2 with progress := 0, urgent := urgent == some e.1 }) }))

end Sys2Proof.Machine
end

