-- ==== Sys2Proof/Machine/Turn.lean ====
section
/-! DEFINITION. What a step does beside the instruction it runs: the clock, the wall-time watchdogs, the turn of a path, and the placing of an
instruction where the machine fetches next (R3, R114, R137, R138, R269; log 1, 2, 22). -/

namespace Sys2Proof.Machine

open Sys2Proof

/-- A coil's wall time counts: it is resident, and neither stopped in place nor held by a debugger (R137, R138, R270). -/
def Coil.countsWall (c : Coil) : Bool :=
  !c.debugStop && (match c.residency with | .resident => true | .stopping _ => true | _ => false)

/-- WALL_USED of every resident coil grows by some microseconds; limits that are reached expire (R137, R138). -/
def State.countWall (s : State) (us : Nat) : State :=
  let hit := (s.coils.filter (fun e => e.2.countsWall && (match Dict.find? s.bolts e.2.bolt with
    | some b => b.desc.wallUs != 0 && decide (e.2.wallUsed < b.desc.wallUs) && decide (b.desc.wallUs ≤ e.2.wallUsed + us)
    | none => false))).map Prod.fst
  ({ s with coils := List.map (fun (e : Nat × Coil) =>
      (e.1, if e.2.countsWall then { e.2 with wallUsed := e.2.wallUsed + us } else e.2)) s.coils }).push (hit.map Instr.watchdogTimeExpiry)

/-- Time passes: core clocks and microseconds that no rule fixes (log 2). -/
def State.tickOn (s : State) : State :=
  ({ s with tick := s.tick + 1, clock := s.clock + Config.elapsed s.tick } : State).countWall (Config.micros s.tick)

/-- In a step something of a path has issued, or a course of its strand has begun or ended. -/
def issuedBetween (s t : State) (p : PathId) : Bool :=
  let seen (s : State) : Option (Nat × Nat × Bool) :=
    (s.strand? p.coil p.strand).map (fun st => (st.courses, st.progress, st.running.isSome))
  !sameCount s t p.coil || seen s != seen t

/-- Once a stream of the path that has the turn has been served: from the lane stream the turn goes to the scalar stream, then to none. A path that
has issued from neither was not ready: its quadrant picks again among the others as if it had not been picked (R114-R116). -/
def Turn.over (tn : Turn) (s t : State) : State :=
  let used := tn.used || issuedBetween s t tn.id
  if tn.lane then { t with turn := some { tn with lane := false, used := used } }
  else
    match tn.back with
    | none => { t with turn := none }
    | some (q, r) =>
      let now := Tab.get Rotation.start t.rotations q
      { t with
        turn := none
        rotations := Tab.set Rotation.start t.rotations q
          (if used then { now with skip := [] } else { r with sample := now.sample, skip := tn.id :: r.skip }) }

/-- The turn of a stream is over. -/
def endTurn (tn : Turn) (s : State) : Out → Out
  | .next t => .next (tn.over s t)
  | .fault f => .fault f
  | .refused r => .refused r

/-- A lane instruction whose encoding is undefined traps where it stands (R301, R303). -/
def State.laneIllegal (s : State) (x : Issuer) (r : Running) : State :=
  (s.issued x.id).takeTrap x (laneTrap x r x.path.em { cause := .illegalInstruction })

/-- What the lane stream of the path that has the turn issues next. -/
inductive LaneNext where
  | instr (i : Instr)
  | illegal (r : Running)
  | idle
  deriving DecidableEq, Repr

/-- The next lane instruction of a path's running course, the start of its next course, or nothing (R114, R119). -/
def laneNext (x : Issuer) : LaneNext :=
  match x.strand.running with
  | some r =>
    if r.course.path = x.id.path ∧ (lanesFree x || pathWindsUp x) = true then
      (match decodeLaneWord (r.words.getD r.pos 0) with
      | some i => .instr i
      | none => .illegal r)
    else .idle
  | none => match x.strand.queue with
    | c :: _ => if c.path = x.id.path ∧ lanesFree x = true then .instr (.courseBegin x.id.coil x.id.strand) else .idle
    | [] => .idle

/-- A path of no work, in which withFetchWord places its instruction. -/
def freshPath (pc : W64) (em : Mask) : PathState :=
  { pc := pc, em := em, scc := 0, seq := 0, parent := 15, splitSince := false, park := .running, only := none, bpPass := false, bpCourse := false }

/-- A strand that has issued nothing, in a slot (R107). -/
def freshStrand (slot : Nat) (pc : W64) (live : Mask) : Strand where
  root := freshPath pc live
  entries := []
  sregs := []
  spoison := []
  vregs := []
  vpoison := []
  kregs := []
  live := live
  tids := []
  cvt := 0
  fpf := 0
  mxp := 0
  gang := 0
  mregs := []
  queue := []
  courses := 0
  running := none
  longs := []
  flight := []
  txn := none
  slot := slot
  ended := false
  gangRuns := []
  progress := 0
  urgent := false

/-- A coil at the start of its work (R107, R132). -/
def freshCoil (bolt x y z hamper placed : Nat) (strands : List Strand) (granules granulesOdd : List Nat) : Coil where
  bolt := bolt
  x := x
  y := y
  z := z
  hamper := hamper
  strands := strands
  bars := []
  barArmed := []
  barArrived := []
  barPoison := []
  hoops := []
  hoopInit := []
  codebook := []
  acc := []
  accPoison := []
  accStat := []
  tlIssued := []
  tlCount := []
  tlDone := []
  insnUsed := 0
  wallUsed := 0
  handles := []
  txn := none
  plyArrived := 0
  plyReported := 0
  latches := []
  granules := granules
  granulesOdd := granulesOdd
  residency := .resident
  debugStop := false
  stepOnly := none
  stopWhy := (0, 0)
  placedAt := placed
  image := []

/-- A bolt of one coil of one strand of a role, in which withFetchWord places its instruction (log 22). -/
def probeDesc (role : Nat) : Desc where
  scode := 0x1000
  lcode := 0x2000
  karg := 0
  gridX := 1
  gridY := 1
  gridZ := 1
  lanes := 32
  pair := false
  cores := false
  trapKill := false
  nstr := 1
  ncopy := b2n (role == 1)
  nmtx := b2n (role == 2)
  vregs := 240
  sregs := 64
  splits := 8
  bars := 16
  scratch := 16
  hoops := 8
  acc := 16
  cbslot := 8
  insnBudget := 0
  wallUs := 0
  rflags := 0
  addr := 0

/-- The role that may issue an instruction of these words: a lane instruction when `nbits` is above 64 (R108). -/
def probeRole (nbits w : Nat) : Nat :=
  if nbits > 64 then (if bits w 31 26 = 0x30 ∧ bits w 25 24 ≠ 3 ∧ bits w 27 27 = 0 then 2 else 4)
  else
    let op := bits w 31 26
    if 0x22 ≤ op ∧ op ≤ 0x26 then 2 else if op = 0x28 then 1 else 4

/-- A state in which one coil of one strand of a role is resident, its code page mapped, and its root path has the turn (log 22). -/
def State.probe (s : State) (role : Nat) (lane : Bool) (words : List W96) : State :=
  let d := probeDesc role
  let b : Bolt := { queue := 0, asid := 0, desc := d, snap := none, order := 0, prio := 0, nextCoil := 1, endedCoils := 0, killed := none }
  let st := freshStrand 0 d.scode (laneAll d.lanes)
  let c : Course := { addr := d.lcode, params := [0, 0, 0, 0], path := 15, number := 0 }
  let st := if lane then { st with running := some { course := c, words := words, pos := 0, after := none }, courses := 1 } else st
  { s with
    bolts := Dict.put s.bolts 0 b
    coils := Dict.put s.coils 0 (freshCoil 0 0 0 0 0 0 [st] (upFrom 0 16) [])
    tlb := { asid := 0, vbase := 0, size := 4096, pbase := 0, r := true, w := true, x := true, dirty := true } ::
           { asid := 0, vbase := 4096, size := 4096, pbase := 4096, r := true, w := true, x := true, dirty := true } :: s.tlb
    agenda := []
    turn := some { id := { coil := 0, strand := 0, path := 15 }, lane := lane } }

end Sys2Proof.Machine
end

