-- ==== Sys2Proof/Machine/Engine.lean ====
section
/-! DEFINITION. What the engines of a coil share: acceptance, numbers, operand reads, faults, early ends and the traps that follow them
(R141, R153, R178-R180, R210-R214, R392, R406, R410, R450). -/

namespace Sys2Proof.Machine

open Sys2Proof

/-- What the reads of several accesses come to. -/
inductive GotAll where
  | data (l : List (List Byte × Bool))
  | later
  | cause (c : Cause)
  | fault (a : Acc) (cause level pte : Nat)
  deriving DecidableEq, Repr

/-- Reads accesses in order, for a reader. -/
def State.readList (s : State) (w : Who) (rd : Reader) (v : View) : List Acc → GotAll × State
  | [] => (.data [], s)
  | a :: r =>
    match s.readFor w rd v a with
    | (.later, s1) => (.later, s1)
    | (.cause c, s1) => (.cause c, s1)
    | (.fault c l p, s1) => (.fault a c l p, s1)
    | (.data l bad, s1) =>
      match State.readList s1 w rd v r with
      | (.data t, s2) => (.data ((l, bad) :: t), s2)
      | (e, s2) => (e, s2)

/-- The pieces of at most `g` bytes, aligned to `g`, of `n` bytes from an address, as reads of an engine, which are not watched (R266). -/
def pieces (g : Nat) (kind : AccessKind) : Nat → Nat → Nat → List Acc
  | 0, _, _ => []
  | fuel + 1, va, n =>
    if n = 0 then []
    else
      let m := min n (g - va % g)
      { kind := kind, va := va % 2 ^ 64, size := m, watch := false, align := 1 } :: pieces g kind fuel (va + m) (n - m)

/-- Ranges of an interval of addresses modulo 2^64. -/
def rangesOf (lo n : Nat) : List (Nat × Nat) :=
  let a := lo % 2 ^ 64
  if n = 0 then [] else if a + n ≤ 2 ^ 64 then [(a, n)] else [(a, 2 ^ 64 - a), (0, n - (2 ^ 64 - a))]

/-- Some range meets the addresses from `a` to `b - 1`. -/
def meetsRange (l : List (Nat × Nat)) (a b : Nat) : Bool := l.any (fun r => decide (r.1 < b) && decide (a < r.1 + r.2))

/-- Bounds of the peer window and of the non-canonical hole (R40, R140). -/
def meetsPeer (l : List (Nat × Nat)) : Bool := meetsRange l 0xFFF8000000000000 0xFFFC000000000000
def meetsHole (l : List (Nat × Nat)) : Bool := meetsRange l (2 ^ 56) (2 ^ 64 - 2 ^ 56)

/-- Offsets of the scratchpad window that a half of a coil may access (R102). -/
def windowRanges (d : Desc) (half : Nat) : List (Nat × Nat) :=
  let one (tgt base : Nat) : List (Nat × Nat) :=
    (base, d.scratch * 1024) :: (if tgt = 0 then [(base + 0x78000, 8 * d.bars)] else [])
  one half 0 ++ (if d.pair then one (1 - half) (2 ^ 20) else [])

/-- Every offset from `lo` to `hi - 1` lies in some range. -/
def coveredBy (l : List (Nat × Nat)) : Nat → Nat → Nat → Bool
  | 0, lo, hi => decide (hi ≤ lo)
  | fuel + 1, lo, hi =>
    if hi ≤ lo then true
    else match l.find? (fun r => decide (r.1 ≤ lo) && decide (lo < r.1 + r.2)) with
      | some r => coveredBy l fuel (r.1 + r.2) hi
      | none => false

/-- Some part of the ranges lies in the scratchpad window beyond what the coil may access (R102, R210). -/
def State.meetsScratch (s : State) (asid : Nat) (d : Desc) (half : Nat) (l : List (Nat × Nat)) : Bool :=
  match s.swin asid with
  | none => false
  | some w => l.any (fun r =>
      let lo := max r.1 w
      let hi := min (r.1 + r.2) (w + 2 ^ 21)
      decide (lo < hi) && !coveredBy (windowRanges d half) 8 (lo - w) (hi - w))

/-- Some part of the ranges lies in the scratchpad window. -/
def State.meetsWindow (s : State) (asid : Nat) (l : List (Nat × Nat)) : Bool :=
  match s.swin asid with
  | none => false
  | some w => meetsRange l w (w + 2 ^ 21)

/-- The strands of a matrix operation with the tile of each; an operation without a tile shows 0 (R213). -/
def EngineOp.members (o : EngineOp) : List (Nat × Nat) :=
  match o.kind with
  | .mma _ _ _ shares _ _ _ _ _ _ _ _ _ => shares.map (fun m => (m.strand, m.tile))
  | .clr t => [(o.strand, t)]
  | .drain _ ctl _ _ _ _ _ => [(o.strand, bits ctl.toNat 7 4)]
  | _ => [(o.strand, 0)]

/-- Tiles that an operation acts on: key 16 × half + tile. -/
def EngineOp.tiles (o : EngineOp) : List Nat :=
  match o.kind with
  | .mma _ _ _ _ _ _ _ _ _ _ _ _ _ => o.members.map (fun m => 16 * o.half + m.2)
  | .clr _ => o.members.map (fun m => 16 * o.half + m.2)
  | .drain _ _ _ _ _ _ _ => o.members.map (fun m => 16 * o.half + m.2)
  | _ => []

/-- Codebook slots that an operation names (R211, R396). -/
def EngineOp.slots (o : EngineOp) : List Nat :=
  match o.kind with
  | .mma fmt _ _ shares _ _ _ _ _ _ cbb _ _ => if fmt = 11 then cbb :: shares.map MmaShare.cba else []
  | .cbld slot _ => [slot]
  | _ => []

def EngineOp.isCbld (o : EngineOp) : Bool := match o.kind with | .cbld _ _ => true | _ => false

/-- The shape word (R395). -/
structure Shape where
  m : Nat
  n : Nat
  tile : Nat
  ksteps : Nat
  vsa : Nat
  vsb : Nat
  bsa : Nat
  bsb : Nat
  cba : Nat
  cbb : Nat
  deriving DecidableEq, Repr

/-- Rows or columns of a code; none for 3. -/
def sizeOf2 (c : Nat) : Nat := if c = 3 then 0 else 16 * 2 ^ c

def shapeOfWord (w : W64) : Shape :=
  let x := w.toNat
  { m := sizeOf2 (bits x 1 0), n := sizeOf2 (bits x 3 2), tile := bits x 7 4, ksteps := bits x 28 8, vsa := bits x 39 32, vsb := bits x 47 40
    bsa := bits x 50 48, bsb := bits x 53 51, cba := bits x 56 54, cbb := bits x 59 57 }

/-- Members named by a `gang` value (R109). -/
def gangMembers (g : W64) : List Nat := (upFrom 0 (bits g.toNat 2 0)).map (fun j => bits g.toNat (6 * j + 8) (6 * j + 3))

/-- A member's share. -/
def shareOf (i : Nat) (a sa : W64) (p : Shape) : MmaShare :=
  { strand := i, a := a, sa := sa, m := p.m, tile := p.tile, vsa := p.vsa, bsa := p.bsa, cba := p.cba }

/-- The operation that a scalar matrix word starts, from its registers as read at acceptance, its `gang` value and `cvtmode`, with some K-steps
done (R134, R390): none for another word. -/
def opKindOf (w : Nat) (strand steps : Nat) (regs : List W64) (gang : W64) (cvt : W32) : Option OpKind :=
  let r (j : Nat) : W64 := regs.getD j 0
  let op := bits w 31 26
  if op = 0x22 then
    let p := shapeOfWord (r 4)
    some (.mma (w % 16) (bit w 4) false [shareOf strand (r 0) (r 1) p] (r 2) (r 3) p.n p.ksteps p.vsb p.bsb p.cbb strand steps)
  else if op = 0x23 then
    let p := shapeOfWord (r 4)
    let order := gangMembers gang
    let shares := ((upFrom 0 order.length).zip order).map (fun e => shareOf e.2 (r (2 + 3 * e.1)) (r (3 + 3 * e.1)) (shapeOfWord (r (4 + 3 * e.1))))
    some (.mma (w % 16) (bit w 4) true shares (r 0) (r 1) p.n p.ksteps p.vsb p.bsb p.cbb (order.headD 0) steps)
  else if op = 0x24 then some (.cbld (w % 8) (r 0))
  else if op = 0x25 then some (.clr (w % 16))
  else if op = 0x26 then some (.drain (regs.take 8) (r 8) (bit w 0) (bit w 1) cvt 0 0)
  else none

/-- K-steps completed (R213). -/
def EngineOp.steps (o : EngineOp) : Nat :=
  match o.kind with
  | .mma _ _ _ _ _ _ _ _ _ _ _ _ steps => steps
  | _ => 0

/-- The tile buffer of a coverage operation as an interval of scratchpad offsets, 2^20 to a half, and whether it only adds (R422). -/
def EngineOp.buffer (o : EngineOp) : Option (Nat × Nat × Bool) :=
  let at_ (word : W64) (adds : Bool) : Option (Nat × Nat × Bool) :=
    let x := word.toNat
    let far := bits x 20 20
    let half := if far = 1 then 1 - o.half else o.half
    some (half * 2 ^ 20 + bits x 19 0, 4 * 8 * 2 ^ bits x 22 21 * 8 * 2 ^ bits x 24 23, adds)
  match o.kind with
  | .covTile w _ => at_ w false
  | .covResolve w _ _ => at_ w false
  | .covSeg w _ => at_ w true
  | _ => none

def EngineOp.isBin (o : EngineOp) : Bool := match o.kind with | .covBin _ _ _ _ _ _ _ => true | _ => false

/-- Two coverage operations act on one buffer, or both bin: the later waits, except for additions, whose order no buffer shows
(R248, R422, R425). -/
def buffersClash (a b : EngineOp) : Bool :=
  (a.isBin && b.isBin) || (match a.buffer, b.buffer with
    | some (p, n, f), some (q, m, g) => !(f && g) && decide (p < q + m) && decide (q < p + n)
    | _, _ => false)

/-- An operation waits for older ones on its tiles and slots, or on its buffer (R211, R212, R399, R422). -/
def State.opBlocked (s : State) (op : Nat) (o : EngineOp) : Bool :=
  s.ops.any (fun e => decide (e.1 < op) && e.2.coil == o.coil && e.2.ctx == o.ctx && if o.ctx = 2 then buffersClash e.2 o else o.ctx == 0
    && (e.2.tiles.any o.tiles.contains || (e.2.slots.any o.slots.contains && (e.2.isCbld || o.isCbld))))

/-- `mxprog` of a strand: its oldest matrix operation that has not completed; TILE and STEPS stay after the last (R213, R406). -/
def State.mxProg (s : State) (k i : Nat) : State :=
  match List.find? (fun (e : Nat × EngineOp) => e.2.coil == k && e.2.ctx == 0 && e.2.members.any (fun m => m.1 == i)) s.ops with
  | some e =>
    let t := match e.2.members.find? (fun m => m.1 == i) with | some m => m.2 | none => 0
    s.updStrand k i (fun st => { st with mxp := BitVec.ofNat 64 (2 ^ 63 + t * 2 ^ 52 + e.2.steps) })
  | none => s.updStrand k i (fun st => { st with mxp := BitVec.ofNat 64 (st.mxp.toNat % 2 ^ 63) })

def State.mxProgAll (s : State) (o : EngineOp) : State :=
  if o.ctx = 0 then o.members.foldl (fun s m => s.mxProg o.coil m.1) s else s

/-- An engine accepts an operation, after a .coil release: its number in its context, and its event (R178, R180). Context 3 counts on T and has no number. -/
def State.accept (s : State) (x : Issuer) (ctx : Nat) (strand path : Nat) (pc : W64) (word : W96) (kind : OpKind)
    (regs : List W64 := []) (gang : W64 := 0) (froms : List (Nat × W64 × W96) := []) : Nat × State :=
  let (op, s1) := (if ctx ≤ 2 then s.releaseAt x 1 else s).fresh
  let n := if ctx ≤ 2 then (match s.coil? x.id.coil with | some c => c.tlNext ctx | none => 0) else 0
  let o : EngineOp := { coil := x.id.coil, strand := strand, path := path, ctx := ctx, number := n, half := x.half, pc := pc, word := word
                        kind := kind, faulted := false, regs := regs, gang := gang, froms := froms }
  let s2 := if ctx ≤ 2 then s1.updCoil x.id.coil (fun c => c.tlIssue ctx)
            else s1.updStrand x.id.coil strand (fun st => st.fly path op [2])
  (n, (({ s2 with ops := Dict.put s2.ops op o } : State).mxProgAll o).push [o.event op])

/-- An operation leaves its engine: its number completes, or its count on T falls (R153, R179). -/
def State.opGone (s : State) (op : Nat) (o : EngineOp) : State :=
  let s1 : State := { s with
    ops := Dict.del s.ops op
    arrived := s.arrived.filter (fun a => a.reader != .engine op)
    remotes := (s.disown (fun r => r.reader == some (.engine op))).remotes
    faults := List.map (fun (e : Nat × FaultRec) => (e.1, { e.2 with waiters := e.2.waiters.filter (fun w => w != .engine op) })) s.faults }
  let s2 := if o.ctx ≤ 2 then s1.updCoil o.coil (fun c => c.tlFinish o.ctx o.number)
            else s1.updStrand o.coil o.strand (fun st => st.landed op)
  (s2.mxProgAll o).settleCoil o.coil

/-- The operation was issued by a lane instruction. -/
def EngineOp.fromLane (o : EngineOp) : Bool :=
  match o.kind with
  | .ray _ _ _ _ _ _ _ _ => true
  | .beam _ _ _ _ => true
  | .covSeg _ _ => true
  | .covBin _ _ _ _ _ _ _ => true
  | _ => false

/-- Lanes that the trap of an early end names (R410). -/
def EngineOp.lanes (o : EngineOp) : Mask :=
  match o.kind with
  | .ray l _ _ _ _ _ _ _ => maskOf [l]
  | .beam _ _ _ l => maskOf [l]
  | .covBin _ lanes _ _ _ _ _ => maskOf (lanes.map BinLane.lane)
  | _ => 0

/-- The pending masks of a `cov.bin` that ends early are never written (R425). -/
def State.dropMasks (s : State) (o : EngineOp) : State :=
  match o.kind with
  | .covBin _ _ _ _ _ _ long => s.updStrand o.coil o.strand (fun st => { st with longs := Dict.del st.longs long })
  | _ => s

/-- The address and the words of the instruction of a strand that started an operation (R214). -/
def EngineOp.startedBy (o : EngineOp) (i : Nat) : W64 × W96 :=
  match o.froms.find? (fun e => e.1 == i) with
  | some e => e.2
  | none => (o.pc, o.word)

/-- An operation ends early: its number completes, and every issuing path traps at its next boundary, each for its own instruction (R214, R392,
R410). -/
def State.engineEnd (s : State) (op : Nat) (c : Cause) : State :=
  match Dict.find? s.ops op with
  | none => s
  | some o =>
    let info (i : Nat) : TrapInfo :=
      { cause := c, stream := b2n o.fromLane, ipc := (o.startedBy i).1, laneMask := o.lanes, insn := (o.startedBy i).2, deferred := true
        lcause := Tab.setAll 0 [] ((lanesOf o.lanes 64).map (fun l => (l, c.code))) }
    let traps := o.members.map (fun m =>
      Instr.deferredTrap { path := { coil := o.coil, strand := m.1, path := if o.members.length = 1 then o.path else 15 }, info := info m.1 })
    ((s.push traps).dropMasks o).opGone op o

/-- On whose behalf an operation reads. -/
def EngineOp.who (o : EngineOp) (c : Coil) (b : Bolt) : Who := { asid := b.asid, coil := some (c, b.desc, o.half), l1 := some (c.hamper + o.half), unit := .hamper (c.hamper + o.half) }

/-- The source of its fault records (R157). -/
def EngineOp.source (o : EngineOp) (c : Coil) : FaultSource :=
  { source := if o.ctx = 0 then 1 else if o.ctx = 2 then 4 else 3, hamper := c.hamper + o.half, bolt := c.bolt }

/-- An operation waits on a fault record; while the fault queue takes none it tries again (R69, R214). -/
def State.engineFault (s : State) (op : Nat) (o : EngineOp) (c : Coil) (b : Bolt) (a : Acc) (cause level pte : Nat) : State :=
  match s.postFault (o.source c) b.asid a cause level pte (.engine op) with
  | none => s.push [o.event op]
  | some (_, s1) => { s1 with ops := Dict.upd s1.ops op (fun o => { o with faulted := true }) }

/-- The cause with which an operation ends when an access meets a cause (R450). -/
def endCause (c : Cause) : Cause := if c == .sysSpaceAccess then .translation else c

/-- A cause that answers to an operation's writes outside the device brought (R143). -/
def State.writeCause (s : State) (rd : Reader) : Option Cause :=
  s.arrived.findSome? (fun a => if a.reader == rd then a.cause else none)

/-- Requests of a reader are outstanding. -/
def State.awaits (s : State) (rd : Reader) : Bool := s.remotes.any (fun r => r.2.reader == some rd)

/-- An engine goes on with an operation of a coil that runs or comes to a stop (R131, R407). Nothing happens while it waits on a fault or
on an answer. -/
def State.withOp (s : State) (op : Nat) (body : EngineOp → Coil → Bolt → State) : State :=
  match Dict.find? s.ops op with
  | none => s
  | some o => match s.coilBolt? o.coil with
    | none => s
    | some (c, b) =>
      let runs := match c.residency with | .resident => true | .stopping _ => true | _ => false
      if !runs || o.faulted || s.awaits (.engine op) then s
      else if s.opBlocked op o then s.push [o.event op]
      else body o c b

/-- Operand reads of an operation, then its effect on the bytes read. -/
def State.withOperands (s : State) (op : Nat) (o : EngineOp) (c : Coil) (b : Bolt) (accs : List Acc)
    (body : State → List (List Byte × Bool) → State) : State :=
  match s.readList (o.who c b) (.engine op) .current accs with
  | (.later, s1) => s1
  | (.cause e, s1) => s1.engineEnd op (endCause e)
  | (.fault a e l p, s1) => s1.engineFault op o c b a e l p
  | (.data l, s1) => body s1 l

/-- A write of an engine: into this device, or by a request whose answer the reader awaits (R48, R143, R217). -/
def State.engineWrite (s : State) (rd : Reader) (k i va : Nat) (p : Place) (l : List Byte) (bad : Bool) : State :=
  if p.isRemote then
    (s.sendAll { p := rd.owner, op := 0, parts := [], kind := .write, size := l.length, reader := some rd }
      [{ lane := 0, place := p, va := BitVec.ofNat 64 va, dst := 2 ^ 20, data := l, bad := bad }]).2
  else s.store .current k i va p l bad

/-- A write of a coil's engine is performed in the bank or at the L2 (R217, R419, R421). The writes of a beam, which its path sees without
an acquire, leave no line of the L1 behind (R343). -/
def State.opWrite (s : State) (o : EngineOp) (rd : Reader) (va : Nat) (p : Place) (l : List Byte) (bad : Bool) : State :=
  match p with
  | .l1 h pa => (if o.ctx ≤ 2 then s.l1Clean h pa l.length else s.l1Flush h pa l.length).engineWrite rd o.coil o.strand va (.mem pa) l bad
  | p => s.engineWrite rd o.coil o.strand va p l bad

/-- What the judgement of an engine's writes comes to: their places, or what stops them. -/
inductive Placed where
  | ok (l : List Place)
  | cause (c : Cause)
  | fault (a : Acc) (cause level pte : Nat)
  /-- Holders of a line have been sent back-invalidations (R50). -/
  | wait
  deriving DecidableEq, Repr

def State.placeList (s : State) (w : Who) : List Acc → Placed × State
  | [] => (.ok [], s)
  | a :: r =>
    match s.judge w a with
    | (.cause c, s1) => (.cause c, s1.noteUnreach c)
    | (.fault c l p, s1) => (.fault a c l p, s1)
    | (.ok p, s1) =>
      if s1.refuses p a.kind then (.cause .fabricAccess, s1)
      else match State.placeList s1 w r with
        | (.ok t, s2) => (.ok (p :: t), s2)
        | (e, s2) => (e, s2)

/-- Places for an engine's writes, with no holder of a copy left (R50). -/
def State.placeWrites (s : State) (w : Who) (accs : List Acc) : Placed × State :=
  match s.placeList w accs with
  | (.ok l, s1) =>
    let (ok, s2) := s1.unsnoopAll ((accs.zip l).map (fun e => (0, e.1, e.2)))
    (if ok then .ok l else .wait, s2)
  | e => e

/-- An operation's writes are judged as a whole; then its effect on their places. -/
def State.withPlaces (s : State) (op : Nat) (o : EngineOp) (c : Coil) (b : Bolt) (accs : List Acc)
    (body : State → List Place → State) : State :=
  match s.placeWrites (o.who c b) accs with
  | (.ok l, s1) => body s1 l
  | (.wait, s1) => s1.push [o.event op]
  | (.cause e, s1) => s1.engineEnd op (endCause e)
  | (.fault a e l p, s1) => s1.engineFault op o c b a e l p

/-- A path that is stopped where it is parked will execute its instruction again: what that instruction has left behind is withdrawn
(R392; log 25). -/
def State.withdraw (s : State) (x : Issuer) : State :=
  let s1 : State := { s with
    upcalls := s.upcalls.filter (fun u => u.2.waiter != some x.id)
    agenda := s.agenda.filter (fun i => match i with | .upcallPost u => !(u.kind == 1 && u.waiter == some x.id) | _ => true) }
  match x.path.park with
  | .gang set => (s1.updCoil x.id.coil (fun c =>
      { c with latches := c.latches.map (fun l => (l.1, l.2.filter (fun a => a.strand != x.id.strand))) })).updStrand x.id.coil x.id.strand
        (fun st => { st with gangRuns := Tab.set 0 st.gangRuns set.toNat (Tab.get 0 st.gangRuns set.toNat - 1) })
  | .plyRdv _ _ _ _ => s1.updCoil x.id.coil (fun c => { c with plyArrived := c.plyArrived &&& ~~~(maskOf [x.id.strand]) })
  | _ => s1

/-- DEFERRED_TRAP: at its next scalar boundary, or where it is parked, a path traps for an operation that ended early (R392, R410). -/
def execDeferredTrap (t : DeferredTrap) (s : State) : Out :=
  .next (match s.issuerAt t.path with
    | none => s
    | some x =>
      let busy := x.strand.longs.any (fun e => e.2.path == t.path.path && e.2.pos == 255)
        || (match x.path.park with | .trap _ _ _ => true | _ => false)
        || (match x.coil.residency with | .resident => false | .stopping _ => false | _ => true)
      if busy then s.push [.deferredTrap t]
      else (s.withdraw x).takeTrap x { t.info with spc := x.path.pc, active := x.path.em })

end Sys2Proof.Machine
end

