-- ==== Sys2Proof/Machine/FloatFn.lean ====
section
/-! DEFINITION. Division, roots, exponential, logarithm and the trigonometric forms: each the exact value rounded once (R362), and the
step of the matrix engine (R326). -/

namespace Sys2Proof.Machine

open Sys2Proof

/-- A magnitude between m × 2^e and (m + 1) × 2^e, exclusive when `more` is set, as a value that rounds alike: m must have at
least two bits more than the format. -/
def between (neg : Bool) (m : Nat) (e : Int) (more : Bool) : FVal := .num neg (2 * m + b2n more) (e - 1)

/-- The quotient of two finite non-zero magnitudes, good to `p` bits. -/
def quotVal (neg : Bool) (m1 : Nat) (e1 : Int) (m2 : Nat) (e2 : Int) (p : Nat) : FVal :=
  let k := p + Nat.log2 m2
  let n := m1 <<< k
  between neg (n / m2) (e1 - e2 - k) (n % m2 != 0)

/-- `v.fdiv` (R362). -/
def Fmt.div (f : Fmt) (rm a b : Nat) : Nat × FpFlags :=
  let x := f.decode a
  let y := f.decode b
  let s := x.neg != y.neg
  let v : FVal × FpFlags := match x, y with
    | .nan _, _ => (.nan false, 0)
    | _, .nan _ => (.nan false, 0)
    | .inf _, .inf _ => (.nan false, fNV)
    | .inf _, .num _ _ _ => (.inf s, 0)
    | .num _ _ _, .inf _ => (.num s 0 0, 0)
    | .num _ m1 e1, .num _ m2 e2 =>
      if m2 = 0 then (if m1 = 0 then (.nan false, fNV) else (.inf s, fDZ))
      else if m1 = 0 then (.num s 0 0, 0)
      else (quotVal s m1 e1 m2 e2 (f.fb + 4), 0)
  f.finish rm [x, y] v

/-- floor(sqrt n): one bit of the root at a time, from bit `i - 1` down. -/
def isqrtFrom (n : Nat) : Nat → Nat → Nat
  | 0, r => r
  | i + 1, r => let t := r + 2 ^ i; isqrtFrom n i (if t * t ≤ n then t else r)

def isqrt (n : Nat) : Nat := isqrtFrom n (Nat.log2 n / 2 + 1) 0

/-- The square root of a positive finite value, good to `p` bits. -/
def sqrtVal (m : Nat) (e : Int) (p : Nat) : FVal :=
  let k := 2 * p + (if (e % 2 == 0) then 0 else 1)
  let n := m <<< k
  let r := isqrt n
  between false r ((e - k) / 2) (r * r != n)

/-- `v.fsqrt` (R362). -/
def Fmt.sqrt (f : Fmt) (rm a : Nat) : Nat × FpFlags :=
  let x := f.decode a
  let v : FVal × FpFlags := match x with
    | .nan _ => (.nan false, 0)
    | .inf s => if s then (.nan false, fNV) else (.inf false, 0)
    | .num s m e => if m = 0 then (.num s 0 0, 0) else if s then (.nan false, fNV) else (sqrtVal m e (f.fb + 4), 0)
  f.finish rm [x] v

/-- `v.frcp` (R362). -/
def Fmt.rcp (f : Fmt) (a : Nat) : Nat × FpFlags :=
  let x := f.decode a
  let v : FVal × FpFlags := match x with
    | .nan _ => (.nan false, 0)
    | .inf s => (.num s 0 0, 0)
    | .num s m e => if m = 0 then (.inf s, fDZ) else (quotVal s 1 0 m e (f.fb + 4), 0)
  f.finish 0 [x] v

/-- 1 / sqrt(m × 2^e), good to `p` bits. -/
def rsqVal (m : Nat) (e : Int) (p : Nat) : FVal :=
  let n0 := 2 * p + Nat.log2 m + 1
  let n := if ((n0 : Int) + e) % 2 = 0 then n0 else n0 + 1
  let r := isqrt (2 ^ n / m)
  between false r (-((n : Int) + e) / 2) (r * r * m != 2 ^ n)

/-- `v.frsq` (R362). -/
def Fmt.rsq (f : Fmt) (a : Nat) : Nat × FpFlags :=
  let x := f.decode a
  let v : FVal × FpFlags := match x with
    | .nan _ => (.nan false, 0)
    | .inf s => if s then (.nan false, fNV) else (.num false 0 0, 0)
    | .num s m e => if m = 0 then (.inf s, fDZ) else if s then (.nan false, fNV) else (rsqVal m e (f.fb + 4), 0)
  f.finish 0 [x] v

/-- ln 2 × 2^p, from below: the sum of 2^p / (k × 2^k). -/
def ln2Sum (p : Nat) : Nat → Nat → Nat
  | 0, _ => 0
  | n + 1, k => 2 ^ p / (k * 2 ^ k) + ln2Sum p n (k + 1)

def ln2Fix (p : Nat) : Nat := ln2Sum p p 1

/-- Σ t^k / k! × 2^p for t / 2^p below 1, `n` terms from the term given. -/
def expSum (p t : Nat) : Nat → Nat → Nat → Nat
  | 0, _, _ => 0
  | n + 1, k, term => if term = 0 then 0 else term + expSum p t n (k + 1) (term * t / 2 ^ p / (k + 1))

/-- Σ z^(2j+1) / (2j+1) × 2^p: atanh of z / 2^p. -/
def atanhSum (p zz : Nat) : Nat → Nat → Nat → Nat
  | 0, _, _ => 0
  | n + 1, j, term => if term = 0 then 0 else term / (2 * j + 1) + atanhSum p zz n (j + 1) (term * zz / 2 ^ p)

/-- atan(1 / d) × 2^p. -/
def atanInvSum (dd : Nat) : Nat → Nat → Nat → Int
  | 0, _, _ => 0
  | n + 1, j, term =>
    if term = 0 then 0
    else (if j % 2 = 0 then ((term / (2 * j + 1) : Nat) : Int) else -((term / (2 * j + 1) : Nat) : Int)) + atanInvSum dd n (j + 1) (term / dd)

/-- π × 2^p. -/
def piFix (p : Nat) : Nat :=
  (16 * atanInvSum 25 p 0 (2 ^ p / 5) - 4 * atanInvSum (239 * 239) p 0 (2 ^ p / 239)).toNat

/-- Σ (-1)^j t^(2j+1) / (2j+1)! × 2^p. -/
def sinSum (p tt : Nat) : Nat → Nat → Nat → Int
  | 0, _, _ => 0
  | n + 1, j, term =>
    if term = 0 then 0
    else (if j % 2 = 0 then (term : Int) else -(term : Int)) + sinSum p tt n (j + 1) (term * tt / 2 ^ p / ((2 * j + 2) * (2 * j + 3)))

/-- An approximation v × 2^e that is within 2^16 units of an irrational value rounds as that value when both ends of its interval
round alike; else more bits are taken. -/
def settle (f : Fmt) (neg : Bool) (approx : Nat → Nat × Int) : Nat → Nat → Nat × FpFlags
  | 0, p => let (v, e) := approx p; f.arith { rm := 0 } (between neg v e true)
  | n + 1, p =>
    let (v, e) := approx p
    let lo := v - 2 ^ 16
    let hi := v + 2 ^ 16
    let (x, g) := f.arith { rm := 0 } (between neg lo e true)
    if lo ≠ 0 ∧ x = (f.arith { rm := 0 } (between neg hi e true)).1 then (x, g ||| fNX)
    else settle f neg approx n (2 * p)

/-- 2^(m × 2^e × ±1) for a non-integral exponent: 2^n × 2^r with r = num / 2^k in (0, 1). -/
def exp2Approx (n : Int) (num k : Nat) (p : Nat) : Nat × Int :=
  let t := num * ln2Fix p / 2 ^ k
  (expSum p t p 0 (2 ^ p), n - p)

/-- `v.fexp2` (R362). -/
def Fmt.exp2 (f : Fmt) (a : Nat) : Nat × FpFlags :=
  match f.decode a with
  | .nan g => (f.qnan, flagIf g fNV)
  | .inf s => if s then (0, 0) else (f.infinity false, 0)
  | .num s m e =>
    if m = 0 then f.arith { rm := 0 } (.num false 1 0)
    else if 13 < ilog m e then f.arith { rm := 0 } (.num false 1 (if s then -8192 else 8192))
    else
      let z : Int := if s then -(m : Int) else m
      if 0 ≤ e then f.arith { rm := 0 } (.num false 1 (z * (2 ^ e.toNat : Nat)))
      else
        let k := (-e).toNat
        let n := z / ((2 ^ k : Nat) : Int)
        let r := (z % ((2 ^ k : Nat) : Int)).toNat
        if r = 0 then f.arith { rm := 0 } (.num false 1 n)
        else settle f false (exp2Approx n r k) 4 192

/-- |log2| of y = num / 2^k in (0.7, 1.5), times 2^p, with n added; the sign is apart. -/
def log2Approx (n : Int) (num k : Nat) (p : Nat) : Int :=
  let one := 2 ^ k
  let up := decide (one ≤ num)
  let d := if up then num - one else one - num
  let z := d * 2 ^ p / (num + one)
  let l := 2 * atanhSum p (z * z / 2 ^ p) p 0 z
  let g := l * 2 ^ p / ln2Fix p
  n * (2 ^ p : Nat) + (if up then (g : Int) else -(g : Int))

/-- `v.flog2` (R362). -/
def Fmt.log2 (f : Fmt) (a : Nat) : Nat × FpFlags :=
  match f.decode a with
  | .nan g => (f.qnan, flagIf g fNV)
  | .inf s => if s then (f.qnan, fNV) else (f.infinity false, 0)
  | .num s m e =>
    if m = 0 then (f.infinity true, fDZ)
    else if s then (f.qnan, fNV)
    else
      let k := Nat.log2 m
      let n := ilog m e
      if m = 2 ^ k then f.arith { rm := 0 } (intVal n)
      else
        let half := decide (3 * 2 ^ k ≤ 2 * m)
        let n := if half then n + 1 else n
        let k := if half then k + 1 else k
        let neg := decide (log2Approx n m k 128 < 0)
        settle f neg (fun p => ((log2Approx n m k p).natAbs, -(p : Int))) 4 256

/-- sin(π × num / 2^k) × 2^p for an argument in (0, 1/2), with bits for its leading zeros. -/
def sinApprox (num k : Nat) (p0 : Nat) : Nat × Int :=
  let p := p0 + (k - Nat.log2 num)
  let t := num * piFix p / 2 ^ k
  ((sinSum p (t * t / 2 ^ p) p 0 t).toNat, -(p : Int))

/-- sin(π × num / 2^k) for a numerator below 2^(k + 1), negated when `neg` is set; the exact cases are answered exactly. -/
def Fmt.sinPi (f : Fmt) (neg : Bool) (zero : Nat) (num k : Nat) : Nat × FpFlags :=
  let one := 2 ^ k
  let neg2 := neg != decide (one ≤ num)
  let r := num % one
  let x := if one < 2 * r then one - r else r
  if x = 0 then (zero, 0)
  else if 2 * x = one then f.arith { rm := 0 } (.num neg2 1 0)
  else settle f neg2 (sinApprox x k) 4 192

/-- `v.fsin`: −0 is an integral operand that is not below 0 (R362). -/
def Fmt.fsin (f : Fmt) (a : Nat) : Nat × FpFlags :=
  match f.decode a with
  | .nan g => (f.qnan, flagIf g fNV)
  | .inf _ => (f.qnan, fNV)
  | .num s m e =>
    if m = 0 then (f.sign false, 0)
    else if 0 ≤ e then (f.sign s, 0)
    else
      let k := (-e).toNat
      f.sinPi s (f.sign s) (m % 2 ^ (k + 1)) k

/-- `v.fcos` (R362): cos(π a) is sin(π (a + 1/2)). -/
def Fmt.fcos (f : Fmt) (a : Nat) : Nat × FpFlags :=
  match f.decode a with
  | .nan g => (f.qnan, flagIf g fNV)
  | .inf _ => (f.qnan, fNV)
  | .num _ m e =>
    let k := if 0 ≤ e then 1 else (-e).toNat
    let num := if 0 ≤ e then (if e = 0 then 2 * m else 0) else m
    f.sinPi false 0 ((num + 2 ^ (k - 1)) % 2 ^ (k + 1)) k

/-- The status bits that a step sets: INX, INV, OVF, UFZ (R216, R326). -/
structure MmaStatus where
  inx : Bool := false
  inv : Bool := false
  ovf : Bool := false
  ufz : Bool := false
  deriving DecidableEq, Repr

/-- The largest floor(log2 |t|) among some non-zero terms. -/
def maxLog : List FVal → Option Int
  | [] => none
  | .num _ m e :: r =>
    if m = 0 then maxLog r
    else match maxLog r with
      | none => some (ilog m e)
      | some x => some (max x (ilog m e))
  | _ :: r => maxLog r

/-- Sum of sign × floor(|t| / 2^q), and whether some term lost a bit. -/
def truncSum (q : Int) : List FVal → Int × Bool
  | [] => (0, false)
  | .num s m e :: r =>
    let (z, l) := truncSum q r
    let (v, lost) := if q ≤ e then (m <<< (e - q).toNat, false)
      else (m >>> (q - e).toNat, m % 2 ^ (q - e).toNat != 0)
    (z + (if s then -(v : Int) else v), l || lost)
  | _ :: r => truncSum q r

/-- `mma_step` of R326 into the format `f` (P = 24 or 53); `nanIn` says that an input of the step was a NaN. -/
def mmaStep (f : Fmt) (acc : FVal) (products : List FVal) (nanIn : Bool) : Nat × MmaStatus :=
  let t := acc :: products
  let pos := t.any (fun v => v == .inf false)
  let neg := t.any (fun v => v == .inf true)
  if t.any FVal.isNan || (pos && neg) then (f.qnan, { inv := !nanIn })
  else if pos then (f.infinity false, {})
  else if neg then (f.infinity true, {})
  else match maxLog t with
    | none => (f.sign (t.all FVal.neg), {})
    | some e =>
      let q := e - (f.fb + 1 + 9)
      let (s, lost) := truncSum q t
      if s = 0 then (0, { inx := lost })
      else
        let m := s.natAbs
        let sg := decide (s < 0)
        let l := ilog m q
        let q0 := l - f.fb
        let y := { rm := 0 : Rnd }.roundAt sg m q q0
        let inexact := !(decide (q0 ≤ q)) && m % 2 ^ (q0 - q).toNat != 0
        let big := y == 2 ^ (f.fb + 1)
        let y1 := if big then y / 2 else y
        let q1 := if big then q0 + 1 else q0
        let inx := lost || inexact
        if f.maxQ < q1 then (f.infinity sg, { inx := inx, ovf := true })
        else if q1 + f.fb < f.emin then (f.sign sg, { inx := inx, ufz := true })
        else (f.pack sg y1 q1, { inx := inx })

end Sys2Proof.Machine
end

