-- ==== Sys2Proof/Machine/Matrix.lean ====
section
/-! DEFINITION. Matrix instructions and the steps of the matrix engine (R109, R110, R209-R217, R264, R324-R327, R390-R407). -/

namespace Sys2Proof.Machine

open Sys2Proof

/-- The engine's intake of 8 entries is full (R212). -/
def State.intakeFull (s : State) (hamper : Nat) : Bool :=
  decide (8 ≤ (s.ops.filter (fun e => e.2.ctx == 0 && (match s.coil? e.2.coil with
    | some c => c.hamper + e.2.half == hamper && (match c.residency with | .saved _ _ => false | _ => true)
    | none => false))).length)

/-- TYPE codes of the elements of A and of B (R394); CB4 has the codebook's BF16 values (R314). -/
def mxTypes (fmt : Nat) : Nat × Nat :=
  match fmt with
  | 0 => (11, 11) | 1 => (10, 10) | 2 => (9, 9) | 3 => (8, 8) | 4 => (12, 12) | 5 => (13, 13) | 6 => (12, 13) | 7 => (13, 12)
  | 8 => (4, 4) | 9 => (0, 0) | 10 => (14, 14) | _ => (9, 9)

/-- Accumulator FORMAT of a tile (R216): 1 FP32, 2 FP64, 3 integer. -/
def mxAcc (fmt : Nat) : Nat := if fmt = 0 then 2 else if fmt = 8 ∨ fmt = 9 then 3 else 1

/-- A field of the shape word is outside its range, reserved or unused and not zero (R395). -/
def shapeBad (fmt : Nat) (scl : Bool) (w : W64) : Bool :=
  let x := w.toNat
  let p := shapeOfWord w
  bits x 63 60 != 0 || bits x 31 29 != 0 || p.m == 0 || p.n == 0 || (fmt == 0 && p.n == 64) || p.ksteps == 0 || decide (2 ^ 20 < p.ksteps)
    || (!scl && (p.vsa != 0 || p.vsb != 0 || p.bsa != 0 || p.bsb != 0)) || (fmt != 11 && (p.cba != 0 || p.cbb != 0))

/-- Ranges of the rows of an operand: `n` rows of `len` bytes. -/
def rowRanges (base stride : W64) (n len : Nat) : List (Nat × Nat) :=
  (upFrom 0 n).flatMap (fun r => rangesOf (base.toNat + r * stride.toNat) len)

/-- A `gang` value that no gang form of the issuing path accepts (R109). -/
def gangBad (x : Issuer) : Bool :=
  let g := x.strand.gang.toNat
  let n := bits g 2 0
  let l := gangMembers x.strand.gang
  decide (n < 2) || n == 7 || (upFrom n (6 - n)).any (fun j => bits g (6 * j + 8) (6 * j + 3) != 0) || l.eraseDups.length != l.length
    || l.any (fun i => decide (x.desc.nstr ≤ i) || x.desc.roleOf i != 2) || !l.contains x.id.strand || !x.isRoot

/-- The checks that a multiply-accumulate makes on its operand values (R391, R395, R109, R210): the first cause met. -/
def mmaCause (s : State) (x : Issuer) (fmt : Nat) (scl gang : Bool) (a sa b sb shape : W64) : Option Cause :=
  let p := shapeOfWord shape
  let kE := p.ksteps * mxPerStep fmt
  let len := 48 * p.ksteps
  let rows := rowRanges a sa p.m len ++ rowRanges b sb p.n len
  if x.desc.acc ≤ p.tile then some .regUnreserved
  else if fmt = 11 ∧ (x.desc.cbslot ≤ p.cba ∨ x.desc.cbslot ≤ p.cbb) then some .regUnreserved
  else if scl ∧ (x.desc.vregs < p.vsa + scaleCount p.bsa kE p.m x.w ∨ x.desc.vregs < p.vsb + scaleCount p.bsb kE p.n x.w) then
    some .regUnreserved
  else if gang ∧ gangBad x = true then some .gangInvalid
  else if shapeBad fmt scl shape || a.toNat % 16 != 0 || b.toNat % 16 != 0 || sa.toNat % 16 != 0 || sb.toNat % 16 != 0 || meetsPeer rows then
    some .mxOperand
  else if meetsHole rows then some .addrNoncanonical
  else if s.meetsScratch x.asid x.desc x.half rows then some .scratchRange
  else none

/-- Number into sd, and the path goes on (R390). -/
def numbered (x : Issuer) (d : BitVec 6) (r : Nat × State) : Act := .go (r.2.setS x.id d.toNat (BitVec.ofNat 64 r.1) false)

/-- What a scalar `mx` form needs (R390, R391). -/
def mxNeeds (d : BitVec 6) (reads : List Nat) : Needs := { reads := reads, writes := [d.toNat], courses := true, roles := 2 }

/-- `mx.mma` (R393-R396). -/
def execMxMma (d a b : BitVec 6) (l : Bool) (f : BitVec 4) (s : State) : Out :=
  let i := Instr.mxMma d a b l f
  scalar s i (mxNeeds d (upFrom a.toNat 4 ++ [b.toNat])) (fun x =>
    if s.intakeFull x.hamper then .wait s
    else
      let va := x.s a
      let sa := x.sAt (a.toNat + 1)
      let vb := x.sAt (a.toNat + 2)
      let sb := x.sAt (a.toNat + 3)
      match mmaCause s x f.toNat l false va sa vb sb (x.s b) with
      | some c => .trap s { cause := c }
      | none =>
        let p := shapeOfWord (x.s b)
        numbered x d (s.accept x 0 x.id.strand x.id.path x.path.pc (insnWords i)
          (.mma f.toNat l false [shareOf x.id.strand va sa p] vb sb p.n p.ksteps p.vsb p.bsb p.cbb x.id.strand 0)
          [va, sa, vb, sb, x.s b]))

/-- Arrivals of a gang differ in what the latch compares (R110, R397, R398). -/
def gangDiffers (d : Desc) (l : List GangArrival) : Bool :=
  match l with
  | [] => false
  | h :: r =>
    let key (g : GangArrival) : Nat × Bool × W64 × W64 × W64 × List Nat :=
      let p := shapeOfWord g.shape
      (g.fmt, g.scl, g.gang, g.b, g.sb, [p.ksteps, p.n, p.vsb, p.bsb, p.cbb])
    let tiles := l.map (fun g => (shapeOfWord g.shape).tile)
    r.any (fun g => key g != key h) || tiles.eraseDups.length != tiles.length || l.any (fun g => d.halfOf g.strand != d.halfOf h.strand)

/-- A strand will not arrive at a gang: it has ended, or its root path is stopped at a trap (R110; log 84). -/
def Strand.gangAbsent (st : Strand) : Bool := st.ended || (match st.root.park with | .trap _ _ _ => true | _ => false)

/-- The joint operation of a gang whose members have all arrived (R398). -/
def gangKind (l : List GangArrival) (g : GangArrival) : OpKind :=
  let p := shapeOfWord g.shape
  let order := gangMembers g.gang
  let shares := order.filterMap (fun i => (l.find? (fun a => a.strand == i)).map (fun a => shareOf i a.a a.sa (shapeOfWord a.shape)))
  .mma g.fmt g.scl true shares g.b g.sb p.n p.ksteps p.vsb p.bsb p.cbb (order.headD 0) 0

/-- `mx.gang`: the checks of the issuing member, then the rendezvous (R109, R110, R397, R398). -/
def execMxGang (d a b : BitVec 6) (l : Bool) (f : BitVec 4) (s : State) : Out :=
  let i := Instr.mxGang d a b l f
  scalar s i (mxNeeds d (upFrom a.toNat 4 ++ [b.toNat])) (fun x =>
    let me : GangArrival :=
      { strand := x.id.strand, d := d, gang := x.strand.gang, fmt := f.toNat, scl := l, a := x.s a, sa := x.sAt (a.toNat + 1)
        b := x.sAt (a.toNat + 2), sb := x.sAt (a.toNat + 3), shape := x.s b, word := (insnWords i).setWidth 32, pc := x.path.pc }
    match mmaCause s x f.toNat l true me.a me.sa me.b me.sb me.shape with
    | some c => .trap s { cause := c }
    | none =>
      let members := gangMembers me.gang
      let set := maskOf members
      let others := match x.coil.latches.find? (fun e => e.1 == set) with | some e => e.2 | none => []
      let all := others ++ [me]
      let rest := x.coil.latches.filter (fun e => e.1 != set)
      let arrive (s : State) : State := s.updStrand x.id.coil x.id.strand (fun st =>
        { st with gangRuns := Tab.set 0 st.gangRuns set.toNat (Tab.get 0 st.gangRuns set.toNat + 1) })
      if members.any (fun m => (x.coil.strands[m]?).any Strand.gangAbsent) then .trap s { cause := .gangAbandoned }
      else if all.length < members.length then
        .park ((arrive s).updCoil x.id.coil (fun c => { c with latches := (set, all) :: rest })) (.gang set)
      else if gangDiffers x.desc all then
        let s1 := s.updCoil x.id.coil (fun c => { c with latches := rest })
        .trap (others.foldl (fun s o =>
          match s.issuerAt { coil := x.id.coil, strand := o.strand, path := 15 } with
          | some y => s.takeTrap y (scalarTrap y (BitVec.ofNat 96 o.word.toNat) { cause := .gangMismatch })
          | none => s) s1) { cause := .gangMismatch }
      else if s.intakeFull x.hamper then .wait s
      else
        let s1 := (arrive s).updCoil x.id.coil (fun c => { c with latches := rest })
        let (n, s2) := s1.accept x 0 (members.headD 0) 15 me.pc (insnWords i) (gangKind all me)
          (me.b :: me.sb :: members.flatMap (fun m => match all.find? (fun a => a.strand == m) with | some a => [a.a, a.sa, a.shape] | none => []))
          me.gang (all.map (fun a => (a.strand, a.pc, BitVec.ofNat 96 a.word.toNat)))
        .go ((others.foldl (fun s o =>
          let id : PathId := { coil := x.id.coil, strand := o.strand, path := 15 }
          (s.setS id o.d.toNat (BitVec.ofNat 64 n) false).resumeAfter id 4) s2).setS x.id d.toNat (BitVec.ofNat 64 n) false))

/-- `mx.cbld` (R399). -/
def execMxCbld (d a : BitVec 6) (sl : BitVec 3) (s : State) : Out :=
  let i := Instr.mxCbld d a sl
  scalar s i { mxNeeds d [a.toNat] with unreserved := fun x => decide (x.desc.cbslot ≤ sl.toNat) } (fun x =>
    if s.intakeFull x.hamper then .wait s
    else
      let r := rangesOf (x.s a).toNat 32
      if (x.s a).toNat % 32 ≠ 0 ∨ meetsPeer r = true then .trap s { cause := .mxOperand }
      else if meetsHole r then .trap s { cause := .addrNoncanonical }
      else if s.meetsScratch x.asid x.desc x.half r then .trap s { cause := .scratchRange }
      else numbered x d (s.accept x 0 x.id.strand x.id.path x.path.pc (insnWords i) (.cbld sl.toNat (x.s a)) [x.s a]))

/-- `mx.clr` (R400). -/
def execMxClr (d : BitVec 6) (t : BitVec 4) (s : State) : Out :=
  let i := Instr.mxClr d t
  scalar s i { mxNeeds d [] with unreserved := fun x => decide (x.desc.acc ≤ t.toNat) } (fun x =>
    if s.intakeFull x.hamper then .wait s
    else numbered x d (s.accept x 0 x.id.strand x.id.path x.path.pc (insnWords i) (.clr t.toNat)))

/-- FORMAT of a tile's status word (R216). -/
def Coil.tileFormat (c : Coil) (half t : Nat) : Nat := bits (Tab.get 0 c.accStat (16 * half + t)).toNat 9 8

/-- FORMAT of a tile once the operations accepted so far have completed, all their steps made (R402; log 92). -/
def State.futureFormat (s : State) (x : Issuer) (t : Nat) : Nat :=
  (s.ops.filter (fun e => e.2.coil == x.id.coil && e.2.tiles.contains (16 * x.half + t))).foldl
    (fun f e => match e.2.kind with
      | .clr _ => 0
      | .mma fmt _ _ _ _ _ _ _ _ _ _ _ _ => mxAcc fmt
      | _ => f) (x.coil.tileFormat x.half t)

/-- Bytes of an element of a TYPE; 1 for 4-bit ones. -/
def typeBytes (t : Nat) : Nat := if t = 14 then 1 else tyWidth t / 8

/-- The fields of a drain (R401, R402). -/
structure DrainArgs where
  dst : Nat
  sd : Nat
  scale : Nat
  keep : Nat
  r : Nat
  sr : Nat
  key : Nat
  row0 : Nat
  col0 : Nat
  stream : Nat
  pDrop : Nat
  m : Nat
  n : Nat
  tile : Nat
  dfmt : Nat
  rfmt : Nat
  deriving DecidableEq, Repr

def drainArgs (regs : List W64) (ctl : W64) : DrainArgs :=
  let g (j : Nat) : Nat := (regs.getD j 0).toNat
  let c := ctl.toNat
  { dst := g 0, sd := g 1, scale := bits (g 2) 31 0, keep := bits (g 2) 63 32, r := g 3, sr := g 4, key := g 5, row0 := bits (g 6) 31 0
    col0 := bits (g 6) 63 32, stream := bits (g 7) 31 0, pDrop := bits (g 7) 63 32, m := sizeOf2 (bits c 1 0), n := sizeOf2 (bits c 3 2)
    tile := bits c 7 4, dfmt := bits c 11 8, rfmt := bits c 15 12 }

/-- Bytes of one destination row. -/
def DrainArgs.rowBytes (q : DrainArgs) : Nat := if q.dfmt = 14 then q.n / 2 else q.n * typeBytes q.dfmt

/-- The checks that a drain makes on its operand values (R391, R401, R402): the first cause met. -/
def drainCause (s : State) (x : Issuer) (regs : List W64) (ctl : W64) (resEn : Bool) : Option Cause :=
  let q := drainArgs regs ctl
  let fut := s.futureFormat x q.tile
  let dst := (upFrom 0 q.m).flatMap (fun i => rangesOf (q.dst + i * q.sd) q.rowBytes)
  let res := if resEn then (upFrom 0 q.m).flatMap (fun i => rangesOf (q.r + i * q.sr) (if q.rfmt = 0 then 0 else q.n * typeBytes q.rfmt)) else []
  let bad := bits ctl.toNat 63 16 != 0 || q.m == 0 || q.n == 0 || q.dfmt == 15
    || (if resEn then !([8, 9, 10, 11, 12, 13].contains q.rfmt) || (q.rfmt == 11 && fut != 2) else q.rfmt != 0)
    || (q.n == 64 && fut == 2)
    || q.dst % typeBytes q.dfmt != 0 || q.sd % typeBytes q.dfmt != 0
    || (resEn && (q.r % typeBytes q.rfmt != 0 || q.sr % typeBytes q.rfmt != 0))
    || meetsPeer (dst ++ res)
  if x.desc.acc ≤ q.tile then some .regUnreserved
  else if bad then some .mxOperand
  else if meetsHole (dst ++ res) then some .addrNoncanonical
  else if s.meetsScratch x.asid x.desc x.half (dst ++ res) then some .scratchRange
  else none

/-- `mx.drain` (R401, R402). -/
def execMxDrain (d a b : BitVec 6) (x' r' : Bool) (s : State) : Out :=
  let i := Instr.mxDrain d a b x' r'
  scalar s i (mxNeeds d (upFrom a.toNat 8 ++ [b.toNat])) (fun x =>
    let regs := (upFrom a.toNat 8).map x.sAt
    let ctl := x.s b
    if s.intakeFull x.hamper then .wait s
    else match drainCause s x regs ctl r' with
      | some c => .trap s { cause := c }
      | none =>
        numbered x d (s.accept x 0 x.id.strand x.id.path x.path.pc (insnWords i) (.drain regs ctl r' x' x.strand.cvt 0 0)
          (regs ++ [ctl])))

/-- Key of an accumulator word (R209). -/
def accKey (half t row col : Nat) : Nat := ((16 * half + t) * 64 + row) * 64 + col

/-- Element `k` of width `w` of a row's 48 bytes (R209, R315). -/
def rowElem (row : Nat) (w k : Nat) : Nat := (row >>> (w * k)) % 2 ^ w

/-- The exact value of an operand element: through the codebook for CB4 (R314). -/
def mxElem (c : Coil) (fmt ty slot x : Nat) : FVal :=
  if fmt = 11 then elemVal 9 (ofBytes (Tab.getRun 0 c.codebook (32 * slot + 2 * x) 2)) else elemVal ty x

/-- The scale of a block of a row: the E8M0 byte, and its poison (R324). -/
def scaleByte (st : Strand) (w reg bs kElements row block : Nat) : Nat × Bool :=
  let nb := scaleNb bs kElements
  let v := reg + row / w * nb + (bs + block) / 8
  let key := vKey v (row % w)
  (bits (Tab.get 0 st.vregs key).toNat (8 * ((bs + block) % 8) + 7) (8 * ((bs + block) % 8)), Tab.get false st.vpoison key)

/-- One operand row of a step: its exact elements, each with its block's scale. -/
def rowValues (c : Coil) (fmt ty slot row step : Nat) (scales : Option (Nat → Nat)) : List (FVal × Option Nat) :=
  let n := mxPerStep fmt
  (upFrom 0 n).map (fun k => (mxElem c fmt ty slot (rowElem row (mxWidth fmt) k), scales.map (fun f => f ((step * n + k) / 32))))

/-- The exact product of two elements with their scales (R325), and whether an input was a NaN. -/
def mxProduct (a b : FVal × Option Nat) : FVal × Bool :=
  let sc (v : FVal) (c : Option Nat) : FVal := match c with | some e => (mulVal v (e8m0Val e)).1 | none => v
  (sc (sc (mulVal a.1 b.1).1 a.2) b.2, a.1.isNan || b.1.isNan || a.2 == some 0xFF || b.2 == some 0xFF)

/-- `int_step` of R327: the accumulator and the products of a step, modulo 2^32. -/
def intStep (signed : Bool) (acc ra rb : Nat) : Nat :=
  let v (x : Nat) : Int := if signed then sval 8 x else (x : Int)
  wrap 32 ((acc : Int) + (upFrom 0 48).foldl (fun z k => z + v (rowElem ra 8 k) * v (rowElem rb 8 k)) 0)

/-- Sticky status bits of a step (R216). -/
def mmaBits (m : MmaStatus) : Nat := b2n m.ufz + 2 * b2n m.ovf + 4 * b2n m.inv + 8 * b2n m.inx

/-- One K-step of one share: the new words of its tile, and its status bits (R326, R327, R396). -/
def stepShare (c : Coil) (half fmt : Nat) (m : MmaShare) (rowsA : List Nat) (sclA : Option (Nat → Nat → Nat)) (colsB : List (List (FVal × Option Nat)))
    (rawB : List Nat) (step : Nat) : List (Nat × W32) × Nat :=
  let (ta, _) := mxTypes fmt
  let rows := (upFrom 0 rowsA.length).zip rowsA
  let cell (i j rawA rawB : Nat) (av bv : List (FVal × Option Nat)) : List (Nat × W32) × Nat :=
    if mxAcc fmt = 3 then
      let k := accKey half m.tile i j
      ([(k, BitVec.ofNat 32 (intStep (fmt == 8) (Tab.get 0 c.acc k).toNat rawA rawB))], 0)
    else
      let prods := (av.zip bv).map (fun e => mxProduct e.1 e.2)
      if mxAcc fmt = 2 then
        let k := accKey half m.tile i (2 * j)
        let old := (Tab.get 0 c.acc k).toNat + 2 ^ 32 * (Tab.get 0 c.acc (k + 1)).toNat
        let acc := (fmtOf 11).decode old
        let (y, st) := mmaStep (fmtOf 11) acc (prods.map Prod.fst) (acc.isNan || prods.any Prod.snd)
        ([(k, BitVec.ofNat 32 y), (k + 1, BitVec.ofNat 32 (y / 2 ^ 32))], mmaBits st)
      else
        let k := accKey half m.tile i j
        let acc := (fmtOf 10).decode (Tab.get 0 c.acc k).toNat
        let (y, st) := mmaStep (fmtOf 10) acc (prods.map Prod.fst) (acc.isNan || prods.any Prod.snd)
        ([(k, BitVec.ofNat 32 y)], mmaBits st)
  rows.foldl (fun out r =>
    let av := rowValues c fmt ta m.cba r.2 step (sclA.map (fun f => f r.1))
    ((upFrom 0 colsB.length).zip (colsB.zip rawB)).foldl (fun out e =>
      let (w, b) := cell r.1 e.1 r.2 e.2.2 av e.2.1
      (out.1 ++ w, out.2 ||| b)) out) ([], 0)

/-- Words that a share's accumulator elements take (R209). -/
def shareWords (half fmt n : Nat) (m : MmaShare) : List Nat :=
  (upFrom 0 m.m).flatMap (fun i => (upFrom 0 (if mxAcc fmt = 2 then 2 * n else n)).map (fun j => accKey half m.tile i j))

/-- MX_K_STEP: one K-step of a multiply-accumulate, of every member's share together (R211-R214, R264, R396, R398). -/
def execMxKStep (op : Nat) (s : State) : Out :=
  .next (s.withOp op (fun o c b =>
    match o.kind with
    | .mma fmt scl gang shares vb sb n ksteps vsb bsb cbb bStrand steps =>
      let kE := ksteps * mxPerStep fmt
      let w := b.desc.lanes
      let rowAccs (base stride : W64) (r : Nat) : List Acc := pieces 16 .read 4 (base.toNat + r * stride.toNat + 48 * steps) 48
      let accsA := shares.map (fun m => (upFrom 0 m.m).flatMap (rowAccs m.a m.sa))
      let accsB := (upFrom 0 n).flatMap (rowAccs vb sb)
      s.withOperands op o c b (accsA.flatten ++ accsB) (fun s1 data =>
        let rowsOf (l : List (List Byte × Bool)) (k : Nat) : List Nat := (upFrom 0 k).map (fun r => ofBytes (((l.drop (3 * r)).take 3).flatMap Prod.fst))
        let strandOf (i : Nat) : Strand := (c.strands[i]?).getD (freshOf c)
        let nA := shares.foldl (fun z m => z + 3 * m.m) 0
        let rawB := rowsOf (data.drop nA) n
        let sB (row block : Nat) : Nat × Bool := scaleByte (strandOf bStrand) w vsb bsb kE row block
        let per := mxPerStep fmt
        let blocks := if scl then ((upFrom 0 per).map (fun k => (steps * per + k) / 32)).eraseDups else []
        let badScale := scl && ((upFrom 0 n).any (fun r => blocks.any (fun q => (sB r q).2))
          || shares.any (fun m => (upFrom 0 m.m).any (fun r => blocks.any (fun q => (scaleByte (strandOf m.strand) w m.vsa m.bsa kE r q).2))))
        let badAcc := shares.any (fun m => (shareWords o.half fmt n m).any (fun k => Tab.get false c.accPoison k))
        if data.any Prod.snd || badScale || badAcc then s1.engineEnd op .poison
        else
          let (_, tb) := mxTypes fmt
          let colsB := if mxAcc fmt = 3 then rawB.map (fun _ => [])
            else ((upFrom 0 n).zip rawB).map (fun e => rowValues c fmt tb cbb e.2 steps (if scl then some (fun q => (sB e.1 q).1) else none))
          let (ws, sts, _) := shares.foldl (fun (acc : List (Nat × W32) × List (Nat × Nat) × Nat) m =>
            let rowsA := rowsOf (data.drop acc.2.2) m.m
            let sclA := if scl then some (fun r q => (scaleByte (strandOf m.strand) w m.vsa m.bsa kE r q).1) else none
            let (nw, st) := stepShare c o.half fmt m rowsA sclA colsB rawB steps
            (acc.1 ++ nw, acc.2.1 ++ [(16 * o.half + m.tile, st)], acc.2.2 + 3 * m.m)) ([], [], 0)
          let last := steps + 1 == ksteps
          let s2 := (s1.forget (.engine op)).updCoil o.coil (fun c =>
            { c with
              acc := Tab.setAll 0 c.acc ws
              accStat := sts.foldl (fun t e =>
                let old := (Tab.get 0 t e.1).toNat ||| e.2
                Tab.set 0 t e.1 (BitVec.ofNat 32 (if last then setBits old 9 8 (mxAcc fmt) else old))) c.accStat })
          let o1 : EngineOp := { o with kind := .mma fmt scl gang shares vb sb n ksteps vsb bsb cbb bStrand (steps + 1) }
          let s3 : State := ({ s2 with ops := Dict.put s2.ops op o1 } : State).mxProgAll o1
          if last then s3.opGone op o1 else s3.push [.mxKStep op])
    | _ => s))
where
  /-- A strand of the coil stands for one that it does not have. -/
  freshOf (c : Coil) : Strand := match c.strands with
    | st :: _ => st
    | [] => freshStrand 0 0 0

/-- MX_CBLD_COMPLETE: the 32 bytes are read and written to the slot (R399). -/
def execMxCbldComplete (op : Nat) (s : State) : Out :=
  .next (s.withOp op (fun o c b =>
    match o.kind with
    | .cbld slot addr =>
      s.withOperands op o c b (pieces 16 .read 3 addr.toNat 32) (fun s1 data =>
        if data.any Prod.snd then s1.engineEnd op .poison
        else (s1.updCoil o.coil (fun c => { c with codebook := Tab.setRun 0 c.codebook (32 * slot) (data.flatMap Prod.fst) })).opGone op o)
    | _ => s))

/-- MX_CLR_COMPLETE: the tile's 4,096 words, their poison and its status word are cleared (R400). -/
def execMxClrComplete (op : Nat) (s : State) : Out :=
  .next (s.withOp op (fun o _ _ =>
    match o.kind with
    | .clr t =>
      let k := accKey o.half t 0 0
      (s.updCoil o.coil (fun c =>
        { c with acc := Tab.clearRange c.acc k (k + 4096), accPoison := Tab.clearRange c.accPoison k (k + 4096)
                 accStat := Tab.set 0 c.accStat (16 * o.half + t) 0 })).opGone op o
    | _ => s))

/-- `to_acc_format`: exact, a NaN becomes canonical (R403). -/
def toAcc (acc rfmt x : Nat) : Nat × FpFlags := convertFloat ((fmtOf rfmt).decode x) (fmtOf acc) (cvtField 0) 0

/-- drain_element without its store: the element and its flags (R217, R403). `acc` is the accumulator's TYPE: 10, 11 or 6. -/
def drainElement (q : DrainArgs) (cvt : W32) (dropEn : Bool) (acc x : Nat) (res : Option Nat) (i j : Nat) : Nat × FpFlags :=
  let draw := counterGen q.key (q.row0 + i) (q.col0 + j) (q.stream ^^^ 0x80000000)
  if acc = 6 then (let r := convertElem cvt 6 q.dfmt x draw; (r.v, r.f))
  else
    let f := fmtOf acc
    let wide (v : Nat) : Nat := if acc = 11 then widen32 v else v
    let (y0, f0) := f.mul 0 x (wide q.scale)
    let (y1, f1) := match res with
      | some r =>
        let (rv, fr) := toAcc acc q.rfmt r
        let (y, fy) := f.add 0 y0 rv
        (y, fr ||| fy)
      | none => (y0, 0)
    let (y2, f2) :=
      if dropEn then
        (if counterGen q.key (q.row0 + i) (q.col0 + j) q.stream < q.pDrop then (y1 / 2 ^ (f.w - 1) * 2 ^ (f.w - 1), 0) else f.mul 0 y1 (wide q.keep))
      else (y1, 0)
    let r := convertElem cvt acc q.dfmt y2 draw
    (r.v, f0 ||| f1 ||| f2 ||| r.f)

/-- One store of a drain: an element, or a pair of 4-bit ones. -/
structure DrainUnit where
  i : Nat
  js : List Nat
  va : Nat
  size : Nat
  deriving DecidableEq, Repr

/-- The stores of a drain (R403). -/
def drainUnits (q : DrainArgs) : List DrainUnit :=
  (upFrom 0 q.m).flatMap (fun i =>
    if q.dfmt = 14 then (upFrom 0 (q.n / 2)).map (fun h => { i := i, js := [2 * h, 2 * h + 1], va := (q.dst + i * q.sd + h) % 2 ^ 64, size := 1 })
    else (upFrom 0 q.n).map (fun j =>
      { i := i, js := [j], va := (q.dst + i * q.sd + j * typeBytes q.dfmt) % 2 ^ 64, size := typeBytes q.dfmt }))

/-- The stored value of a unit, whether it is stored poisoned, its flags, and whether it consumes a poisoned residual. -/
def drainValue (c : Coil) (half : Nat) (q : DrainArgs) (cvt : W32) (dropEn : Bool) (res : Nat → Nat → Option (Nat × Bool)) (u : DrainUnit) :
    Nat × Bool × FpFlags × Bool :=
  let fm := c.tileFormat half q.tile
  let acc := if fm = 2 then 11 else if fm = 3 then 6 else 10
  let one (j : Nat) : Nat × Bool × FpFlags × Bool :=
    let k := accKey half q.tile u.i (if acc = 11 then 2 * j else j)
    let x := (Tab.get 0 c.acc k).toNat + (if acc = 11 then 2 ^ 32 * (Tab.get 0 c.acc (k + 1)).toNat else 0)
    let bad := Tab.get false c.accPoison k || (acc == 11 && Tab.get false c.accPoison (k + 1))
    let r := if acc = 6 then none else res u.i j
    let (y, f) := drainElement q cvt dropEn acc x (r.map Prod.fst) u.i j
    (y, bad, if bad then 0 else f, r.any Prod.snd)
  match u.js with
  | [a, b] =>
    let (ya, ba, fa, pa) := one a
    let (yb, bb, fb, pb) := one b
    (ya % 16 + 16 * (yb % 16), ba || bb, fa ||| fb, pa || pb)
  | a :: _ => one a
  | [] => (0, false, 0, false)

/-- The stores of a drain in runs: those of one row in one line (R217). -/
def drainRuns : List DrainUnit → List (List DrainUnit)
  | [] => []
  | u :: r => match drainRuns r with
    | (v :: run) :: rest => if u.i = v.i ∧ u.va / 128 = v.va / 128 then (u :: v :: run) :: rest else [u] :: (v :: run) :: rest
    | l => [u] :: l

/-- The residuals of a run, in the order of its elements; a drain of integers skips them (R217). -/
def DrainArgs.residuals (q : DrainArgs) (resEn : Bool) (run : List DrainUnit) : List Acc :=
  let rs := typeBytes q.rfmt
  if resEn then run.flatMap (fun u => u.js.map (fun j =>
    { kind := .read, va := (q.r + u.i * q.sr + j * rs) % 2 ^ 64, size := rs, watch := false })) else []

/-- The stores of a run, in an order that no rule states, with the flags raised so far; a poisoned residual ends the drain before its element's store
(R217, R403). -/
def drainStores (o : EngineOp) (rd : Reader) (value : DrainUnit → Nat × Bool × FpFlags × Bool) (f : FpFlags) (l : List (DrainUnit × Place))
    (s : State) : State × FpFlags × Bool :=
  (permuteBy l.length (Config.choice s.tick) l).foldl (fun a e =>
    if a.2.2 then a
    else
      let (y, bad, g, ends) := value e.1
      if ends then (a.1, a.2.1, true) else (a.1.opWrite o rd e.1.va e.2 (toBytes e.1.size y) bad, a.2.1 ||| g, false)) (s.draw, f, false)

/-- What a reader has read is used up; answers to its writes stay. -/
def State.forgetReads (s : State) (rd : Reader) : State := { s with arrived := s.arrived.filter (fun a => !(a.reader == rd && a.kind == .read)) }

/-- A drain stores its runs in order, from the `n`-th store on. Where the residuals or the destination of a run cannot be accessed it stops before any
store of the run, and it goes on with that run (R214, R217; log 82). -/
def State.drainGo (op : Nat) (o : EngineOp) (c : Coil) (b : Bolt) (regs : List W64) (ctl : W64) (resEn dropEn : Bool) (cvt : W32) :
    List (List DrainUnit) → Nat → FpFlags → State → State
  | [], n, f, s =>
    if s.awaits (.engine op) then { s with ops := Dict.put s.ops op { o with kind := .drain regs ctl resEn dropEn cvt n f } }
    else (s.mergeFlags o.coil o.strand f).opGone op o
  | run :: rest, n, f, s =>
    let rd := Reader.engine op
    let q := drainArgs regs ctl
    let keep (s : State) : State := { s with ops := Dict.put s.ops op { o with kind := .drain regs ctl resEn dropEn cvt n f } }
    match s.readList (o.who c b) rd .current (q.residuals (resEn && c.tileFormat o.half q.tile != 3) run) with
    | (.later, s1) => keep s1
    | (.cause e, s1) => s1.engineEnd op (endCause e)
    | (.fault a e l p, s1) => (keep s1).engineFault op o c b a e l p
    | (.data data, s1) =>
      match s1.placeWrites (o.who c b) (run.map (fun u => { kind := .write, va := u.va, size := u.size, watch := false })) with
      | (.wait, s2) => (keep s2).push [o.event op]
      | (.cause e, s2) => s2.engineEnd op (endCause e)
      | (.fault a e l p, s2) => (keep s2).engineFault op o c b a e l p
      | (.ok places, s2) =>
        let keys := run.flatMap (fun u => u.js.map (fun j => (u.i, j)))
        let res (i j : Nat) : Option (Nat × Bool) :=
          ((keys.zip data).find? (fun e => e.1 == (i, j))).map (fun e => (ofBytes e.2.1, e.2.2))
        let (s3, f1, ended) := drainStores o rd (drainValue c o.half q cvt dropEn res) f (run.zip places) (s2.forgetReads rd)
        if ended then s3.engineEnd op .poison
        else State.drainGo op o c b regs ctl resEn dropEn cvt rest (n + run.length) f1 s3

/-- MX_DRAIN_COMPLETE: elements are computed and stored, and the flags merge when the drain completes (R217, R403). -/
def execMxDrainComplete (op : Nat) (s : State) : Out :=
  .next (s.withOp op (fun o c b =>
    match o.kind with
    | .drain regs ctl resEn dropEn cvt next flags =>
      (match s.writeCause (.engine op) with
      | some e => s.engineEnd op e
      | none => s.asOne (State.drainGo op o c b regs ctl resEn dropEn cvt (drainRuns ((drainUnits (drainArgs regs ctl)).drop next)) next flags))
    | _ => s))

/-- Older operations on a tile that have not completed; the newest is left out for `mx.peek` (R215). -/
def State.tileBusy (s : State) (x : Issuer) (t : Nat) (peek : Bool) : Bool :=
  let l := s.ops.filter (fun e => e.2.coil == x.id.coil && e.2.ctx == 0 && e.2.tiles.contains (16 * x.half + t))
  if peek then decide (1 < l.length) else !l.isEmpty

/-- Conditions of a tile form: `ILLEGAL_INSTRUCTION` for rows outside the tile (R404). -/
def rowsOk (i : LaneIn) : Bool :=
  let rowb := bits i.o.imm.toNat 5 0
  rowb % i.x.w == 0 && decide (rowb + i.x.w ≤ 64)

/-- A read of a pair of words in each active lane (R404). -/
def tileRead (s : State) (op : Nat) (o : Lane) (peek : Bool) : Out :=
  laneIssue s op o (fun i => if o.sub = 0 then illegalUnless rowsOk i else none) (fun _ => []) (fun i =>
    let t := o.a.toNat
    if i.x.desc.acc ≤ t then .trap s { cause := .regUnreserved }
    else if s.tileBusy i.x t peek then .wait s
    else
      let c := i.x.coil
      let rowb := bits o.imm.toNat 5 0
      let cp := bits o.imm.toNat 12 8
      let value (l : Nat) : W64 × Bool :=
        if o.sub = 1 then ((Tab.get 0 c.accStat (16 * i.x.half + t)).zeroExtend 64, false)
        else
          let k := accKey i.x.half t (rowb + l) (2 * cp)
          (BitVec.ofNat 64 ((Tab.get 0 c.acc k).toNat + 2 ^ 32 * (Tab.get 0 c.acc (k + 1)).toNat),
           Tab.get false c.accPoison k || Tab.get false c.accPoison (k + 1))
      let (n, s1) := s.fresh
      .go (({ v := i.lanes.map (fun l => (l, value l)) } : LaneOut).long i n [] [] s1))

/-- `mx.peek` (R215, R404). -/
def execMxPeek (o : Lane) (s : State) : Out := tileRead s 0xC0 o true
/-- `mx.rd` and `mx.rd.st` (R404, R405). -/
def execMxRd (o : Lane) (s : State) : Out := tileRead s 0xC1 o false

/-- `mx.wr` (R404, R405). -/
def execMxWr (o : Lane) (s : State) : Out :=
  laneIssue s 0xC2 o (illegalUnless rowsOk) (fun _ => []) (fun i =>
    let t := o.d.toNat
    if i.x.desc.acc ≤ t then .trap s { cause := .regUnreserved }
    else if s.tileBusy i.x t false then .wait s
    else
      let k (l : Nat) : Nat := accKey i.x.half t (bits o.imm.toNat 5 0 + l) (2 * bits o.imm.toNat 12 8)
      let ws := i.lanes.flatMap (fun l => [(k l, (i.a l).setWidth 32), (k l + 1, BitVec.ofNat 32 ((i.a l).toNat / 2 ^ 32))])
      let ps := i.lanes.flatMap (fun l => [(k l, i.bad o.a.toNat l), (k l + 1, i.bad o.a.toNat l)])
      .go (s.updCoil i.x.id.coil (fun c => { c with acc := Tab.setAll 0 c.acc ws, accPoison := Tab.setAll false c.accPoison ps })))

end Sys2Proof.Machine
end

