-- ==== Sys2Proof/Machine/Copy.lean ====
section
/-! DEFINITION. Block-transfer engines: queues, packets, records, chunks, and their interruption (R57, R59, R218-R232, R282, R450). -/

namespace Sys2Proof.Machine

open Sys2Proof

/-- The KL9 writes a field of the entry of a queue. -/
def State.bteSet (s : State) (q off n v : Nat) : State := s.write (s.bteAt q + off) (toBytes n v) false

def State.bteRing (s : State) (q : Nat) : Nat := s.bteF q 0 8
def State.bteUhdr (s : State) (q : Nat) : Nat := s.bteF q 8 8
def State.bteLog2 (s : State) (q : Nat) : Nat := s.bteF q 18 1
/-- STATE: 0 CLOSED, 1 OPEN, 2 ERROR. -/
def State.bteState (s : State) (q : Nat) : Nat := s.bteF q 20 1
def State.bteRd (s : State) (q : Nat) : Nat := s.bteF q 24 4
def State.bteTl (s : State) (q : Nat) : Nat := s.bteF q 32 8
def State.bteAcc (s : State) (q : Nat) : Nat := s.bteF q 40 8
def State.bteCount (s : State) : Nat := s.regF aBteCfg 10 0

/-- Changes the engine's side of a queue. -/
def State.updBte (s : State) (q : Nat) (f : BteQueue → BteQueue) : State := { s with bte := Dict.upd s.bte q f }

/-- A packet in progress. -/
def State.packet? (s : State) (q n : Nat) : Option BtePacket :=
  (Dict.find? s.bte q).bind (fun b => b.packets.find? (fun p => p.number == n))

/-- Changes a packet in progress. -/
def State.updPacket (s : State) (q n : Nat) (f : BtePacket → BtePacket) : State :=
  s.updBte q (fun b => { b with packets := b.packets.map (fun p => if p.number == n then f p else p) })

/-- Source of the fault records of a queue (R157, R226). -/
def State.bteSource (s : State) (q : Nat) : FaultSource := { source := 2, unit := s.bteF q 21 1 }

/-- The fields of a packet (R223). -/
def pkOp (b : List Byte) : Nat := recN b 0 1
def pkFlag (b : List Byte) (i : Nat) : Bool := bit (recN b 1 1) i
def pkIdxDim (b : List Byte) : Nat := bits (recN b 1 1) 3 2
def pkSize (b : List Byte) : Nat := recN b 2 1
def pkT (b : List Byte) (i : Nat) : Nat := recN b (4 + 2 * i) 2
def pkPeer (b : List Byte) : Nat := bits (recN b 44 3) 21 0
def pkCompl (b : List Byte) : Nat := recN b 36 8
def pkHalf (b : List Byte) : Nat := bits (recN b 48 4) 31 31

/-- Bytes of an element. -/
def pkElem (b : List Byte) : Nat := 2 ^ pkSize b

/-- Elements of the tile. -/
def pkElems (b : List Byte) : Nat := pkT b 0 * pkT b 1 * pkT b 2 * pkT b 3

/-- The tile size is usable (R223). -/
def pkUsable (b : List Byte) : Bool :=
  decide (pkSize b < 4) && pkElems b != 0 && decide (pkElems b * pkElem b ≤ 32768)

/-- A reserved bit of the packet is set (R223). -/
def pkReserved (b : List Byte) : Bool :=
  bits (recN b 1 1) 7 6 != 0 || recN b 3 1 != 0 || bits (recN b 44 3) 23 22 != 0 || recN b 47 1 != 0 || recN b 52 11 != 0

/-- A packet is malformed by itself (R223). -/
def pkMalformed (b : List Byte) : Bool :=
  if pkOp b = 0 then pkReserved b
  else
    decide (2 < pkOp b) || pkReserved b || !pkUsable b || (pkOp b == 2 && pkFlag b 0 && !pkFlag b 1) || (pkFlag b 4 && pkFlag b 5)
      || (pkOp b == 1 && recN b 12 8 % 64 != 0) || recN b 20 8 % 64 != 0 || (pkFlag b 0 && recN b 28 8 % 64 != 0) || pkCompl b % 32 != 0

/-- Chunks of a packet; a malformed NOP, whose tile fields are ignored, has one (R223, R225; log 37). -/
def pkChunks (b : List Byte) : Nat :=
  if pkOp b = 0 then (if pkMalformed b then 1 else 0) else if pkUsable b then ceilDiv (pkElems b * pkElem b) 512 else 1

/-- A layout record has a reserved bit set (R224). -/
def recBad (r : List Byte) : Bool := bits (recN r 8 1) 7 2 != 0 || recN r 9 3 != 0

/-- What a mapping gives (R225). -/
inductive Mapped where
  | addr (a : Nat)
  | outside
  | overflow
  deriving DecidableEq, Repr

/-- `map` of R225. -/
def mapRec (r : List Byte) (remote : Bool) (c : List Int) : Mapped :=
  let rank := bits (recN r 8 1) 1 0 + 1
  let x (i : Nat) : Int := sval 32 (recN r (12 + 4 * i) 4) + c.getD i 0
  if (upFrom 0 rank).any (fun i => decide (x i < 0) || decide ((recN r (28 + 4 * i) 4 : Int) ≤ x i)) then .outside
  else
    let a : Int := (upFrom 0 rank).foldl (fun a i => a + x i * sval 40 (recN r (44 + 5 * i) 5)) (recN r 0 8 : Int)
    let lim : Int := if remote then 2 ^ 40 else 2 ^ 64
    if a < -(2 ^ 63) ∨ lim ≤ a ∨ (remote = true ∧ a < 0) then .overflow
    else if canonical (BitVec.ofInt 64 a) then .addr (wrap 64 a) else .overflow

/-- Coordinates of element `o` of a tile (R225). -/
def coords (b : List Byte) (o : Nat) : List Int :=
  let t0 := pkT b 0
  let t1 := pkT b 1
  let t2 := pkT b 2
  [((o % t0 : Nat) : Int), ((o / t0 % t1 : Nat) : Int), ((o / (t0 * t1) % t2 : Nat) : Int), ((o / (t0 * t1 * t2) : Nat) : Int)]

/-- Elements of chunk `k`. -/
def chunkElems (b : List Byte) (k : Nat) : List Nat :=
  let per := 512 / pkElem b
  upFrom (per * k) (min per (pkElems b - per * k))

/-- Layout records of a packet. -/
def BtePacket.src (p : BtePacket) : List Byte := p.recs.getD 0 []
def BtePacket.dst (p : BtePacket) : List Byte := p.recs.getD 1 []
def BtePacket.idx (p : BtePacket) : List Byte := p.recs.getD 2 []

/-- The addresses of the index words of a chunk; none when one overflows (R225). -/
def idxAddrs (p : BtePacket) (k : Nat) : Option (List (Option Nat)) :=
  let l := (chunkElems p.bytes k).map (fun o => mapRec p.idx false (coords p.bytes o))
  if l.contains .overflow then none else some (l.map (fun m => match m with | .addr a => some a | _ => none))

/-- The addresses of a side of a chunk under the index values; none when one overflows (R225). An element without an index is outside. -/
def sideAddrs (p : BtePacket) (k : Nat) (r : List Byte) (remote indexed : Bool) (vals : List (Option Int)) : Option (List (Option Nat)) :=
  let l := ((chunkElems p.bytes k).zip vals).map (fun e =>
    if indexed then
      (match e.2 with
      | some v => mapRec r remote ((coords p.bytes e.1).set (pkIdxDim p.bytes) v)
      | none => .outside)
    else mapRec r remote (coords p.bytes e.1))
  if l.contains .overflow then none else some (l.map (fun m => match m with | .addr a => some a | _ => none))

/-- The coil that a packet names, if it lives in the queue's address space and its bolt is not killed (R223, R226). -/
def State.bteCoil (s : State) (q : Nat) (b : List Byte) : Option (Coil × Bolt) :=
  (s.coilBolt? (pkCctx b)).filter (fun e => e.2.asid == s.bteAsid q && e.2.killed.isNone)

/-- The shared TLB that serves the engine of a queue: 16 engines on each die (R10, R155). -/
def State.bteUnit (s : State) (q : Nat) : TlbUser := .die (s.bteF q 21 1 / 16)

/-- On whose behalf a packet's accesses are made. -/
def State.bteWho (s : State) (q : Nat) (b : List Byte) : Who :=
  { asid := s.bteAsid q, coil := (s.bteCoil q b).map (fun e => (e.1, e.2.desc, pkHalf b)), unit := s.bteUnit q }

/-- The failure code of a cause that a packet's access meets (R226, R450; log 26). -/
def cpCode (c : Cause) : Nat :=
  match c with
  | .addrNoncanonical => 1
  | .translation => 2
  | .sysSpaceAccess => 2
  | .barArmedWrite => 3
  | .fabricUnreachable => 4
  | .fabricTimeout => 4
  | .scratchRange => 5
  | .fabricAccess => 7
  | .poison => 9
  | _ => 6

/-- The failure code of a cause in a queue's chunk: an access that the target refused is CP_PEER, and one whose address space has no entry
for its peers has no path (R41, R42, R226; log 26). -/
def State.chunkCode (s : State) (q : Nat) (c : Cause) : Nat :=
  if c = .fabricAccess ∧ (s.peerKey (s.bteAsid q)).isNone then 4 else cpCode c

/-- The peer-window address of an offset at a target in this device's pod (R40, R57). -/
def peerVa (target off : Nat) : Nat := 0x3FFE * 2 ^ 50 + bits target 9 0 * 2 ^ 40 + off

/-- What reads of several spans come to. -/
inductive Spans where
  | data (l : List (Option (List Byte × Bool)))
  | later
  | cause (c : Cause)
  | fault (a : Acc) (cause level pte : Nat)
  deriving DecidableEq, Repr

/-- Reads `n` bytes at each address, for a reader (R226). -/
def State.readSpans (s : State) (w : Who) (rd : Reader) (n : Nat) : List (Option Nat) → Spans × State
  | [] => (.data [], s)
  | none :: r => match State.readSpans s w rd n r with
    | (.data l, s1) => (.data (none :: l), s1)
    | e => e
  | some va :: r => match s.readList w rd .current (pieces 8 .read n va n) with
    | (.later, s1) => (.later, s1)
    | (.cause c, s1) => (.cause c, s1)
    | (.fault a c l p, s1) => (.fault a c l p, s1)
    | (.data l, s1) => match State.readSpans s1 w rd n r with
      | (.data t, s2) => (.data (some ((l.map Prod.fst).flatten, l.any Prod.snd) :: t), s2)
      | e => e

/-- The index values of a chunk from the words read. -/
def idxVals (l : List (Option (List Byte × Bool))) : List (Option Int) := l.map (fun e => e.map (fun b => sval 32 (ofBytes b.1)))

/-- Addresses of this device that a chunk touches, with the index words as they now read; what cannot be read touches nothing. -/
def State.chunkTouches (s : State) (q : Nat) (p : BtePacket) (k : Nat) : List Nat :=
  let b := p.bytes
  let w := s.bteWho q b
  let idx := if pkFlag b 0 then (idxAddrs p k).getD [] else []
  let vals := if pkFlag b 0 then
      (match s.readSpans w (.chunk q p.number k) 4 idx with | (.data l, _) => idxVals l | _ => [])
    else (chunkElems b k).map (fun _ => none)
  let src := if pkOp b = 1 ∧ pkFlag b 5 = false then (sideAddrs p k p.src false (pkFlag b 0 && !pkFlag b 1) vals).getD [] else []
  let dst := if pkFlag b 4 then [] else (sideAddrs p k p.dst false (pkFlag b 0 && pkFlag b 1) vals).getD []
  (idx ++ src ++ dst).filterMap id

/-- The records that a packet names, and its completion record: none of a NOP, only the latter of a packet that fails as a whole. -/
def BtePacket.named (p : BtePacket) : List Nat :=
  let b := p.bytes
  (if p.failAll != 0 || pkOp b == 0 then [] else
    (if pkOp b = 1 then [recN b 12 8] else []) ++ [recN b 20 8] ++ (if pkFlag b 0 then [recN b 28 8] else []))
  ++ (if p.noRecord then [] else [pkCompl b])

/-- A packet touches the scratchpad window of its queue's address space (R229). -/
def State.packetTouches (s : State) (q : Nat) (p : BtePacket) : Bool :=
  (p.failAll == 0 && p.started && (upFrom 0 p.chunks).any (fun k =>
      !bit p.done k && (s.chunkTouches q p k).any (fun a => (s.winOff (s.bteAsid q) a).isSome)))
    || p.named.any (fun a => (s.winOff (s.bteAsid q) a).isSome)

/-- A packet of a coil that is saved waits for the restore (R230). -/
def State.packetWaits (s : State) (q : Nat) (p : BtePacket) : Bool :=
  (match s.bteCoil q p.bytes with
    | some (c, _) => (match c.residency with | .saved _ _ => true | _ => false)
    | none => false) && s.packetTouches q p

/-- A fault of a queue's access: its waiter waits on the record; false while the fault queue takes none (R69). -/
def State.bteFault (s : State) (q n k : Nat) (a : Acc) (cause level pte : Nat) : Bool × State :=
  match s.postFault (s.bteSource q) (s.bteAsid q) a cause level pte (.bte q n k) with
  | none => (false, s)
  | some (_, s1) => (true, s1)

/-- Writes a mirror in a queue's user header; it stays due while the header cannot be written, and only the newest value of each mirror is
due (R179, R219). -/
def State.bteMirror (s : State) (q off n v : Nat) : State :=
  let va := (s.bteUhdr q + off) % 2 ^ 64
  let a : Acc := { kind := .write, va := va, size := n, watch := false, align := 1 }
  let w : Who := { asid := s.bteAsid q, coil := none, unit := s.bteUnit q }
  let due (s : State) : State := s.updBte q (fun b => { b with due := b.due ++ [(off, n, v)] })
  match (s.updBte q (fun b => { b with due := b.due.filter (fun d => d.1 != off) })).placeWrites w [a] with
  | (.ok (p :: _), s1) => s1.engineWrite (.bteQueue q) 0 0 va p (toBytes n v) false
  | (.ok [], s1) => s1
  | (.wait, s1) => due s1
  | (.cause _, s1) => s1
  | (.fault a c l p, s1) => due (s1.bteFault q 0 1 a c l p).2

/-- A queue enters ERROR (R231). -/
def State.bteError (s : State) (q : Nat) : State :=
  let s1 := (s.bteSet q 20 1 2).bteMirror q 16 1 2
  let a := aBteErr (q / 64)
  (s1.setRegN a (s1.regN a ||| 2 ^ (q % 64))).interrupt (s1.regF aBteCfg 47 32)

/-- A packet has no chunk left. -/
def BtePacket.complete (p : BtePacket) : Bool := p.started && (upFrom 0 p.chunks).all (fun k => bit p.done k)

/-- TL rises past completed packets in number order, with its mirror; SAVED falls to 0 once the saved packets have completed (R179,
R228, R232). -/
def State.bteSettle (s : State) (q : Nat) : State :=
  match Dict.find? s.bte q with
  | none => s
  | some b =>
    let left := (b.packets.filter (fun p => !p.complete)).map BtePacket.number
    let tl := match left with
      | [] => s.bteAcc q
      | n :: r => r.foldl Nat.min n - 1
    let s1 := s.updBte q (fun b =>
      { b with packets := b.packets.filter (fun p => decide (tl < p.number)), cancels := b.cancels.filter (fun n => decide (tl < n)) })
    let s2 := if tl = s.bteTl q then s1 else (s1.bteSet q 32 8 tl).bteMirror q 8 8 tl
    if s2.bteF q 28 1 ≠ 0 ∧ !(left.any (fun n => decide (n ≤ b.accAtOpen))) then s2.bteSet q 28 1 0 else s2

/-- A packet as the queue accepts or replays it. -/
def newPacket (number : Nat) (bytes : List Byte) (done : Nat) : BtePacket :=
  { number := number, bytes := bytes, started := false, waiting := false, recs := [], chunks := pkChunks bytes, done := done, err := 0, begun := done
    writing := 0, results := [], failAll := if pkMalformed bytes then 6 else 0, noRecord := pkOp bytes == 0 || pkCompl bytes % 32 != 0, held := false }

/-- The records that a packet reads when it begins: source, destination, index; none for one that it does not read (R223). -/
def pkRecords (b : List Byte) : List (Option Nat) :=
  [if pkOp b = 1 then some (recN b 12 8) else none, some (recN b 20 8), if pkFlag b 0 then some (recN b 28 8) else none]

/-- A packet begins: its chunks come up. -/
def State.startPacket (s : State) (q n : Nat) (f : BtePacket → BtePacket) : State :=
  match s.packet? q n with
  | none => s
  | some p =>
    (((s.updPacket q n (fun p => { f p with started := true })).forget (.packet q n)).push
      (((upFrom 0 p.chunks).filter (fun k => !bit p.done k)).map (fun k => .bteChunk q n k))).bteSettle q

/-- The way to another pod: its connection, its Ethernet port and its connection record; none where the route or the record is missing, or where the
record is malformed (R57-R59). A record that is poisoned, or that does not lie at a multiple of 64 in device memory, counts as malformed (log 67). -/
def State.podConn (s : State) (pod : Nat) : Option (Nat × Nat × List Byte) :=
  let r := s.regN (aPodRoute pod)
  let base := s.regN aRoceBase
  let c := base + 64 * bits r 15 0
  let l := s.peekBytes c 64
  if bit r 31 && base % 64 == 0 && decide (c + 64 ≤ s.memBytes) && !s.inCarve c && !s.memPoison c 64
      && recN l 38 2 == 0 && recN l 43 1 == 0 && recN l 47 1 == 0 && recN l 52 12 == 0 then some (bits r 15 0, bits r 30 30, l)
  else none

/-- The packet names a target in another pod (R57). -/
def State.pkFar (s : State) (b : List Byte) : Bool := (pkFlag b 4 || pkFlag b 5) && pkPeer b / 2 ^ 10 != s.pod

/-- Begins a packet that waits to begin, when its coil is there and its records can be read (R224, R230). -/
def State.tryStart (s : State) (q : Nat) (p : BtePacket) : State :=
  let cancelled := match Dict.find? s.bte q with | some b => b.cancels.contains p.number | none => false
  if p.waiting || p.held then s
  else if s.packetWaits q p then s.updPacket q p.number (fun p => { p with held := true })
  else if p.failAll ≠ 0 then s.startPacket q p.number id
  else if pkOp p.bytes = 0 then s.startPacket q p.number id
  else if cancelled then s.startPacket q p.number (fun p => { p with failAll := 8 })
  else if s.pkFar p.bytes && (s.podConn (pkPeer p.bytes / 2 ^ 10)).isNone then s.startPacket q p.number (fun p => { p with failAll := 4 })
  else match s.readSpans (s.bteWho q p.bytes) (.packet q p.number) 64 (pkRecords p.bytes) with
    | (.later, s1) => s1
    | (.cause c, s1) => s1.startPacket q p.number (fun p => { p with failAll := s.chunkCode q c })
    | (.fault a c l e, s1) =>
      let (ok, s2) := s1.bteFault q p.number 64 a c l e
      if ok then s2.updPacket q p.number (fun p => { p with waiting := true }) else s2
    | (.data l, s1) =>
      let recs := l.map (fun e => (e.getD ([], false)).1)
      let poisoned := l.any (fun e => (e.getD ([], false)).2)
      let bad := ((l.zip recs).any (fun e => e.1.isSome && recBad e.2))
      s1.startPacket q p.number (fun p => { p with recs := recs, failAll := if poisoned then 9 else if bad then 6 else 0 })

/-- Accepts the packet in slot RD when its LAP matches (R221). -/
def State.acceptPacket (s : State) (q : Nat) (slot : List Byte) : State :=
  let rd := s.bteRd q
  if recN slot 63 1 ≠ (rd >>> s.bteLog2 q) % 255 + 1 then s
  else
    let n := s.bteAcc q + 1
    let s1 := ((s.bteSet q 24 4 ((rd + 1) % 2 ^ 32)).bteSet q 40 8 n).bteMirror q 4 4 ((rd + 1) % 2 ^ 32)
    (s1.updBte q (fun b => { b with packets := b.packets ++ [newPacket n slot 0] })).bteSettle q

/-- What a poll reads of a queue's header or ring: a cause or poison puts it in ERROR, a fault waits (R221, R231). -/
def State.bteRead (s : State) (q va n : Nat) (body : State → List Byte → State) : State :=
  let w : Who := { asid := s.bteAsid q, coil := none, unit := s.bteUnit q }
  match s.readList w (.bteQueue q) .current (pieces 64 .read 2 va n) with
  | (.later, s1) => s1
  | (.cause _, s1) => s1.bteError q
  | (.fault a c l p, s1) =>
    let (ok, s2) := s1.bteFault q 0 0 a c l p
    if ok then s2.updBte q (fun b => { b with waiting := true }) else s2
  | (.data l, s1) => if l.any Prod.snd then s1.bteError q else body s1 (l.map Prod.fst).flatten

/-- Saved packets of a queue that are still to begin, in number order: ring packets and later ones wait for them (R232). -/
def BteQueue.toReplay (b : BteQueue) : List BtePacket :=
  b.packets.filter (fun p => decide (p.number ≤ b.accAtOpen) && !p.started && !p.held)

/-- A poll of a queue: claimed slots are observed and logged, and the packet in slot RD is accepted (R221, R282). -/
def State.pollQueue (s : State) (q : Nat) (b : BteQueue) : State :=
  if b.waiting || b.draining.isSome || !b.toReplay.isEmpty || decide (4 ≤ (b.packets.filter (fun p => !p.complete)).length) then s
  else s.bteRead q (s.bteUhdr q) 4 (fun s1 l =>
    let wr := ofBytes l
    let n := (wr + 2 ^ 32 - s1.bteRd q) % 2 ^ 32
    if n = 0 ∨ 2 ^ 31 < n then s1.forget (.bteQueue q)
    else
      let s2 := if wr = b.seenWr then s1 else (s1.logInput 4 q wr []).updBte q (fun b => { b with seenWr := wr })
      s2.bteRead q (s2.bteRing q + 64 * (s2.bteRd q % 2 ^ s2.bteLog2 q)) 64 (fun s3 slot => (s3.acceptPacket q slot).forget (.bteQueue q)))

/-- Saved packets begin, each once those before it have begun (R232). -/
def State.replaySaved (s : State) (q : Nat) : State :=
  match Dict.find? s.bte q with
  | some b => b.toReplay.foldl (fun s p =>
      if (Dict.find? s.bte q).any (fun b => b.toReplay.any (fun r => decide (r.number < p.number))) then s else s.tryStart q p) s
  | none => s

/-- Packets from the ring that wait to begin are tried (R224). -/
def State.startRing (s : State) (q : Nat) : State :=
  match Dict.find? s.bte q with
  | some b => (b.packets.filter (fun p => !p.started && decide (b.accAtOpen < p.number))).foldl (fun s p => s.tryStart q p) s
  | none => s

/-- BTE_POLL: mirrors that are due, saved packets, the poll itself while the queue is OPEN, and packets that wait to begin (R219, R221, R224,
R232). -/
def execBtePoll (q : Nat) (s : State) : Out :=
  .next (match Dict.find? s.bte q with
    | none => s
    | some b =>
      let s1 := b.due.foldl (fun s d => s.bteMirror q d.1 d.2.1 d.2.2) (s.updBte q (fun b => { b with due := [] }))
      let s2 := s1.replaySaved q
      let s3 := (match Dict.find? s2.bte q with
        | some b => if s2.bteState q = 1 then s2.pollQueue q b else s2
        | none => s2).startRing q
      let live := s3.bteState q == 1 || (match Dict.find? s3.bte q with | some b => b.packets.any (fun p => !p.started) || b.due != [] | none => false)
      if live && !s3.agenda.contains (.btePoll q) then s3.push [.btePoll q] else s3)

/-- One word of a completion record is combined with a value: in this device at once, elsewhere by an atomic request (R228). -/
def State.recordWord (s : State) (q n k va : Nat) (p : Place) (op : AtomicOp) (v : Nat) : Got × State :=
  if p.isRemote then s.remoteDo (.chunk q n k) p .atomic va 8 (toBytes 8 v ++ (if op = .cas then toBytes 8 0 else [])) (some (op, 3))
  else
    let f (old : Nat) : Nat × FpFlags := (if op = .cas then (if old % 256 = 0 then old + v else old) else old ||| v, 0)
    let (_, _, _, s1) := s.rmw .current (pkCctx ((s.packet? q n).elim [] BtePacket.bytes)) 0 va p 8 f
    (.data [] false, s1)

/-- Combines words in order; true once every one has been performed, none where one is refused. -/
def State.recordWords (s : State) (q n k : Nat) : List (Nat × Place × AtomicOp × Nat) → Option Bool × State
  | [] => (some true, s)
  | (va, p, op, v) :: r => match s.recordWord q n k va p op v with
    | (.data _ _, s1) => State.recordWords s1 q n k r
    | (.later, s1) => (some false, s1)
    | (_, s1) => (none, s1)

/-- A chunk is done (R228). -/
def State.chunkDone (s : State) (q n k code : Nat) : State :=
  ((s.updPacket q n (fun p =>
    { p with done := p.done ||| 2 ^ k, err := if code = 0 then p.err else p.err ||| 2 ^ k, results := p.results.filter (fun e => e.1 != k) })).forget
      (.chunk q n k)).bteSettle q

/-- The completion record of a chunk with a code: ERR and CODE, then DONE (R228, R415); abandoned where it is unusable. -/
def State.chunkRecord (s : State) (q n k code : Nat) (p : BtePacket) : State :=
  let abandon (s : State) : State := (s.updPacket q n (fun p => { p with noRecord := true })).chunkDone q n k code
  if p.noRecord then s.chunkDone q n k code
  else
    let c := pkCompl p.bytes
    let acc (i : Nat) : Acc := { kind := .atomic, va := c + 8 * i, size := 8, watch := false, pcieAtomic := false }
    match s.placeWrites (s.bteWho q p.bytes) [acc 0, acc 1, acc 2] with
    | (.cause _, s1) => abandon s1
    | (.wait, s1) => s1.push [.bteChunk q n k]
    | (.fault a e l t, s1) =>
      let (ok, s2) := s1.bteFault q n (128 + k) a e l t
      if ok then s2 else s2.push [.bteChunk q n k]
    | (.ok ps, s1) =>
      let at0 (i : Nat) : Place := ps.getD i (.mem 0)
      let first := (p.err == 0) && code != 0
      let words := (if code = 0 then [] else [(c + 8, at0 1, AtomicOp.or, 2 ^ k)] ++ (if first then [(c + 16, at0 2, AtomicOp.cas, code)] else []))
        ++ [(c, at0 0, AtomicOp.or, 2 ^ k)]
      match s1.recordWords q n k words with
      | (some true, s2) => s2.chunkDone q n k code
      | (some false, s2) => s2
      | (none, s2) => abandon s2

/-- A chunk has its outcome; its record follows. -/
def State.chunkResult (s : State) (q n k code : Nat) : State :=
  let s1 := (s.forget (.chunk q n k)).updPacket q n (fun p => { p with results := p.results ++ [(k, code)] })
  match s1.packet? q n with
  | some p => s1.chunkRecord q n k code p
  | none => s1

/-- An RDMA transfer leaves for a chunk on a connection, with its record, by its Ethernet port, and waits for its completion (R57, R58). -/
def State.rdmaSend (s : State) (q n k : Nat) (b : List Byte) (write : Bool) (parts : List (Nat × Nat × List Byte)) (way : Nat × Nat × List Byte) :
    State :=
  let (id, s1) := s.fresh
  let r : RemoteReq :=
    { p := noPath, op := 0, kind := if write then .write else .read, size := 0, reader := some (.chunk q n k), port := 253, board := pkPeer b / 2 ^ 10
      device := way.1, parts := [{ lane := 0, va := 0, pos := 0, len := 0, dst := 2 ^ 20 }] }
  ({ s1 with remotes := Dict.put s1.remotes id r } : State).send (.rdmaReq q n k way.2.1 way.2.2 (pkPeer b) write parts)

/-- The source bytes of a chunk's elements with their poison (R225, R226). -/
def State.chunkSource (s : State) (q n k : Nat) (p : BtePacket) (src : List (Option Nat)) : Spans × State :=
  let b := p.bytes
  let e := pkElem b
  if pkOp b = 2 then (.data ((chunkElems b k).map (fun _ => some ((b.drop 12).take e, false))), s)
  else if pkFlag b 5 then
    if s.pkFar b then
      match s.arrivedFor (.chunk q n k) .read 0 0 with
      | some a => (match a.cause with
        | some c => (.cause c, s)
        | none =>
          (.data (((upFrom 0 src.length).zip src).map (fun x => x.2.map (fun _ =>
            let at0 := ((src.take x.1).filter Option.isSome).length
            ((a.bytes.drop (e * at0)).take e, a.poisoned)))), s))
      | none => (match s.podConn (pkPeer b / 2 ^ 10) with
        | none => (.cause .fabricUnreachable, s)
        | some way => (.later, s.rdmaSend q n k b false ((src.filterMap id).map (fun a => (a, e, []))) way))
    else s.readSpans (s.bteWho q b) (.chunk q n k) e (src.map (fun o => o.map (peerVa (pkPeer b))))
  else s.readSpans (s.bteWho q b) (.chunk q n k) e src

/-- The writes of a chunk: address, bytes, poison; those of an element that crosses words one for each word. -/
def chunkWrites (e : Nat) (dst : List (Option Nat)) (data : List (Option (List Byte × Bool))) : List (Nat × List Byte × Bool) :=
  (dst.zip data).filterMap (fun x => x.1.map (fun a => match x.2 with
    | some (l, bad) => (a, l, bad)
    | none => (a, List.replicate e 0, false)))

/-- The accesses of some writes, with the bytes of each. -/
def writeAccs (l : List (Nat × List Byte × Bool)) : List (Acc × List Byte × Bool) :=
  l.flatMap (fun w => (pieces 8 .write w.2.1.length w.1 w.2.1.length).map (fun a =>
    (a, ((w.2.1.drop ((a.va + 2 ^ 64 - w.1 % 2 ^ 64) % 2 ^ 64)).take a.size), w.2.2)))

/-- A chunk's destination is judged as a whole, and then written (R226, R227). -/
def State.chunkStore (s : State) (q n k : Nat) (p : BtePacket) (dst : List (Option Nat)) (data : List (Option (List Byte × Bool))) : State :=
  let b := p.bytes
  let e := pkElem b
  let rd := Reader.chunk q n k
  let sent (s : State) : State :=
    if s.awaits rd then s.updPacket q n (fun p => { p with writing := p.writing ||| 2 ^ k }) else s.chunkResult q n k 0
  if pkFlag b 4 && s.pkFar b then
    let w := chunkWrites e dst data
    if w = [] then s.chunkResult q n k 0
    else match s.podConn (pkPeer b / 2 ^ 10) with
      | none => s.chunkResult q n k 4
      | some way => sent (s.rdmaSend q n k b true (w.map (fun x => (x.1, e, x.2.1))) way)
  else
    let dst := if pkFlag b 4 then dst.map (fun o => o.map (peerVa (pkPeer b))) else dst
    let l := writeAccs (chunkWrites e dst data)
    match s.placeWrites (s.bteWho q b) (l.map Prod.fst) with
    | (.cause c, s1) => s1.chunkResult q n k (s.chunkCode q c)
    | (.wait, s1) => s1.push [.bteChunk q n k]
    | (.fault a c v t, s1) =>
      let (ok, s2) := s1.bteFault q n k a c v t
      if ok then s2 else s2.push [.bteChunk q n k]
    | (.ok ps, s1) =>
      sent (s1.asOne (fun s => (l.zip ps).foldl (fun s x => s.engineWrite rd (pkCctx b) 0 x.1.1.va x.2 x.1.2.1 x.1.2.2) s))

/-- The outcome of reads that did not give data. -/
def State.chunkStop (s : State) (q n k : Nat) : Spans → State
  | .cause c => s.chunkResult q n k (s.chunkCode q c)
  | .fault a c l t =>
    let (ok, s1) := s.bteFault q n k a c l t
    if ok then s1 else s1.push [.bteChunk q n k]
  | _ => s

/-- A chunk is mapped, read, judged and written (R225-R227). -/
def State.chunkRun (s : State) (q n k : Nat) (p : BtePacket) : State :=
  let b := p.bytes
  let none' := (chunkElems b k).map (fun _ => (none : Option Int))
  let go (s : State) (vals : List (Option Int)) : State :=
    let src := if pkOp b = 1 then sideAddrs p k p.src (pkFlag b 5) (pkFlag b 0 && !pkFlag b 1) vals else some []
    let dst := sideAddrs p k p.dst (pkFlag b 4) (pkFlag b 0 && pkFlag b 1) vals
    match src, dst with
    | some src, some dst =>
      (match s.chunkSource q n k p src with
      | (.data l, s1) => s1.chunkStore q n k p dst l
      | (e, s1) => s1.chunkStop q n k e)
    | _, _ => s.chunkResult q n k 1
  if pkFlag b 0 then
    match idxAddrs p k with
    | none => s.chunkResult q n k 1
    | some l => match s.readSpans (s.bteWho q b) (.chunk q n k) 4 l with
      | (.data w, s1) => if w.any (fun e => (e.getD ([], false)).2) then s1.chunkResult q n k 9 else go s1 (idxVals w)
      | (e, s1) => s1.chunkStop q n k e
  else go s none'

/-- BTE_CHUNK: a chunk goes on (R226-R230, R416). -/
def execBteChunk (q n k : Nat) (s : State) : Out :=
  .next (match s.packet? q n, Dict.find? s.bte q with
    | some p, some b =>
      let rd := Reader.chunk q n k
      if !p.started || bit p.done k || decide (p.chunks ≤ k) || s.awaits rd then s
      else if p.held then s
      else if s.packetWaits q p then s.updPacket q n (fun p => { p with held := true })
      else match p.results.find? (fun e => e.1 == k) with
        | some e => s.chunkRecord q n k e.2 p
        | none =>
          if p.failAll ≠ 0 then s.chunkResult q n k p.failAll
          else if b.cancels.contains n && !bit p.begun k then s.chunkResult q n k 8
          else if bit p.writing k then
            s.chunkResult q n k (match s.writeCause rd with | some c => s.chunkCode q c | none => 0)
          else (s.updPacket q n (fun p => { p with begun := p.begun ||| 2 ^ k })).chunkRun q n k p
    | _, _ => s)

/-- The chunks in progress of a packet are abandoned (R229). -/
def State.squash (s : State) (q n : Nat) : State :=
  let mine (r : Reader) : Bool := match r with
    | .chunk a b _ => a == q && b == n
    | .packet a b => a == q && b == n
    | _ => false
  ({ s with
    remotes := (s.disown (fun r => r.reader.any mine)).remotes
    arrived := s.arrived.filter (fun a => !mine a.reader)
    faults := List.map (fun (e : Nat × FaultRec) => (e.1, { e.2 with waiters := e.2.waiters.filter (fun w => match w with
      | .bte a b _ => !(a == q && b == n && n != 0)
      | _ => true) })) s.faults
    agenda := s.agenda.filter (fun i => match i with | .bteChunk a b _ => !(a == q && b == n) | _ => true) } : State).updPacket q n
      (fun p => { p with writing := 0, waiting := false, results := [] })

/-- Chunks of a packet come up again from their first element (R229). -/
def State.replay (s : State) (q : Nat) (p : BtePacket) : State :=
  if p.started then s.push (((upFrom 0 p.chunks).filter (fun k => !bit p.done k)).map (fun k => .bteChunk q p.number k)) else s

/-- CLOSE ends: packets in progress go to the save area, STATE is CLOSED (R229, R231, R232). -/
def State.bteCloseNow (s : State) (q : Nat) (b : BteQueue) : State :=
  let l := b.packets.filter (fun p => !p.complete)
  let s1 := l.foldl (fun s p => s.squash q p.number) s
  let base := s1.regF aBteSave 63 12 * 4096 + 512 * q
  let s2 := ((upFrom 0 l.length).zip l).foldl (fun s e =>
    (s.write (base + 128 * e.1) (e.2.bytes ++ toBytes 8 e.2.number ++ List.replicate 56 0) false).bteSet q (64 + 8 * e.1) 8 e.2.done) s1
  let s3 := ((s2.bteSet q 28 1 l.length).bteSet q 20 1 0).bteMirror q 16 1 0
  s3.updBte q (fun b =>
    { b with packets := [], draining := none, waiting := false, kept := l.map (fun p => (p.number, pkCctx p.bytes, p.failAll == 5)) })

/-- MOVE ends: the queue is bound to another engine, which replays its packets (R229, R231). -/
def State.bteMoveNow (s : State) (q engine : Nat) (b : BteQueue) : State :=
  let l := b.packets.filter (fun p => !p.complete)
  let s1 := l.foldl (fun s p => s.squash q p.number) s
  l.foldl (fun s p => if p.held then s else s.replay q p) ((s1.bteSet q 21 1 engine).updBte q (fun b => { b with draining := none }))

/-- The packets of a queue whose coil comes to a stop are squashed and held (R229). -/
def State.holdStopped (s : State) (q : Nat) : State :=
  match Dict.find? s.bte q with
  | none => s
  | some b => (b.packets.filter (fun p => !p.complete && !p.held && (match s.bteCoil q p.bytes with
      | some (c, _) => (match c.residency with | .stopping _ => true | .saved _ _ => true | _ => false)
      | none => false) && s.packetTouches q p)).foldl (fun s p => (s.squash q p.number).updPacket q p.number (fun p => { p with held := true })) s

/-- BTE_DRAIN_EXPIRY: the drain limit has passed; what remains is squashed, and a CLOSE or a MOVE ends (R229). -/
def execBteDrainExpiry (q : Nat) (s : State) : Out :=
  .next (let s1 := s.holdStopped q
    match Dict.find? s1.bte q with
    | none => s1
    | some b => match b.draining with
      | some (_, 1, _) => s1.bteCloseNow q b
      | some (_, _, e) => s1.bteMoveNow q e b
      | none => s1)

/-- STATUS of `BTE_QCMD` (R231). -/
def State.bteStatus (s : State) (n : Nat) : State := s.setRegF aBteQcmd 42 40 n

/-- A CLOSE or a MOVE: at once where nothing is in progress or the limit is 0, else after the drain. -/
def State.bteDrain (s : State) (q hart op engine : Nat) : State :=
  let s1 := if (Dict.find? s.bte q).isSome then s
    else { s with bte := Dict.put s.bte q { accAtOpen := 0, packets := [], cancels := [], draining := none, waiting := false, seenWr := 0, due := [], kept := [] } }
  match Dict.find? s1.bte q with
  | none => s1
  | some b =>
    if b.packets.all BtePacket.complete || s1.regF aBteCfg 63 48 == 0 then
      (if op = 1 then s1.bteCloseNow q b else s1.bteMoveNow q engine b)
    else (s1.updBte q (fun b => { b with draining := some (hart, op, engine) })).push [.bteDrainExpiry q]

/-- The table entry of a queue passes the checks of OPEN, its reserved bytes among them (R6, R231). -/
def State.bteEntryOk (s : State) (q : Nat) : Bool :=
  let l := s.bteLog2 q
  decide (6 ≤ l) && decide (l ≤ 20) && s.bteRing q % (64 * 2 ^ l) == 0 && s.bteUhdr q % 64 == 0 && bits (s.bteF q 19 1) 7 3 == 0
    && s.bteF q 22 2 == 0 && s.bteF q 29 3 == 0 && s.bteF q 48 16 == 0 && s.bteF q 96 32 == 0 && decide (s.bteF q 21 1 < 32) && s.asidLive (s.bteAsid q)

/-- OPEN (R231, R232). -/
def State.bteOpenOp (s : State) (q : Nat) : State :=
  let s := s.noteCarve (s.bteAt q)
  if s.bteState q ≠ 0 then s.bteStatus 2
  else if !s.bteEntryOk q then s.bteStatus 4
  else
    let old := Dict.find? s.bte q
    let base := s.regF aBteSave 63 12 * 4096 + 512 * q
    let saved := (upFrom 0 (s.bteF q 28 1)).map (fun j =>
      let n := s.peekN (base + 128 * j + 64) 8
      let p := newPacket n (s.peekBytes (base + 128 * j) 64) (s.bteF q (64 + 8 * j) 8)
      let doomed := match old with | some b => b.kept.any (fun e => e.1 == n && e.2.2) | none => false
      if doomed then { p with failAll := 5 } else p)
    let b : BteQueue :=
      { accAtOpen := s.bteAcc q, packets := saved, cancels := match old with | some b => b.cancels | none => [], draining := none, waiting := false
        seenWr := 0, due := [], kept := [] }
    let s1 := (({ s with bte := Dict.put s.bte q b } : State).bteSet q 24 4 0).bteSet q 20 1 1
    ((((s1.bteMirror q 4 4 0).bteMirror q 8 8 (s1.bteTl q)).bteMirror q 16 1 1).bteStatus 0).push [.btePoll q]

/-- CLOSE (R231, R232). -/
def State.bteCloseOp (s : State) (q hart : Nat) : State :=
  let busy := match Dict.find? s.bte q with | some b => b.packets.any (fun p => !p.complete) | none => false
  if s.bteState q = 0 then s.bteStatus 2
  else if busy && s.regF aBteSave 63 12 == 0 then s.bteStatus 3
  else (s.bteStatus 0).bteDrain q hart 1 0

/-- MOVE (R231). -/
def State.bteMoveOp (s : State) (q hart engine : Nat) : State := (s.bteStatus 0).bteDrain q hart 2 engine

/-- The operation that a write of `BTE_QCMD` orders (R231). -/
def State.bteCommand (s : State) (hart v : Nat) : State :=
  let q := bits v 9 0
  let op := bits v 13 12
  if op = 3 then s.bteStatus 0
  else if s.bteCount ≤ q then s.bteStatus 1
  else if op = 0 then s.bteOpenOp q
  else if op = 1 then s.bteCloseOp q hart
  else s.bteMoveOp q hart (bits v 36 32)

/-- A dedicated row runs the operation that its register write orders. -/
def State.bteRow (s : State) (op q engine : Nat) : State :=
  let v := op * 2 ^ 12 + engine % 32 * 2 ^ 32 + q % 1024
  (s.setRegN aBteQcmd v).bteCommand 0 v

/-- BTE_OPEN, BTE_CLOSE and BTE_MOVE (R231). -/
def execBteOpen (q : Nat) (s : State) : Out := .next (s.bteRow 0 q 0)
def execBteClose (q : Nat) (s : State) : Out := .next (s.bteRow 1 q 0)
def execBteMove (q engine : Nat) (s : State) : Out := .next (s.bteRow 2 q engine)

/-- The answer of Holver to a record on which a BTE queue waits (R69, R226, R228, R231). -/
def State.bteResume (s : State) (q n k : Nat) (deny : Bool) : State :=
  if n = 0 then
    let s1 := s.updBte q (fun b => { b with waiting := false, due := if deny && k == 1 then [] else b.due })
    if deny && k == 0 then s1.bteError q else if s1.agenda.contains (.btePoll q) then s1 else s1.push [.btePoll q]
  else if k = 64 then
    let s1 := s.updPacket q n (fun p => { p with waiting := false })
    if deny then s1.startPacket q n (fun p => { p with failAll := 2 })
    else if s1.agenda.contains (.btePoll q) then s1 else s1.push [.btePoll q]
  else if 128 ≤ k then
    let s1 := if deny then s.updPacket q n (fun p => { p with noRecord := true }) else s
    s1.push [.bteChunk q n (k - 128)]
  else if deny then s.chunkResult q n k 2 else s.push [.bteChunk q n k]

end Sys2Proof.Machine
end

