-- ==== Sys2Proof/Machine/Context.lean ====
section
/-! DEFINITION. The saved context of a coil: its layout in a save slot, and its way back (R132-R134; log 40, 41). -/

namespace Sys2Proof.Machine

open Sys2Proof

/-- A word of a context, with its poison. -/
abbrev CtxWord := W64 × Bool

/-- The words that bytes fill. -/
def plainWords (l : List Byte) : List CtxWord :=
  (upFrom 0 (ceilDiv l.length 8)).map (fun i => (BitVec.ofNat 64 (recN l (8 * i) 8), false))

/-- A section, up to the next boundary of 4,096 bytes. -/
def section4k (l : List CtxWord) : List CtxWord := l ++ List.replicate (ceilDiv l.length 512 * 512 - l.length) (0, false)

/-- Byte 32 of a descriptor (R97). -/
def Desc.layout (d : Desc) : Nat :=
  (if d.lanes = 16 then 0 else if d.lanes = 32 then 1 else 2) + 4 * b2n d.pair + 8 * b2n d.cores + 16 * b2n d.trapKill

/-- PARK (R133); of a rendezvous of the coil's transaction, for which R133 has no code, a free one (log 41). -/
def Park.code : Park → Nat
  | .running => 0
  | .barrier _ _ => 1
  | .hoop _ _ _ _ _ => 2
  | .gang _ => 3
  | .upcall _ _ => 4
  | .fault _ _ _ _ _ => 5
  | .join _ _ => 6
  | .ending => 7
  | .twait _ _ _ _ _ => 8
  | .waitPath _ _ => 9
  | .waitTimeline _ _ _ => 9
  | .waitMem _ _ _ => 9
  | .cpWait _ _ _ _ => 9
  | .reorder => 10
  | .splitWait _ _ => 11
  | .plyRdv _ _ _ _ => (Config.spare 133 0).toNat % 256
  | .trap _ _ _ => 12

/-- JOIN_PC and UPCALL of a path (R133). -/
def Park.joinPc : Park → Nat
  | .join a _ => a.toNat
  | _ => 0
def Park.upcallIndex : Park → Nat
  | .upcall (some i) _ => i
  | .trap _ (some i) _ => i
  | _ => 0

/-- The TXN layout (R133). -/
def txnBytes (t : Option Txn) : List Byte :=
  match t with
  | none => toBytes 16 0
  | some t =>
    toBytes 1 (if t.aborted.isSome then 2 else 1) ++ toBytes 1 (t.aborted.getD 0) ++ [0, 0] ++ toBytes 4 t.tag
      ++ toBytes 8 (t.snap.gen % 2 ^ 32 * 2 ^ 32 + t.snap.entry)

def txnStamp (t : Option Txn) : List Byte := toBytes 8 (match t with | some t => t.snap.stamp | none => 0)

/-- Operations of a coil that its matrix-intake section holds, oldest first (R134). -/
def State.intakeOf (s : State) (k : Nat) : List EngineOp := (s.ops.filter (fun e => e.2.coil == k && e.2.ctx == 0)).map Prod.snd

/-- The header (R132). -/
def State.ctxHeader (s : State) (k : Nat) (c : Coil) (d : Desc) (cause : Nat) : List CtxWord :=
  let strands (f : Strand → Bool) : Nat := (maskOf ((upFrom 0 c.strands.length).filter (fun i => (c.strands[i]?).any f))).toNat
  plainWords (toBytes 8 c.bolt ++ toBytes 4 c.x ++ toBytes 2 c.y ++ toBytes 2 c.z ++ toBytes 8 d.addr.toNat ++ toBytes 1 cause
    ++ toBytes 1 d.layout ++ toBytes 1 d.nstr ++ toBytes 5 0 ++ toBytes 8 c.insnUsed ++ toBytes 4 c.wallUsed ++ toBytes 4 0
    ++ toBytes 8 (c.timeline 0) ++ toBytes 8 (c.timeline 1) ++ toBytes 8 (c.timeline 2)
    ++ toBytes 8 (strands (fun st => st.root.park == .reorder))
    ++ toBytes 2 ((upFrom 0 16).foldl (fun n b => n + b2n (Tab.get false c.barArmed b) * 2 ^ b) 0) ++ toBytes 14 0
    ++ (upFrom 0 8).flatMap (fun h => toBytes 8 (Tab.get 0 c.hoops h).toNat) ++ Tab.getRun 0 c.codebook 0 256)
  ++ (upFrom 0 16).map (fun b => (Tab.get 0 c.bars b, Tab.get false c.barPoison b))
  ++ plainWords ((upFrom 0 16).flatMap (fun t => toBytes 4 (Tab.get 0 c.accStat t).toNat)
    ++ (upFrom 0 16).flatMap (fun b => toBytes 8 (Tab.get 0 c.barArrived b).toNat)
    ++ (upFrom 0 8).flatMap (fun i => match c.handles[i]? with | some h => toBytes 8 (h.gen % 2 ^ 32 * 2 ^ 32 + h.entry) | none => toBytes 8 0)
    ++ txnBytes c.openTxn ++ toBytes 8 c.plyArrived.toNat ++ toBytes 1 (s.intakeOf k).length ++ txnStamp c.txn ++ toBytes 191 0)

/-- Scalar registers as the words of a path. -/
def Strand.sWords (st : Strand) (p lo n : Nat) : List CtxWord := (upFrom lo n).map (fun r => (st.getS p r, st.badS p r))

/-- A split-table entry (R133). -/
def Strand.ctxEntry (st : Strand) (e : Nat) : List CtxWord :=
  match Dict.find? st.entries e with
  | none => List.replicate 21 (0, false)
  | some p =>
    plainWords (toBytes 8 p.pc.toNat ++ toBytes 8 p.em.toNat ++ toBytes 1 p.scc.toNat ++ toBytes 1 (if p.park = .running then 1 else 2)
      ++ toBytes 1 p.parent ++ toBytes 1 p.park.code ++ toBytes 1 (b2n p.splitSince) ++ toBytes 3 0 ++ toBytes 8 p.park.joinPc
      ++ toBytes 4 p.park.upcallIndex ++ toBytes 4 p.seq.toNat) ++ st.sWords e 48 16

/-- A strand record (R133). -/
def State.ctxStrand (s : State) (k i : Nat) (st : Strand) : List CtxWord :=
  let r := st.root
  let rays := (s.ops.filter (fun e => e.2.coil == k && e.2.strand == i && e.2.ctx == 3)).map Prod.snd
  let pend := maskOf (rays.filterMap (fun o => match o.kind with | .ray l _ _ _ _ _ _ _ => some l | .beam _ _ _ l => some l | _ => none))
  let gangSet := (maskOf ((upFrom 0 (bits st.gang.toNat 2 0)).map (fun j => bits st.gang.toNat (6 * j + 8) (6 * j + 3)))).toNat
  section4k (st.sWords 15 0 64
    ++ plainWords (toBytes 8 r.pc.toNat ++ toBytes 8 r.em.toNat ++ (upFrom 1 15).flatMap (fun m => toBytes 8 (Tab.get 0 st.kregs m).toNat)
      ++ toBytes 1 r.scc.toNat ++ toBytes 1 r.park.code ++ toBytes 1 (b2n r.splitSince) ++ toBytes 1 st.queue.length
      ++ toBytes 4 r.park.upcallIndex ++ toBytes 8 r.park.joinPc ++ toBytes 8 st.live.toNat ++ toBytes 4 st.cvt.toNat
      ++ toBytes 4 r.seq.toNat ++ toBytes 8 st.fpf.toNat ++ toBytes 8 st.mxp.toNat ++ toBytes 8 st.gang.toNat
      ++ (upFrom 0 8).flatMap (fun m => toBytes 8 (Tab.get 0 st.mregs m).toNat) ++ toBytes 8 pend.toNat ++ toBytes 8 rays.length
      ++ toBytes 4 (Tab.get 0 st.gangRuns gangSet) ++ txnBytes st.txn ++ txnStamp st.txn ++ toBytes 20 0
      ++ (upFrom 0 4).flatMap (fun j => match st.queue[j]? with
        | some q => toBytes 8 q.addr.toNat ++ (upFrom 0 4).flatMap (fun m => toBytes 8 (q.params.getD m 0).toNat) ++ toBytes 1 q.path ++ toBytes 7 0
        | none => toBytes 48 0))
    ++ (upFrom 0 8).flatMap st.ctxEntry)

/-- A record of the matrix-intake section (R134). -/
def EngineOp.ctxRecord (o : EngineOp) : List CtxWord :=
  let isGang := match o.kind with | .mma _ _ g _ _ _ _ _ _ _ _ _ _ => g | _ => false
  plainWords (toBytes 4 (o.word.toNat % 2 ^ 32) ++ toBytes 1 o.strand ++ toBytes 1 (b2n isGang) ++ [0, 0] ++ toBytes 8 o.number
    ++ toBytes 4 o.steps ++ toBytes 4 0 ++ (upFrom 0 28).flatMap (fun i => toBytes 8 (o.regs.getD i 0).toNat)
    ++ toBytes 8 o.gang.toNat)

/-- Halves that a coil occupies. -/
def Desc.halves (d : Desc) : List Nat := if d.pair then [0, 1] else [0]

/-- SRAM addresses of a coil's scratchpad bytes in one half, a granule each (R146). -/
def Coil.granuleKeys (c : Coil) (half : Nat) : List Nat :=
  (if half = 0 then c.granules else c.granulesOdd).map (fun g => (c.hamper + half) * 2 ^ 19 + g * 1024)

/-- The words of a resident coil's scratchpad. -/
def State.scratchWords (s : State) (c : Coil) (d : Desc) : List CtxWord :=
  d.halves.flatMap (fun h => (c.granuleKeys h).flatMap (fun key => (upFrom 0 128).map (fun j =>
    (BitVec.ofNat 64 (ofBytes (s.sramBytes (key + 8 * j) 8)), s.sramBad (key + 8 * j) 8))))

/-- Two accumulator elements to a word, row-major, each half's tiles in turn (R134). -/
def Coil.accWords (c : Coil) (d : Desc) : List CtxWord :=
  d.halves.flatMap (fun h => (upFrom 0 (d.acc * 2048)).map (fun j =>
    let at_ := h * 65536 + 2 * j
    (BitVec.ofNat 64 ((Tab.get 0 c.acc at_).toNat + 2 ^ 32 * (Tab.get 0 c.acc (at_ + 1)).toNat),
      Tab.get false c.accPoison at_ || Tab.get false c.accPoison (at_ + 1))))

/-- The lane registers of a strand (R134). -/
def Strand.vWords (st : Strand) (d : Desc) : List CtxWord :=
  (upFrom 0 (d.vregs * d.lanes)).map (fun j =>
    let key := 64 * (j / d.lanes) + j % d.lanes
    (Tab.get 0 st.vregs key, Tab.get false st.vpoison key))

/-- The words of a coil's context. -/
def State.ctxWords (s : State) (k : Nat) (c : Coil) (d : Desc) (cause : Nat) : List CtxWord :=
  section4k (s.ctxHeader k c d cause)
    ++ ((upFrom 0 c.strands.length).zip c.strands).flatMap (fun e => s.ctxStrand k e.1 e.2)
    ++ section4k (c.strands.flatMap (fun st => st.vWords d))
    ++ section4k (s.scratchWords c d) ++ section4k (c.accWords d) ++ section4k ((s.intakeOf k).flatMap EngineOp.ctxRecord)

/-- First byte of a save slot (R130). -/
def State.slotAt (s : State) (i : Nat) : Nat := s.regF aCtxBase 63 12 * 4096 + i * 2 ^ 22

/-- Writes words to memory, 64 bytes at a time; poisoned words are stored poisoned (R134). -/
def State.putWords (s : State) (pa : Nat) (l : List CtxWord) : State :=
  (upFrom 0 (ceilDiv l.length 8)).foldl (fun s i =>
    let part := (l.drop (8 * i)).take 8
    s.write (pa + 64 * i) (part.flatMap (fun w => toBytes 8 w.1.toNat)) (part.any Prod.snd)) s

/-- Reads back the words that were stored as `l`. A granule's poison falls on the words that carried it when they were stored; one that
none carried, on each (R160; log 40). -/
def State.takeWords (s : State) (pa : Nat) (l : List CtxWord) : List CtxWord :=
  (upFrom 0 (ceilDiv l.length 8)).flatMap (fun i =>
    let part := (l.drop (8 * i)).take 8
    let (b, bad) := s.readView .current (pa + 64 * i) 64
    let fresh := !part.any Prod.snd
    ((upFrom 0 8).zip part).map (fun e => (BitVec.ofNat 64 (recN b (8 * e.1) 8), bad && (fresh || e.2.2))))

/-- A number of `n` bytes at a byte offset of some words. -/
def wordsN (l : List CtxWord) (off n : Nat) : Nat :=
  ofBytes ((((l.drop (off / 8)).take (n / 8 + 2)).flatMap (fun w => toBytes 8 w.1.toNat)).drop (off % 8) |>.take n)

/-- Why a path waits, as PARK, JOIN_PC and UPCALL give it: the wait itself stands as it stood, unless PARK says that the path runs (log 40). -/
def Park.back (p : Park) (code joinPc upc : Nat) : Park :=
  if code = p.code then
    (match p with
    | .join _ label => .join (BitVec.ofNat 64 joinPc) label
    | .upcall (some _) d => .upcall (some upc) d
    | .trap t (some _) under => .trap t (some upc) under
    | q => q)
  else if code = 0 then .running else p

/-- A path as its words give it: PC, `em`, `scc`, SEQ, SPLIT_SINCE, PARK, JOIN_PC and UPCALL (R133). -/
def PathState.back (p : PathState) (pc em scc seq flags park joinPc upc : Nat) : PathState :=
  { p with pc := BitVec.ofNat 64 pc, em := BitVec.ofNat 64 em, scc := BitVec.ofNat 4 scc, seq := BitVec.ofNat 32 seq, splitSince := bit flags 0
           park := p.park.back park joinPc upc }

/-- A transaction as the TXN layout and its stamp give it; one that has aborted since it was saved stays aborted (R133, R200, R454). -/
def txnBack (old : Option Txn) (l : List CtxWord) (off stampAt : Nat) : Option Txn :=
  let tag := wordsN l (off + 4) 4
  let kept := old.filter (fun t => t.tag % 2 ^ 32 == tag)
  if wordsN l off 1 = 0 then none
  else
    let h := wordsN l (off + 8) 8
    some { tag := (kept.map Txn.tag).getD tag, snap := { stamp := wordsN l stampAt 8, entry := bits h 9 0, gen := bits h 63 32 }
           holds := kept.any Txn.holds
           aborted := if kept.any (fun t => t.aborted.isSome) then kept.bind Txn.aborted
             else if wordsN l off 1 = 2 then some (wordsN l (off + 1) 1) else none }

/-- The course queue as CQUEUE gives it (R133). -/
def queueBack (old : List Course) (r : List CtxWord) : List Course :=
  (upFrom 0 (min (wordsN r 651 1) 4)).map (fun j =>
    let at_ := 832 + 48 * j
    { addr := BitVec.ofNat 64 (wordsN r at_ 8), params := (upFrom 0 4).map (fun m => BitVec.ofNat 64 (wordsN r (at_ + 8 + 8 * m) 8))
      path := wordsN r (at_ + 40) 1, number := ((old[j]?).map Course.number).getD 0 })

/-- The split table as SPLITTAB gives it: an entry of STATE 0 is free (R133). -/
def entriesBack (old : Dict PathState) (r : List CtxWord) : Dict PathState :=
  (upFrom 0 8).filterMap (fun e =>
    let n (off k : Nat) : Nat := wordsN r (1024 + 168 * e + off) k
    if n 17 1 = 0 then none
    else
      let p := (Dict.find? old e).getD (freshPath 0 0)
      some (e, { p.back (n 0 8) (n 8 8) (n 16 1) (n 36 4) (n 20 1) (n 19 1) (n 24 8) (n 32 4) with parent := n 18 1 }))

/-- A strand as its record and its lane registers give it; what the record does not hold stands as it stood (R133; log 40). -/
def Strand.back (st : Strand) (d : Desc) (r v : List CtxWord) : Strand :=
  let put (st : Strand) (p lo : Nat) (l : List CtxWord) : Strand :=
    ((upFrom lo l.length).zip l).foldl (fun st e => st.setS p e.1 e.2.1 e.2.2) st
  let entries := entriesBack st.entries r
  let st0 : Strand := { st with entries := entries }
  let st1 := entries.foldl (fun (st : Strand) e => put st e.1 48 ((r.drop (128 + 21 * e.1 + 5)).take 16)) (put st0 15 0 (r.take 64))
  let gang := BitVec.ofNat 64 (wordsN r 696 8)
  let gangSet := (maskOf (gangMembers gang)).toNat
  { st1 with
    root := st1.root.back (wordsN r 512 8) (wordsN r 520 8) (wordsN r 648 1) (wordsN r 676 4) (wordsN r 650 1) (wordsN r 649 1)
      (wordsN r 656 8) (wordsN r 652 4)
    kregs := Tab.setRun 0 [] 1 ((upFrom 0 15).map (fun m => BitVec.ofNat 64 (wordsN r (528 + 8 * m) 8)))
    live := BitVec.ofNat 64 (wordsN r 664 8)
    cvt := BitVec.ofNat 32 (wordsN r 672 4)
    fpf := BitVec.ofNat 5 (wordsN r 680 8)
    mxp := BitVec.ofNat 64 (wordsN r 688 8)
    gang := gang
    mregs := Tab.setRun 0 [] 0 ((upFrom 0 8).map (fun m => BitVec.ofNat 64 (wordsN r (704 + 8 * m) 8)))
    gangRuns := Tab.set 0 st1.gangRuns gangSet (wordsN r 784 4)
    txn := txnBack st.txn r 788 804
    queue := queueBack st.queue r
    vregs := Tab.setAll 0 [] (((upFrom 0 v.length).zip v).map (fun e => (64 * (e.1 / d.lanes) + e.1 % d.lanes, e.2.1)))
    vpoison := Tab.setAll false [] (((upFrom 0 v.length).zip v).map (fun e => (64 * (e.1 / d.lanes) + e.1 % d.lanes, e.2.2))) }

/-- Words of each section of a context: strand records, lane registers, scratchpad, accumulators. -/
def up512 (n : Nat) : Nat := ceilDiv n 512 * 512
def Desc.laneAt (d : Desc) : Nat := 512 + 512 * d.nstr
def Desc.scratchAt (d : Desc) : Nat := d.laneAt + up512 (d.nstr * d.vregs * d.lanes)
def Desc.accAt (d : Desc) : Nat := d.scratchAt + up512 (d.halves.length * d.scratch * 128)
def Desc.intakeAt (d : Desc) : Nat := d.accAt + up512 (d.halves.length * d.acc * 2048)

/-- The bytes of a range of a context are zero. -/
def zeroAt (l : List CtxWord) (off n : Nat) : Bool := wordsN l off n == 0

/-- Reserved fields of a strand record are zero (R6, R133). -/
def strandOk (r : List CtxWord) : Bool :=
  bits (wordsN r 648 1) 7 4 == 0 && bits (wordsN r 650 1) 7 1 == 0 && zeroAt r 790 2 && zeroAt r 812 20
    && (upFrom 0 4).all (fun j => zeroAt r (832 + 48 * j + 41) 7) && (upFrom 0 8).all (fun e => zeroAt r (1024 + 168 * e + 21) 3)
    && zeroAt r 2368 1728

/-- Reserved fields of a context are zero; another is malformed, and its coil is not placed (R6, R132-R134; log 90). -/
def contextOk (d : Desc) (nstr : Nat) (l : List CtxWord) : Bool :=
  zeroAt l 27 5 && zeroAt l 44 4 && zeroAt l 82 14 && zeroAt l 802 2 && zeroAt l 833 191
    && (upFrom 0 nstr).all (fun i => strandOk ((l.drop (512 + 512 * i)).take 512))
    && (upFrom 0 (min (wordsN l 824 1) 16)).all (fun j =>
      let o := 8 * d.intakeAt + 256 * j
      bits (wordsN l (o + 5) 1) 7 1 == 0 && zeroAt l (o + 6) 2 && zeroAt l (o + 20) 4)

/-- The snapshot handles that PLY_HDL gives (R132, R194). -/
def handlesBack (old : List Snap) (snaps : Dict SnapEntry) (l : List CtxWord) : List Snap :=
  (upFrom 0 8).filterMap (fun i =>
    let h := wordsN l (736 + 8 * i) 8
    let x : Snap := { stamp := 0, entry := bits h 9 0, gen := bits h 63 32 }
    if h = 0 then none
    else some ((old.find? (fun y => y.entry == x.entry && y.gen == x.gen)).getD
      { x with stamp := ((Dict.find? snaps x.entry).map SnapEntry.stamp).getD 0 }))

/-- A coil as its context gives it (R132, R134, R135). -/
def Coil.back (c : Coil) (d : Desc) (snaps : Dict SnapEntry) (l : List CtxWord) : Coil :=
  let per := d.vregs * d.lanes
  let acc := (l.drop d.accAt).take (d.halves.length * d.acc * 2048)
  let accs := ((upFrom 0 acc.length).zip acc).flatMap (fun (e : Nat × CtxWord) =>
    let at_ := e.1 / (d.acc * 2048) * 65536 + 2 * (e.1 % (d.acc * 2048))
    [(at_, BitVec.ofNat 32 e.2.1.toNat, e.2.2), (at_ + 1, BitVec.ofNat 32 (e.2.1.toNat / 2 ^ 32), e.2.2)])
  { c with
    insnUsed := wordsN l 32 8
    wallUsed := wordsN l 40 4
    tlCount := Tab.setRun 0 [] 0 [wordsN l 48 8, wordsN l 56 8, wordsN l 64 8]
    barArmed := Tab.setRun false [] 0 ((upFrom 0 16).map (fun b => bit (wordsN l 80 2) b))
    barArrived := Tab.setRun 0 [] 0 ((upFrom 0 16).map (fun b => BitVec.ofNat 64 (wordsN l (608 + 8 * b) 8)))
    accStat := Tab.setRun 0 c.accStat 0 ((upFrom 0 16).map (fun t => BitVec.ofNat 32 (wordsN l (544 + 4 * t) 4)))
    handles := handlesBack c.handles snaps l
    txn := txnBack c.txn l 800 825
    plyArrived := BitVec.ofNat 64 (wordsN l 816 8)
    hoops := Tab.setRun 0 [] 0 ((upFrom 0 8).map (fun h => BitVec.ofNat 64 (wordsN l (96 + 8 * h) 8)))
    codebook := Tab.setRun 0 [] 0 ((upFrom 0 256).map (fun i => BitVec.ofNat 8 (wordsN l (160 + i) 1)))
    bars := Tab.setRun 0 [] 0 (((l.drop 52).take 16).map Prod.fst)
    barPoison := Tab.setRun false [] 0 (((l.drop 52).take 16).map Prod.snd)
    strands := ((upFrom 0 c.strands.length).zip c.strands).map (fun e =>
      if e.2.ended then e.2
      else e.2.back d ((l.drop (512 + 512 * e.1)).take 512) ((l.drop (d.laneAt + per * e.1)).take per))
    acc := Tab.setAll 0 [] (accs.map (fun e => (e.1, e.2.1)))
    accPoison := Tab.setAll false [] (accs.map (fun e => (e.1, e.2.2))) }

/-- The matrix operations that the intake section gives, in their order: those of the coil with their numbers, steps, operands and words (R131, R134).
What a record does not hold stands as it stood when the coil was saved (log 40). -/
def State.intakeBack (s : State) (k : Nat) (d : Desc) (l : List CtxWord) : State :=
  let mine := s.ops.filter (fun e => e.2.coil == k && e.2.ctx == 0)
  let n := min (wordsN l 824 1) 16
  let gone := (mine.drop n).map Prod.fst
  ((upFrom 0 n).zip mine).foldl (fun s e =>
    let o := 8 * d.intakeAt + 256 * e.1
    let old := e.2.2
    let w := wordsN l o 4
    let strand := wordsN l (o + 4) 1
    let regs := ((upFrom 0 28).map (fun j => BitVec.ofNat 64 (wordsN l (o + 24 + 8 * j) 8))).take old.regs.length
    let gang := BitVec.ofNat 64 (wordsN l (o + 248) 8)
    let cvt := match old.kind with | .drain _ _ _ _ cvt _ _ => cvt | _ => 0
    { s with ops := Dict.put s.ops e.2.1 { old with
        strand := strand, number := wordsN l (o + 8) 8, regs := regs, gang := gang, word := BitVec.ofNat 96 w
        kind := (opKindOf w strand (wordsN l (o + 16) 4) regs gang cvt).getD old.kind } })
    { s with ops := s.ops.filter (fun e => !gone.contains e.1) }

/-- The scratchpad of a coil is written back to its granules (R135). -/
def State.scratchBack (s : State) (c : Coil) (d : Desc) (l : List CtxWord) : State :=
  let w := l.drop d.scratchAt
  let keys := d.halves.flatMap c.granuleKeys
  ((upFrom 0 keys.length).zip keys).foldl (fun s e =>
    ((upFrom 0 128).zip ((w.drop (128 * e.1)).take 128)).foldl (fun s x => s.sramWrite (e.2 + 8 * x.1) (toBytes 8 x.2.1.toNat) x.2.2) s) s

/-- The header of a saved coil follows what has been done to it: counts cleared (R138). -/
def State.refreshHeader (s : State) (k : Nat) : State :=
  match s.coilBolt? k with
  | none => s
  | some (c, b) => match c.residency with
    | .saved slot n =>
      let w := section4k (s.ctxHeader k c b.desc n)
      (s.putWords (s.slotAt slot) w).updCoil k (fun c => { c with image := w ++ c.image.drop 512 })
    | _ => s

/-- The record of a strand of a saved coil follows what has reached it (R67). -/
def State.refreshSaved (s : State) (k i : Nat) : State :=
  match s.coilBolt? k with
  | none => s
  | some (c, _) => match c.residency, c.strands[i]? with
    | .saved slot _, some st =>
      let w := s.ctxStrand k i st
      let n := 512 + 512 * i
      (s.putWords (s.slotAt slot + 8 * n) w).updCoil k (fun c => { c with image := c.image.take n ++ w ++ c.image.drop (n + 512) })
    | _, _ => s

end Sys2Proof.Machine
end

