-- ==== Sys2Proof/Machine/Upcall.lean ====
section
/-! DEFINITION. Upcall records and their completion, trap records and the answers to traps (R64-R70, R259-R262). -/

namespace Sys2Proof.Machine

open Sys2Proof

/-- An upcall record; its LAP is written by the ring (R64). -/
def upcallRecord (u : UpcallReq) : List Byte :=
  toBytes 1 u.kind ++ toBytes 1 u.splint ++ toBytes 2 u.service ++ toBytes 2 u.hamper ++ toBytes 1 u.slot ++ [0] ++ toBytes 8 u.bolt
    ++ toBytes 4 u.x ++ toBytes 2 u.y ++ toBytes 2 u.z ++ toBytes 2 u.asid ++ [0, 0] ++ toBytes 4 0
    ++ toBytes 8 u.arg0.toNat ++ toBytes 8 u.arg1.toNat ++ toBytes 8 u.arg2.toNat ++ toBytes 8 u.arg3.toNat

/-- A trap record (R261). -/
def trapRecord (t : TrapInfo) : List Byte :=
  toBytes 1 t.cause.code ++ toBytes 1 t.splint ++ toBytes 1 t.stream ++ toBytes 1 t.pos ++ toBytes 1 t.doneAfter ++ [0, 0, 0]
    ++ toBytes 8 t.ipc.toNat ++ toBytes 8 t.spc.toNat ++ toBytes 8 t.laneMask.toNat ++ toBytes 8 t.other.toNat ++ toBytes 8 t.active.toNat
    ++ toBytes 8 t.performed.toNat ++ toBytes 8 0 ++ toBytes 12 t.insn.toNat ++ toBytes 52 0
    ++ (upFrom 0 64).flatMap (fun l => toBytes 1 (Tab.get 0 t.lcause l)) ++ (upFrom 0 64).flatMap (fun l => toBytes 8 (Tab.get 0 t.laddr l).toNat)
    ++ toBytes 320 0

/-- The subject of a record still waits for it: a caller parked before its index is known, or a path stopped at the trap reported. A killed
bolt's upcalls are dropped (R67). -/
def State.upcallAwaited (s : State) (u : UpcallReq) : Bool :=
  match u.waiter.bind s.path? with
  | none => u.kind != 1 && u.kind != 3
  | some p => if u.kind == 1 && (Dict.find? s.bolts u.bolt).any (fun b => b.killed.isSome) then false else match p.park with
    | .upcall none _ => u.kind == 1
    | _ => u.kind == 3 && p.traps.any (fun e => e.2.isNone && u.trap == some e.1)

/-- Address of the trap record of upcall `i` (R261). -/
def State.trapRecordAt (s : State) (i : Nat) : Nat :=
  s.regF aTrapBase 63 12 * 4096 + 1024 * (i % 2 ^ s.regF aUpcCfg 4 0)

/-- The path that a record names now waits on index `i` (R66, R262). -/
def State.upcallIndexed (s : State) (u : UpcallReq) (i : Nat) : State :=
  match u.waiter with
  | none => s
  | some p =>
    if u.kind = 1 then
      ({ s with upcalls := Dict.put s.upcalls i u } : State).updPath p (fun q => match q.park with
        | .upcall _ d => { q with park := .upcall (some i) d }
        | _ => q)
    else if u.kind = 3 then
      let known (e : TrapInfo × Option Nat) : TrapInfo × Option Nat := if e.2.isNone && u.trap == some e.1 then (e.1, some i) else e
      ({ s with traps := Dict.put s.traps i p } : State).updPath p (fun q =>
        { q with
          standing := q.standing.map known
          park := match q.park with
            | .trap t j under => .trap t (known (t, j)).2 (under.map known)
            | k => k })
    else s

/-- UPCALL_POST: the record and, for a trap, the trap record before its LAP; it waits while the ring is off or full (R65, R261). -/
def execUpcallPost (u : UpcallReq) (s : State) : Out :=
  .next (if !s.upcallAwaited u then s
    else if !bit (s.regN aUpcCfg) 5 then s.push [.upcallPost u]
    else
      let i := s.regF aUpcWr 31 0
      let room := (i + 2 ^ 32 - s.regF aUpcRd 31 0) % 2 ^ 32 < 2 ^ s.regF aUpcCfg 4 0
      let s1 := match (if room then u.trap else none) with
        | some t => s.write (s.trapRecordAt i) (trapRecord t) false
        | none => s
      match s1.ringPut (s1.regF aUpcBase 63 6 * 64) aUpcWr aUpcRd (s1.regF aUpcCfg 4 0) 7 (upcallRecord u) with
      | none => s.push [.upcallPost u]
      | some s2 => (s2.upcallIndexed u i).interrupt (s2.regF aUpcCfg 31 16))

/-- Sets bits of `YOK_ERR` (R63). -/
def State.yokErr (s : State) (m : Nat) : State := s.setRegN aYokErr (s.regN aYokErr ||| m)

/-- The place of upcall `i` in the ring (R65). -/
def State.upcSlotAt (s : State) (i : Nat) : Nat := s.regF aUpcBase 63 6 * 64 + 64 * (i % 2 ^ s.regF aUpcCfg 4 0)

/-- The bytes at a virtual address of an address space, page by page: none where Holver cannot read one of them (R68). -/
def State.userBytes (s : State) (asid va n : Nat) : Option (List Byte) :=
  let parts := (pieces 128 .read (n / 128 + 2) va n).map (fun a => match s.translate (.die 0) asid a.va .read with
    | (.ok pa, _) =>
      if (s.winOff asid a.va).isSome || inPeerWin a.va || s.inCarve pa then none else some (s.readView .current pa a.size).1
    | _ => none)
  if parts.any Option.isNone then none else some (parts.flatMap (fun l => l.getD []))

/-- The LOG messages of a PRINT, of up to 232 bytes each (R70). -/
def State.logText (s : State) (u : UpcallReq) : Nat → List Byte → State
  | 0, _ => s
  | n + 1, l =>
    let s1 := s.postOwn 0x4001 (toBytes 2 u.hamper ++ toBytes 1 u.slot ++ toBytes 1 (b2n (decide (232 < l.length))) ++ toBytes 4 0 ++ l.take 232)
    if l.length ≤ 232 then s1 else State.logText s1 u n (l.drop 232)

/-- A write of `YOK_UPC_DONE`: RESULT and STATUS of the slot reach the caller, which goes on; or STRAY_DONE (R66, R67). -/
def State.upcDone (s : State) (index : Nat) : State :=
  let s1 := s.setRegN aUpcDone index
  match Dict.find? s1.upcalls index with
  | none => s1.yokErr 1
  | some u => match u.waiter with
    | none => s1
    | some p =>
      let (l, bad, s2) := s1.read (s1.upcSlotAt index) 64
      let status := recN l 28 4
      let s3 : State := { s2 with upcalls := Dict.del s2.upcalls index }
      match (s3.path? p).map PathState.park with
      | some (.upcall _ d) =>
        ((((s3.acquireFor p).setS p d.toNat (BitVec.ofNat 64 (recN l 32 8)) bad).setScc p (sccOf (status == 0) false false false)).resumeAfter p 8).refreshSaved
          p.coil p.strand
      | _ => s3

/-- YOK_UPC_DONE (R66). -/
def execYokUpcDone (index : W32) (s : State) : Out := .next (s.upcDone index.toNat)

/-- The operations of a trap's answer (R262). -/
inductive TrapAnswer where
  | retry | skip | retryOthers | kill
  deriving DecidableEq, Repr

/-- OP of `FWX_TRAP_CMD` (R261). -/
def TrapAnswer.op : TrapAnswer → Nat
  | .retry => 1 | .skip => 2 | .retryOthers => 3 | .kill => 4
def trapAnswer? (op : Nat) : Option TrapAnswer :=
  match op with
  | 1 => some .retry | 2 => some .skip | 3 => some .retryOthers | 4 => some .kill | _ => none

/-- The trap accepts the answer (R262). -/
def trapAllows (t : TrapInfo) (a : TrapAnswer) : Bool :=
  let c := t.cause.code
  match a with
  | .kill => true
  | .skip => !(decide (6 ≤ c) && decide (c ≤ 9))
  | .retry => !(decide (6 ≤ c) && decide (c ≤ 9)) && !t.deferred
  | .retryOthers => !(decide (6 ≤ c) && decide (c ≤ 9)) && !t.deferred && t.memory

/-- Bytes of the instruction in a trap record. -/
def trapBytes (t : TrapInfo) : Nat := if isSx (t.insn.toNat % 2 ^ 32) then 8 else 4

/-- The parking of a path once one of its traps has been answered: what remains is the other trap, or nothing (R259, R262). -/
def parkAfter (index : Nat) : Park → Park
  | .trap t i under =>
    if i = some index then (match under with | some (t0, j) => .trap t0 j none | none => .running) else .trap t i none
  | k => k

/-- One of the traps at which a path stands has been answered. -/
def PathState.answered (index : Nat) (p : PathState) : PathState :=
  if p.standing.any (fun e => e.2 == some index) then { p with standing := none } else { p with park := parkAfter index p.park }

/-- A path goes on after a trap, its next lane issue restricted to some lanes where that is what trapped, with what Holver released by its answer
(R262). -/
def State.trapResume (s : State) (index : Nat) (p : PathId) (only : Option Mask) : State :=
  (s.acquireFor p).updPath p (fun q => { q.answered index with only := match only with | some m => some m | none => q.only })

/-- The trap stands at a lane instruction of the path's running course. -/
def State.trapInCourse (s : State) (p : PathId) : Bool :=
  match (s.strand? p.coil p.strand).bind Strand.running with
  | some r => r.course.path == p.path
  | none => false

/-- SKIP: the path goes on after the instruction; a course that could not begin is given up; a trap raised after issue resumes at SPC
(R262). -/
def State.trapSkip (s : State) (index : Nat) (p : PathId) (t : TrapInfo) : State :=
  let s1 := s.trapResume index p none
  if t.deferred then s1
  else if t.stream = 0 then s1.updPath p (fun q => { q with pc := q.pc + BitVec.ofNat 64 (trapBytes t) })
  else if s1.trapInCourse p then s1.updStrand p.coil p.strand Strand.advance
  else s1.updStrand p.coil p.strand (fun st => { st with queue := st.queue.drop 1 })

/-- An answer that the trap accepts takes effect (R262). -/
def State.trapAct (s : State) (index : Nat) (p : PathId) (t : TrapInfo) (a : TrapAnswer) : State :=
  let s1 : State := { s with traps := Dict.del s.traps index }
  let only (m : Mask) : Option Mask := if t.stream = 1 ∧ s1.trapInCourse p = true then some m else none
  match a with
  | .retry => (s1.trapResume index p (only (t.active &&& ~~~t.performed))).refreshSaved p.coil p.strand
  | .skip => (s1.trapSkip index p t).refreshSaved p.coil p.strand
  | .retryOthers => (s1.trapResume index p (only (t.active &&& ~~~t.performed &&& ~~~t.laneMask))).refreshSaved p.coil p.strand
  | .kill => match s1.coil? p.coil with
    | some c => s1.killBolt c.bolt t.cause
    | none => s1

/-- The trap on which a path is parked under an upcall index. -/
def State.trapAt (s : State) (index : Nat) : Option (PathId × TrapInfo) :=
  match Dict.find? s.traps index with
  | none => none
  | some p => ((s.path? p).bind (fun q => q.traps.find? (fun e => e.2 == some index))).map (fun e => (p, e.1))

/-- A write of `FWX_TRAP_CMD`, with its STATUS (R261, R262). -/
def State.trapCommand (s : State) (v : Nat) : State :=
  let index := bits v 31 0
  let status (s : State) (n : Nat) : State := s.setRegF aTrapCmd 41 40 n
  match trapAnswer? (bits v 34 32) with
  | none => status s 2
  | some a => match s.trapAt index with
    | none => status s 1
    | some (p, t) => if trapAllows t a then status (s.trapAct index p t a) 0 else status s 2

/-- A dedicated row writes the register and runs its operation. -/
def State.trapRow (s : State) (a : TrapAnswer) (index : W32) : State :=
  let v := a.op * 2 ^ 32 + index.toNat
  (s.setRegN aTrapCmd v).trapCommand v

/-- FWX_TRAP_RETRY, FWX_TRAP_SKIP, FWX_TRAP_RETRY_OTHERS and FWX_TRAP_KILL (R262). -/
def execFwxTrapRetry (index : W32) (s : State) : Out := .next (s.trapRow .retry index)
def execFwxTrapSkip (index : W32) (s : State) : Out := .next (s.trapRow .skip index)
def execFwxTrapRetryOthers (index : W32) (s : State) : Out := .next (s.trapRow .retryOthers index)
def execFwxTrapKill (index : W32) (s : State) : Out := .next (s.trapRow .kill index)

end Sys2Proof.Machine
end

