-- ==== Sys2Proof/Machine/Place.lean ====
section
/-! DEFINITION. Reservations, placement, saving and restoring of coils, pre-emption and watchdogs, and the roles of banks (R81, R97-R107,
R130-R139, R146, R147, R270, R271; log 43 to 46). -/

namespace Sys2Proof.Machine

open Sys2Proof

/-- Strands of a half (R104). -/
def Desc.strandsOn (d : Desc) (half : Nat) : Nat := if half = 0 then d.evenStrands else d.nstr - d.evenStrands

/-- The demand of a half on the pools of R101, the scratchpad in KiB last. -/
def Desc.demand (d : Desc) (half : Nat) : List Nat :=
  let n := d.strandsOn half
  let even (k : Nat) : Nat := if half = 0 then k else 0
  [n, n * (d.vregs / 16) * (d.lanes / 16), n * d.sregs, n * d.splits, even d.bars, even d.hoops, d.acc, even d.cbslot, d.scratch]

/-- The pools of a Hamper but the scratchpad (R101). -/
def poolCaps : List Nat := [48, 256, 2048, 192, 128, 32, 16, 16]

/-- How many times a demand fits in what is free. -/
def fitCount (free demand : List Nat) : Nat :=
  (free.zip demand).foldl (fun m e => if e.2 = 0 then m else min m (e.1 / e.2)) (2 ^ 64)

/-- The descriptor's coil exceeds a pool of an empty Hamper (R98). -/
def Desc.tooBig (d : Desc) : Bool := d.halves.any (fun h => fitCount (poolCaps ++ [480]) (d.demand h) == 0)

/-- Coils with a reservation on a Hamper, with the half of each. -/
def State.onHamper (s : State) (h : Nat) : List (Coil × Desc × Nat) :=
  s.coils.filterMap (fun e => match Dict.find? s.bolts e.2.bolt with
    | none => none
    | some b =>
      if !e.2.placed then none
      else if e.2.hamper = h then some (e.2, b.desc, 0)
      else if b.desc.pair ∧ e.2.hamper + 1 = h then some (e.2, b.desc, 1)
      else none)

/-- Granules reserved on a Hamper. -/
def State.taken (s : State) (h : Nat) : List Nat :=
  (s.onHamper h).flatMap (fun e => if e.2.2 = 0 then e.1.granules else e.1.granulesOdd)

/-- Granules that a new reservation may take (R146). -/
def State.freeGranules (s : State) (h : Nat) : List Nat :=
  let used := s.taken h
  ((upFrom 0 30).filter (fun b => s.role h b == 0 && s.wanted h b == 0)).flatMap (fun b =>
    (upFrom (16 * b) 16).filter (fun g => !used.contains g))

/-- What a Hamper has free, the scratchpad in KiB last. -/
def State.freeOn (s : State) (h : Nat) : List Nat :=
  let used := (s.onHamper h).map (fun e => e.2.1.demand e.2.2)
  ((upFrom 0 8).map (fun i => poolCaps.getD i 0 - (used.map (fun l => l.getD i 0)).foldl Nat.add 0)) ++ [(s.freeGranules h).length]

/-- What a Hamper that holds nothing has, by the roles in force (R105). -/
def State.emptyOn (s : State) (h : Nat) : List Nat := poolCaps ++ [16 * ((upFrom 0 30).filter (fun b => s.role h b == 0)).length]

/-- Places of a coil: Hampers, or the even Hampers of Creels (R104). -/
def State.sites (s : State) (d : Desc) : List Nat :=
  (upFrom 0 s.hampers).filter (fun h => !d.pair || (h % 2 == 0 && decide (h + 1 < s.hampers)))

/-- How many coils of a descriptor a site holds, of what each Hamper has. -/
def siteFit (free : Nat → List Nat) (d : Desc) (h : Nat) : Nat :=
  d.halves.foldl (fun m i => min m (fitCount (free (h + i)) (d.demand i))) (2 ^ 64)

/-- Some number of coils fits, of what each Hamper has. -/
def State.fitAll (s : State) (free : Nat → List Nat) (d : Desc) (n : Nat) : Bool :=
  decide (n ≤ ((s.sites d).map (siteFit free d)).foldl Nat.add 0)

/-- A co-resident bolt fits on the enabled Hampers when they hold nothing else (R105). -/
def State.fitsIdle (s : State) (d : Desc) : Bool := s.fitAll s.emptyOn d d.coils

/-- What waits for placement: a saved coil, a co-resident bolt that was saved whole, a bolt's next coil, a co-resident bolt (R81, R105, R130). -/
inductive Waiting where
  | coil (k : Nat)
  | saved (bid : Nat)
  | next (bid : Nat)
  | whole (bid : Nat)
  deriving DecidableEq, Repr

/-- A saved coil waits for placement: not one that a watchdog or a debugger holds (R130, R138, R272). -/
def Coil.waits (c : Coil) : Bool := !c.debugStop && (match c.residency with | .saved _ n => decide (n < 2) | _ => false)

/-- Coils of a bolt. -/
def State.coilsOf (s : State) (bid : Nat) : List (Nat × Coil) := s.coils.filter (fun e => e.2.bolt == bid)

/-- A coil's saved context is well formed (R6). -/
def State.contextSound (s : State) (c : Coil) (d : Desc) : Bool :=
  match c.residency with
  | .saved slot _ => contextOk d c.strands.length (s.takeWords (s.slotAt slot) c.image)
  | _ => true

/-- What waits of a bolt. A coil whose context is malformed is not placed (R6; log 90). -/
def State.waitingOf (s : State) (bid : Nat) (b : Bolt) : List Waiting :=
  let back := (s.coilsOf bid).filter (fun e => e.2.waits && s.contextSound e.2 b.desc)
  let saved := if back = [] then []
    else if b.desc.cores then
      (back.filter (fun e => e.2.stepOnly.isSome)).map (fun e => .coil e.1)
        ++ (if back.length = (s.coilsOf bid).length ∧ back.all (fun e => e.2.stepOnly.isNone) then [.saved bid] else [])
    else back.map (fun e => .coil e.1)
  saved ++ (if b.nextCoil < b.desc.coils then [if b.desc.cores then .whole bid else .next bid] else [])

/-- What waits goes before: priority, saved coils, order of acceptance (R81, R130). -/
def Waiting.isSaved : Waiting → Bool
  | .coil _ => true
  | .saved _ => true
  | _ => false

/-- Everything that waits at one priority, in order. -/
def State.waitingAt (s : State) (prio : Nat) : List Waiting :=
  let bolts := s.bolts.filter (fun e => e.2.prio == prio && e.2.killed.isNone)
  let inOrder := (upFrom 0 s.boltOrder).flatMap (fun n => bolts.filter (fun e => e.2.order == n))
  let all := inOrder.flatMap (fun e => s.waitingOf e.1 e.2)
  all.filter Waiting.isSaved ++ all.filter (fun w => !w.isSaved)

/-- Everything that waits, in order; behind a waiting co-resident bolt no coil of its priority or below is placed (R105). -/
def State.waiting (s : State) : List (Nat × Waiting) :=
  let all := [7, 6, 5, 4, 3, 2, 1, 0].flatMap (fun p => (s.waitingAt p).map (fun w => (p, w)))
  let wholes := all.filter (fun e => match e.2 with | .whole _ => true | .saved _ => true | _ => false)
  let bar := (wholes.map Prod.fst).foldl Nat.max 0
  if wholes = [] then all
  else all.filter (fun e => decide (bar < e.1) || wholes.head? == some e)

/-- Descriptor and number of coils of what waits. -/
def State.waitingDesc (s : State) : Waiting → Option (Desc × Nat)
  | .coil k => (s.coilBolt? k).map (fun e => (e.2.desc, 1))
  | .saved bid => (Dict.find? s.bolts bid).map (fun b => (b.desc, (s.coilsOf bid).length))
  | .next bid => (Dict.find? s.bolts bid).map (fun b => (b.desc, 1))
  | .whole bid => (Dict.find? s.bolts bid).map (fun b => (b.desc, b.desc.coils))

/-- What waits fits now. -/
def State.fitsNow (s : State) (w : Waiting) : Bool :=
  match s.waitingDesc w with
  | none => false
  | some (d, n) => s.fitAll s.freeOn d n

/-- A site with room for one coil: the pair's choice (R104). -/
def State.pickSite (s : State) (d : Desc) : Option Nat :=
  let l := (s.sites d).filter (fun h => siteFit s.freeOn d h != 0)
  l[Config.choice s.tick % l.length]?

/-- Strand slots of the strands of a half: any that are free. -/
def State.pickSlots (s : State) (h n : Nat) : List Nat :=
  let used := (s.onHamper h).flatMap (fun e =>
    ((upFrom 0 e.1.strands.length).zip e.1.strands).filterMap (fun x => if e.2.1.halfOf x.1 = e.2.2 then some x.2.slot else none))
  (permuteBy 48 (Config.choice (s.tick + 1)) ((upFrom 0 48).filter (fun i => !used.contains i))).take n

/-- Granules of a half: any that are free (R146). -/
def State.pickGranules (s : State) (h n : Nat) : List Nat := (permuteBy 480 (Config.choice (s.tick + 2)) (s.freeGranules h)).take n

/-- Slots and granules of a coil at a site: slots of its strands in order, granules of its halves. -/
def State.takePlace (s : State) (d : Desc) (h : Nat) : List Nat × List Nat × List Nat :=
  (d.halves.flatMap (fun i => s.pickSlots (h + i) (d.strandsOn i)), s.pickGranules h d.scratch,
    if d.pair then s.pickGranules (h + 1) d.scratch else [])

/-- A strand at the start of its coil (R107). -/
def startStrand (d : Desc) (x y z i slot : Nat) : Strand :=
  let st := freshStrand slot d.scode (laneAll d.lanes)
  { st with
    sregs := Tab.setRun 0 [] 1 [d.karg, BitVec.ofNat 64 x, BitVec.ofNat 64 y, BitVec.ofNat 64 z, BitVec.ofNat 64 i, BitVec.ofNat 64 d.nstr]
    tids := Tab.setRun 0 [] 0 ((upFrom 0 d.lanes).map (fun l => BitVec.ofNat 16 (i * d.lanes + l))) }

/-- The live paths of a coil write a SYNC (R280). -/
def State.syncCoil (s : State) (k reason : Nat) : State := s.syncSome reason (fun x => x.id.coil == k)

/-- The next coil of a bolt starts at a site (R104, R107). -/
def State.startCoil (s : State) (bid : Nat) (b : Bolt) (h : Nat) : State :=
  let d := b.desc
  let (slots, even, odd) := s.takePlace d h
  let x := b.nextCoil % d.gridX
  let y := b.nextCoil / d.gridX % d.gridY
  let z := b.nextCoil / d.gridX / d.gridY
  let k := s.placements
  let strands := (upFrom 0 d.nstr).map (fun i => startStrand d x y z i (slots.getD i 0))
  let c := freshCoil bid x y z h k strands even odd
  (({ s with
    coils := Dict.put s.coils k c
    bolts := Dict.put s.bolts bid { b with nextCoil := b.nextCoil + 1 }
    placements := k + 1
    tick := s.tick + 3 } : State).acquireAll c d)

/-- Starts up to `n` coils of a bolt. -/
def State.startSome (s : State) (bid : Nat) : Nat → State
  | 0 => s
  | n + 1 => match Dict.find? s.bolts bid with
    | none => s
    | some b => match s.pickSite b.desc with
      | none => s
      | some h => State.startSome (s.startCoil bid b h) bid n

/-- Starts up to `n` coils of a bolt together, and their paths write their SYNCs (R105, R280). -/
def State.startCoils (s : State) (bid n : Nat) : State :=
  (s.startSome bid n).syncSome 4 (fun x => decide (s.placements ≤ x.id.coil))

/-- A coil that a debugger or a watchdog may order to stop, or the pair, is ordered to stop with a CAUSE (R131, R274): a debug stop and a kill
outlast the others. -/
def State.orderStop (s : State) (k cause : Nat) : State :=
  match s.coil? k with
  | none => s
  | some c => match c.residency with
    | .resident => (s.updCoil k (fun c => { c with residency := .stopping cause })).push [.coilSave k]
    | .stopping n =>
      if n = 5 ∨ n = 2 ∨ n = 3 ∨ (n = 4 ∧ cause < 2) then s else s.updCoil k (fun c => { c with residency := .stopping cause })
    | _ => s

/-- Save slots that nothing holds or is about to take (R130). -/
def State.freeSlots (s : State) : Nat :=
  s.regF aCtxCfg 15 0 - s.slots.length
    - (s.coils.filter (fun e => match e.2.residency with | .stopping n => n != 5 | _ => false)).length

/-- Coils that give way to what waits at a priority: those of the lowest-priority bolts first, the most recently placed first (R130). -/
def State.victims (s : State) (below : Nat) : List Nat :=
  let may (prio : Nat) : List (Nat × Coil) := s.coils.filter (fun e => e.2.residency == .resident && !e.2.debugStop
    && (match Dict.find? s.bolts e.2.bolt with | some b => b.prio == prio | none => false))
  (upFrom 0 below).flatMap (fun p => ((upFrom 0 s.placements).reverse.flatMap (fun n => ((may p).filter (fun e => e.2.placedAt == n)).map Prod.fst)))

/-- The coils that stop when one of them does: all of a co-resident bolt (R130). -/
def State.stopGroup (s : State) (k : Nat) : List Nat :=
  match s.coilBolt? k with
  | none => [k]
  | some (c, b) => if b.desc.cores then ((s.coilsOf c.bolt).filter (fun e => e.2.residency == .resident)).map Prod.fst else [k]

/-- The victims that have to stop until what waits would fit, if some number of them is enough. -/
def State.stopUntil (s : State) (d : Desc) (n : Nat) : List Nat → List Nat → Option (List Nat)
  | acc, l =>
    let go (rec_ : List Nat → Option (List Nat)) (k : Nat) : Option (List Nat) :=
      if acc.contains k then rec_ acc
      else
        let acc1 := acc ++ s.stopGroup k
        let s1 : State := { s with coils := s.coils.filter (fun e => !acc1.contains e.1) }
        if s1.fitAll s1.freeOn d n then some acc1 else rec_ acc1
    match l with
    | [] => none
    | k :: r => go (fun a => State.stopUntil s d n a r) k

/-- Coils that are stopping for the pair free room already. -/
def State.roomComing (s : State) : Bool := s.coils.any (fun e => match e.2.residency with | .stopping n => decide (n < 2) | _ => false)

/-- Priority pre-emption for the first launch that waits, where it helps and slots are free (R130). -/
def State.preempt (s : State) : State :=
  if s.halted || s.regF aCtxCfg 15 0 == 0 || s.roomComing then s
  else match s.waiting.find? (fun e => !s.fitsNow e.2) with
    | none => s
    | some (p, w) => match s.waitingDesc w with
      | none => s
      | some (d, n) => match s.stopUntil d n [] (s.victims p) with
        | none => s
        | some l => if l.length ≤ s.freeSlots then l.foldl (fun s k => s.orderStop k 0) s else s

/-- PREEMPT_PRIORITY (R130). -/
def execPreemptPriority (s : State) : Out := .next s.preempt

/-- TIME_SLICE_EXPIRY: a coil resident for SLICE_US makes room for one of equal or higher priority that waits (R130). -/
def execTimeSliceExpiry (k : Nat) (s : State) : Out :=
  .next (match s.coilBolt? k with
    | none => s
    | some (c, b) =>
      let others := s.waiting.any (fun e => decide (b.prio ≤ e.1) && !s.fitsNow e.2)
      let l := s.stopGroup k
      if c.residency = .resident ∧ !c.debugStop ∧ s.regF aPreempt 31 0 ≠ 0 ∧ !s.halted ∧ others ∧ l.length ≤ s.freeSlots then
        l.foldl (fun s k => s.orderStop k 1) s
      else s)

/-- COIL_PLACE: the first of what waits that fits is placed; a saved coil comes back by its own step (R81, R104, R105). -/
def execCoilPlace (s : State) : Out :=
  .next (if s.halted then s
    else match s.waiting.find? (fun e => s.fitsNow e.2) with
      | none => s.preempt
      | some (_, .coil k) => s.push [.coilRestore k]
      | some (_, .saved bid) => (match s.coilsOf bid with | e :: _ => s.push [.coilRestore e.1] | [] => s)
      | some (_, .next bid) => (s.startCoils bid 1).wantPlace
      | some (_, .whole bid) => (match Dict.find? s.bolts bid with
        | some b => (s.startCoils bid b.desc.coils).wantPlace
        | none => s))

/-- A path parked on faults that have all been answered goes on, or traps for the lanes denied (R69, R158, R214, R287). -/
def State.settleFault (s : State) (p : PathId) : State :=
  match s.issuerAt p with
  | none => s
  | some x => match x.path.park with
    | .fault [] deny denied stream addrs =>
      if !deny then (s.acquireFor p).updPath p PathState.unpark
      else if stream = 0 then
        s.takeTrap x (scalarTrap x (if denied = 0 then 0 else s.wordsAt x) { cause := .translation, laddr := addrs, memory := denied != 0 })
      else if stream = 1 then
        (match x.strand.running with
        | some r =>
          let t := laneCause .translation denied x.w
          (s.updStrand x.id.coil x.id.strand (Strand.withdrawn x.id.path)).takeTrap x (laneTrap x r (activeOf x r.lane) { t with memory := true, laddr := addrs.filter (fun e => denied.getLsbD e.1) })
        | none => s)
      else (match x.strand.queue with
        | c :: _ =>
          let va := (Tab.get 0 addrs 0).toNat
          s.courseTrap x c ((va + 2 ^ 64 - c.addr.toNat) % 2 ^ 64 / 12) .translation 0
        | [] => s)
    | _ => s

/-- Every live path of a coil. -/
def Coil.paths (k : Nat) (c : Coil) : List PathId :=
  ((upFrom 0 c.strands.length).zip c.strands).flatMap (fun e => e.2.livePaths.map (fun p => { coil := k, strand := e.1, path := p }))

/-- BTE packets that a stopped coil has held back go on (R229, R230). -/
def State.releasePackets (s : State) (k asid : Nat) : State :=
  s.bte.foldl (fun s e =>
    if s.bteAsid e.1 ≠ asid then s
    else (e.2.packets.filter (fun p => p.held && pkCctx p.bytes == k)).foldl (fun s p =>
      let s1 := (s.updPacket e.1 p.number (fun p => { p with held := false })).replay e.1 p
      if p.started || s1.agenda.contains (.btePoll e.1) then s1 else s1.push [.btePoll e.1]) s) s

/-- What R131 states of a restore: engine work goes on, a `twait` ends with its predicate false, an instruction parked on a fault that has been
answered, or on one still open, is issued again, and held packets go on. -/
def State.resumeWork (s : State) (k : Nat) : State :=
  match s.coilBolt? k with
  | none => s
  | some (c, b) =>
    let s1 := s.push ((s.ops.filter (fun e => e.2.coil == k && !e.2.faulted)).map (fun e => e.2.event e.1))
    let s2 := (Coil.paths k c).foldl (fun s p => match s.issuerAt p with
      | some x => (match x.path.park with
        | .twait n _ _ _ d => s.twaitWake x n.toNat d false
        | .fault [] _ _ _ _ => s.settleFault p
        | .fault _ false _ _ _ => s.updPath p PathState.unpark
        | _ => s)
      | none => s) s1
    s2.releasePackets k b.asid

/-- A saved coil comes back at a site (R135). -/
def State.restoreAt (s : State) (k : Nat) (c : Coil) (d : Desc) (h : Nat) : State :=
  match c.residency with
  | .saved slot _ =>
    let (slots, even, odd) := s.takePlace d h
    let l := s.takeWords (s.slotAt slot) c.image
    let strands := (upFrom 0 c.strands.length).zip c.strands |>.map (fun e => { e.2 with slot := slots.getD e.1 0 })
    let c1 : Coil := { c with hamper := h, granules := even, granulesOdd := odd, strands := strands, image := [], residency := .resident, placedAt := s.placements }
    let s1 : State := { s with
      coils := Dict.put s.coils k (c1.back d s.ply.snaps l)
      placements := s.placements + 1
      slots := s.slots.erase slot
      tick := s.tick + 3 }
    (((((s1.acquireAll c1 d).scratchBack c1 d l).intakeBack k d l).syncCoil k 3).resumeWork k).wantPlace
  | _ => s

/-- Restores a coil where some site has room for it. -/
def State.restore (s : State) (k : Nat) : State :=
  match s.coilBolt? k with
  | none => s
  | some (c, b) =>
    if !c.waits || !s.contextSound c b.desc then s
    else match s.pickSite b.desc with
      | none => s
      | some h => s.restoreAt k c b.desc h

/-- COIL_RESTORE: a saved coil, or a co-resident bolt whole but for a coil that a STEP restores, is placed again, where it fits (R130,
R135, R272). -/
def execCoilRestore (k : Nat) (s : State) : Out :=
  .next (match s.coilBolt? k with
    | none => s
    | some (c, b) =>
      if s.halted || !c.waits then s
      else if !(s.waiting.any (fun e => e.2 == .coil k || e.2 == .saved c.bolt)) then s.wantPlace
      else
        let l := if b.desc.cores && c.stepOnly.isNone then (s.coilsOf c.bolt).map Prod.fst else [k]
        if s.fitAll s.freeOn b.desc l.length && l.all (fun j => (s.coil? j).any Coil.waits) then l.foldl State.restore s else s.wantPlace)

/-- The cause of a watchdog that stops a coil (R138). -/
def watchCause (cause : Nat) : Cause := if cause = 2 then .watchdogInsn else .watchdogTime

/-- The record of kind 2 of a coil that a watchdog has stopped (R64, R138). -/
def State.postWatch (s : State) (c : Coil) (asid cause : Nat) : State :=
  s.push [.upcallPost { kind := 2, bolt := c.bolt, x := c.x, y := c.y, z := c.z, asid := asid, arg0 := BitVec.ofNat 64 (watchCause cause).code }]

/-- Nothing of a coil is still to be performed before it is saved (R131): courses have run to their trailers, accesses and copies are done,
drains and coverage operations have completed, no answer from outside is awaited. -/
def State.quiet (s : State) (k : Nat) (c : Coil) (asid cause : Nat) : Bool :=
  let stuck := cause == 5 && s.ops.any (fun e => e.2.coil == k && e.2.faulted)
  let paths := (Coil.paths k c).filterMap s.issuerAt
  let windsUp := paths.any (fun x => (pathWindsUp x && !stuck) || s.mustFinish x)
  let longs := c.strands.any (fun st => st.longs.any (fun e => !e.2.held && !(stuck && e.2.remote.isEmpty)))
  let copies := s.copies.any (fun e => e.2.p.coil == k)
  let remote := s.remotes.any (fun r => r.2.p.coil == k || (match r.2.reader with | some (.path p _) => p.coil == k | _ => false))
  let engines := s.ops.any (fun e => e.2.coil == k && !s.opBlocked e.1 e.2 && (match e.2.kind with
    | .drain _ _ _ _ _ _ _ => true
    | .covTile _ _ => true
    | .covResolve _ _ _ => true
    | .covSeg _ _ => true
    | .covBin _ _ _ _ _ _ _ => true
    | _ => false))
  let packets := s.bte.any (fun e => s.bteAsid e.1 == asid
    && e.2.packets.any (fun p => pkCctx p.bytes == k && !p.complete && !p.held && s.packetTouches e.1 p))
  !windsUp && !longs && !copies && !remote && !(engines && cause != 5) && !packets

/-- The drain limit of the queues whose packets touch the scratchpad of a coil that stops (R229). -/
def State.drainFor (s : State) (k asid : Nat) : State :=
  s.bte.foldl (fun s e =>
    if s.bteAsid e.1 = asid ∧ e.2.packets.any (fun p => pkCctx p.bytes == k && !p.complete && !p.held && s.packetTouches e.1 p) then
      (if s.regF aBteCfg 63 48 = 0 then s.holdStopped e.1
      else if s.agenda.contains (.bteDrainExpiry e.1) then s else s.push [.bteDrainExpiry e.1])
    else s) s

/-- Reads that engine operations of a coil have outstanding are given up: the operations start again at the restore (R131). -/
def State.dropReads (s : State) (k : Nat) : State :=
  let mine (r : Reader) : Bool := match r with
    | .engine op => (match Dict.find? s.ops op with | some o => o.coil == k | none => false)
    | _ => false
  { s with
    remotes := (s.disown (fun r => r.reader.any mine)).remotes
    arrived := s.arrived.filter (fun a => !mine a.reader)
    ops := List.map (fun (e : Nat × EngineOp) => (e.1, if e.2.coil = k then { e.2 with sent := false } else e.2)) s.ops }

/-- The context goes to a slot and the reservation is released (R131-R134). -/
def State.saveTo (s : State) (k : Nat) (c : Coil) (d : Desc) (slot cause : Nat) : State :=
  let s1 := (s.dropReads k).releaseAll c d
  let l := s1.ctxWords k c d cause
  let s2 : State := { s1.putWords (s1.slotAt slot) l with slots := slot :: s1.slots }
  ((s2.updCoil k (fun c => { c with residency := .saved slot cause, image := l, granules := [], granulesOdd := [] })).report k).wantPlace

/-- The lowest save slot that holds no context. -/
def State.openSlot (s : State) : Option Nat := (upFrom 0 (s.regF aCtxCfg 15 0)).find? (fun i => !s.slots.contains i)

/-- COIL_SAVE: a coil ordered to stop winds up; then it is saved, stopped in place, or ends with its killed bolt (R131, R138, R139). -/
def execCoilSave (k : Nat) (s : State) : Out :=
  .next (match s.coilBolt? k with
    | none => s
    | some (c, b) => match c.residency with
      | .stopping cause =>
        let s1 := s.drainFor k b.asid
        if !s1.quiet k c b.asid cause then s1.push [.coilSave k]
        else if cause = 5 then s1.dispose k
        else
          let watch := cause == 2 || cause == 3
          (match s1.openSlot with
          | some slot =>
            let s2 := s1.saveTo k c b.desc slot cause
            if !watch then s2 else if b.desc.trapKill then s2.killBolt c.bolt (watchCause cause) else s2.postWatch c b.asid cause
          | none =>
            if watch || s1.regF aCtxCfg 15 0 == 0 then
              let s2 := (s1.dropReads k).updCoil k (fun c => { c with residency := .inPlace cause })
              if !watch then s2 else if b.desc.trapKill then s2.killBolt c.bolt (watchCause cause) else s2.postWatch c b.asid cause
            else s1.push [.coilSave k])
      | _ => s)

/-- A limit of a coil has expired: it stops; a bolt with TRAP_KILL that cannot be saved is killed at once (R137, R138). -/
def State.expire (s : State) (k : Nat) (cause : Nat) : State :=
  match s.coilBolt? k with
  | none => s
  | some (c, b) =>
    let reached := if cause = 2 then b.desc.insnBudget != 0 && decide (b.desc.insnBudget * 2 ^ 16 ≤ c.insnUsed)
      else b.desc.wallUs != 0 && decide (b.desc.wallUs ≤ c.wallUsed)
    if !reached then s
    else match c.residency with
      | .saved slot n =>
        if n = 2 ∨ n = 3 then s
        else
          let s1 := (s.write (s.slotAt slot + 24) (toBytes 1 cause) false).updCoil k (fun c =>
            { c with residency := .saved slot cause
                     image := c.image.modify 3 (fun w => (setElem 8 0 w.1 cause, w.2)) })
          if b.desc.trapKill then s1.killBolt c.bolt (watchCause cause) else s1.postWatch c b.asid cause
      | .inPlace n =>
        if n = 2 ∨ n = 3 then s
        else
          let s1 := s.updCoil k (fun c => { c with residency := .inPlace cause })
          if b.desc.trapKill then s1.killBolt c.bolt (watchCause cause) else s1.postWatch c b.asid cause
      | _ => if s.openSlot.isNone && b.desc.trapKill then s.killBolt c.bolt (watchCause cause) else s.orderStop k cause

/-- WATCHDOG_INSN_EXPIRY (R137, R138). -/
def execWatchdogInsnExpiry (k : Nat) (s : State) : Out := .next (s.expire k 2)

/-- WATCHDOG_TIME_EXPIRY: where the instruction budget has expired as well, that is reported (R137, R138). -/
def execWatchdogTimeExpiry (k : Nat) (s : State) : Out :=
  .next (if s.agenda.contains (.watchdogInsnExpiry k) then s else s.expire k 3)

/-- The coil that `FWX_COIL_BOLT` and `FWX_COIL_POS`, or their like of the debugger, name. -/
def State.coilNamed (s : State) (bolt pos : Nat) : Option (Nat × Coil) :=
  List.find? (fun (e : Nat × Coil) => e.2.bolt == bolt && e.2.x == bits pos 30 0 && e.2.y == bits pos 47 32 && e.2.z == bits pos 63 48) s.coils

/-- A stopped coil is free to go on: to placement when it is saved, else where it stands (R138, R272). -/
def State.goOn (s : State) (k : Nat) (c : Coil) : State :=
  match c.residency with
  | .saved slot _ => (s.updCoil k (fun c => { c with residency := .saved slot 0 })).wantPlace
  | .inPlace _ => (s.updCoil k (fun c => { c with residency := .resident })).resumeWork k
  | _ => s

/-- The operation that a write of `FWX_COIL_CMD` orders (R138). -/
def State.coilCommand (s : State) (op : Nat) : State :=
  let status (s : State) (n : Nat) : State := s.setRegF aCoilCmd 9 8 n
  if op ≠ 1 ∧ op ≠ 2 then status s 2
  else match s.coilNamed (s.regN aCoilBolt) (s.regN aCoilPos) with
    | none => status s 1
    | some (k, c) =>
      let held := match c.residency with | .saved _ n => n == 2 || n == 3 | .inPlace n => n == 2 || n == 3 | _ => false
      let cause := match c.residency with | .saved _ n => n | .inPlace n => n | _ => 0
      if !held then status s 1
      else if op = 1 then
        let c0 : Coil := { c with insnUsed := 0, wallUsed := 0 }
        let s1 := ({ s with coils := Dict.put s.coils k c0 } : State).refreshHeader k
        status (if c.debugStop then s1.updCoil k (fun c => { c with residency := match c.residency with | .saved i _ => .saved i 4 | _ => .inPlace 4 })
          else s1.goOn k c0) 0
      else status (s.killBolt c.bolt (watchCause cause)) 0

/-- A dedicated row writes the register and runs its operation (R138). -/
def State.coilRow (s : State) (op : Nat) : State := (s.setRegF aCoilCmd 1 0 op).coilCommand op
def execCoilResume (s : State) : Out := .next (s.coilRow 1)
def execCoilKill (s : State) : Out := .next (s.coilRow 2)

/-- Some bank's requested role is not in force. -/
def State.rolePending (s : State) (h : Nat) : Bool := (upFrom 0 30).any (fun b => s.role h b != s.wanted h b)

/-- PENDING of `HMP_BANK_STATE` (R144, R147). -/
def State.showPending (s : State) (h : Nat) : State := s.setRegF (aBankState h) 63 63 (b2n (s.rolePending h))

/-- A path stands at a FIFO instruction of a bank that cannot proceed (R147, R384): its lane stream's next instruction names the bank. -/
def State.fifoParked (s : State) (h b : Nat) : Bool :=
  (s.onHamper h).any (fun e => ((upFrom 0 e.1.strands.length).zip e.1.strands).any (fun x =>
    e.2.1.halfOf x.1 == e.2.2 && (match x.2.running with
      | some r => (match decodeLaneWord (r.words.getD r.pos 0) with
        | some (.vFpush o) => bits o.imm.toNat 4 0 == b
        | some (.vFpop o) => bits o.imm.toNat 4 0 == b
        | some (.atlReq o) => bits o.imm.toNat 4 0 == b
        | _ => false)
      | none => false)))

/-- A bank may leave its role (R147). -/
def State.mayLeave (s : State) (h b : Nat) : Bool :=
  let r := s.role h b
  if r = 0 then !(s.taken h).any (fun g => g / 16 == b)
  else if r = 2 then ((Dict.find? s.fifos (32 * h + b)).getD []).isEmpty && !s.fifoParked h b
  else true

/-- A bank changes its role: an L1 way gives up its lines, one that enters SCR is zeroed, one that enters FIFO is empty (R147). -/
def State.enterRole (s : State) (h b r : Nat) : State :=
  let lo := h * 2 ^ 19 + b * 16384
  let s0 := if s.role h b = 1 then s.l1Leave h b else s
  let s1 : State := { s0 with roles := Tab.set 0 s0.roles (32 * h + b) r, fifos := Dict.del s0.fifos (32 * h + b) }
  if r = 0 then
    { s1 with
      sram := (Tab.clearRange s1.sram lo (lo + 16384))
      sramPoison := (Tab.clearRange s1.sramPoison (lo / 8) ((lo + 16384) / 8)) }
  else s1

/-- BANK_ROLE_CHANGE: a bank takes its requested role once it may leave its own (R147). -/
def execBankRoleChange (h b : Nat) (s : State) : Out :=
  .next (if 30 ≤ b ∨ s.role h b = s.wanted h b then s.showPending h
    else if s.mayLeave h b then ((s.enterRole h b (s.wanted h b)).showPending h).wantPlace
    else (s.showPending h).push [.bankRoleChange h b])

/-- A write of `HMP_BANK_ROLE`: a field of the reserved value 3 keeps its bank's request (R147; log 47). -/
def State.writeRoles (s : State) (h v : Nat) : State :=
  let new := (upFrom 0 30).foldl (fun n b =>
    let f := bits v (2 * b + 1) (2 * b)
    setBits n (2 * b + 1) (2 * b) (if f = 3 then s.wanted h b else f)) 0
  let s1 := s.setRegN (aBankRole h) new
  let todo := (upFrom 0 30).filter (fun b => s1.role h b != s1.wanted h b && !s1.agenda.contains (.bankRoleChange h b))
  (s1.push (todo.map (fun b => .bankRoleChange h b))).showPending h

/-- BANK_ROLE_WRITE (R147). -/
def execBankRoleWrite (h : Nat) (v : W64) (s : State) : Out := .next (if h < 192 then s.writeRoles h v.toNat else s)

end Sys2Proof.Machine
end

