-- ==== Sys2Proof/Machine/Queue.lean ====
section
/-! DEFINITION. Command queues: records, the scanner, workers, packets and launches (R73-R94, R97-R100, R105; log 48 to 50). -/

namespace Sys2Proof.Machine

open Sys2Proof

/-- Shadow half of a queue and its fields (R73). -/
def State.shadowAt (s : State) (q : Nat) : Nat := s.regF aShadowBase 63 12 * 4096 + 64 * q
def State.shF (s : State) (q off n : Nat) : Nat := s.peekN (s.shadowAt q + off) n
def State.shSet (s : State) (q off n v : Nat) : State := s.write (s.shadowAt q + off) (toBytes n v) false
def State.qRing (s : State) (q : Nat) : Nat := s.shF q 0 8
def State.qUhalf (s : State) (q : Nat) : Nat := s.shF q 8 8
def State.qAsid (s : State) (q : Nat) : Nat := s.shF q 16 2
def State.qLog2 (s : State) (q : Nat) : Nat := s.shF q 18 1
def State.qCtl (s : State) (q : Nat) : Nat := s.shF q 19 1
def State.qState (s : State) (q : Nat) : Nat := s.shF q 20 1
def State.qRd (s : State) (q : Nat) : Nat := s.shF q 24 4
def State.qLast (s : State) (q : Nat) : Nat := s.shF q 28 4
/-- HOT (R80). -/
def State.qHot (s : State) (q : Nat) : Bool := bit (s.qCtl q) 3

def State.queue? (s : State) (q : Nat) : Option CmdQueue := Dict.find? s.queues q
def State.updQueue (s : State) (q : Nat) (f : CmdQueue → CmdQueue) : State := { s with queues := Dict.upd s.queues q f }

/-- On whose behalf a queue accesses memory (R85). -/
def State.qWho (s : State) (q : Nat) : Who := { asid := s.qAsid q, coil := none }

/-- Poll intervals: the shortest, and the next (R80, R90). -/
def State.scanMin (s : State) : Nat := s.regF aQrcCfg 11 0
def State.nextInterval (s : State) (q i : Nat) (changed : Bool) : Nat :=
  if changed || s.qHot q then s.scanMin else min (2 * i) (s.scanMin * 2 ^ s.regF aQrcCfg 23 20)

/-- A free packet worker is looked for (R81). -/
def State.wantWorker (s : State) : State := if s.agenda.contains .workerAssign then s else s.push [.workerAssign]

/-- A worker lets a queue go. -/
def State.release (s : State) (q : Nat) : State := (s.updQueue q (fun c => { c with worker := false, executed := 0 })).wantWorker

/-- Mirrors written while a queue opens, closes or enters ERROR: a write that fails is dropped (R84). -/
def State.mirrors (s : State) (q : Nat) : State :=
  let put (s : State) (off n v : Nat) : State :=
    let va := (s.qUhalf q + off) % 2 ^ 64
    match s.judge (s.qWho q) { kind := .write, va := va, size := n, watch := false, align := 1 } with
    | (.ok p, s1) => if s1.refuses p .write then s1 else s1.engineWrite (.queue q) 0 0 va p (toBytes n v) false
    | (_, s1) => s1
  put (put (put s 8 4 (s.qRd q)) 12 1 (s.qState q)) 13 1 (s.shF q 21 1)

/-- Virtual address of a ring word (R74). -/
def State.ringVa (s : State) (q i : Nat) : Nat := (s.qRing q + 8 * (i % 2 ^ s.qLog2 q)) % 2 ^ 64

/-- Address of the word at an offset from the next word of the level at which a stream stands that has come to ring word `rd` (R74, R87, R89). -/
def State.wordFrom (s : State) (q rd : Nat) (frames : List Frame) (off : Nat) : Nat :=
  match frames with
  | [] => s.ringVa q (rd + off)
  | .buffer a _ d :: _ => (a.toNat + 8 * (d + off)) % 2 ^ 64
  | .loop a _ _ _ d g :: _ => if g then s.ringVa q (a.toNat + d + off) else (a.toNat + 8 * (d + off)) % 2 ^ 64
def State.wordVa (s : State) (q : Nat) (frames : List Frame) (off : Nat) : Nat := s.wordFrom q (s.qRd q) frames off

/-- Words available below LAST_WR, and words left in the enclosing buffer or body. -/
def State.wordsFrom (s : State) (q rd : Nat) (frames : List Frame) : Nat :=
  match frames with
  | [] => (s.qLast q + 2 ^ 32 - rd) % 2 ^ 32
  | .buffer _ _ _ :: _ => 2 ^ 32
  | .loop a _ _ _ d g :: _ => if g then (s.qLast q + 2 ^ 33 - a.toNat % 2 ^ 32 - d) % 2 ^ 32 else 2 ^ 32
def State.wordsLeft (s : State) (q : Nat) (frames : List Frame) : Nat := s.wordsFrom q (s.qRd q) frames
def levelLeft : List Frame → Nat
  | [] => 2 ^ 32
  | .buffer _ w d :: _ => w - d
  | .loop _ b _ _ d _ :: _ => b - d

/-- Indirect depth (R87). -/
def depthOf (frames : List Frame) : Nat := (frames.filter (fun f => match f with | .buffer _ _ _ => true | _ => false)).length

/-- Index of the innermost loop (R86). -/
def loopIndex (frames : List Frame) : Nat :=
  match frames.find? (fun f => match f with | .loop _ _ _ _ _ _ => true | _ => false) with
  | some (.loop _ _ _ i _ _) => i
  | _ => 0

/-- CLOSE takes effect: nobody of the queue waits for a fault or an answer any more (R79). -/
def State.closeNow (s : State) (q : Nat) : State :=
  let s1 := (s.shSet q 20 1 0).mirrors q
  let s2 := ({ s1 with
    queues := Dict.del s1.queues q
    faults := List.map (fun (e : Nat × FaultRec) => (e.1, { e.2 with waiters := e.2.waiters.filter (fun w => match w with
      | .queue n _ => n != q
      | _ => true) })) s1.faults } : State).disown (fun r => r.reader == some (.queue q))
  (s2.forget (.queue q)).wantWorker

/-- A queue fails (R94); `pkt` says that the packet at which it stands causes it. A CLOSE that waited for its packet takes effect (R79). -/
def State.queueError (s : State) (q code : Nat) (pkt : Bool) : State :=
  let fr := match s.queue? q with | some c => c.frames | none => []
  let at_ := s.qRd q
  let va := if pkt then s.wordVa q fr 0 else 0
  let s1 := ((((s.shSet q 20 1 2).shSet q 21 1 code).shSet q 32 4 at_).shSet q 36 1 (if pkt then depthOf fr else 0)).shSet q 40 8 va
  let s2 := (s1.mirrors q).updQueue q (fun c =>
    { c with frames := [], worker := false, wait := none, launch := none, waitingFault := false, mirrorDue := false, skip := 0, begun := false, words := [], desc := []
             userFault := false, unposted := false, ahead := [] })
  let a := aQrcErr (q / 64)
  let s3 := (((s2.setRegN a (s2.regN a ||| 2 ^ (q % 64))).interrupt (s2.regF aQrcCfg 63 48)).forget (.queue q)).wantWorker
  if (s.queue? q).any CmdQueue.closing then s3.closeNow q else s3

/-- A fault of a queue's access waits for Holver; while the fault queue takes none, the access is tried again (R76, R85). -/
def State.queueFault (s : State) (q : Nat) (a : Acc) (cause level pte : Nat) (user data : Bool) (again : List Instr) : State :=
  match s.postFault { source := 5, unit := q } (s.qAsid q) a cause level pte (.queue q user) with
  | none => s.push again
  | some (_, s1) => s1.updQueue q (fun c => { c with waitingFault := true, dataFault := data })

/-- A word of the stream that has been read ahead (R93). -/
def State.aheadWord (s : State) (q va : Nat) : Option Nat := ((s.queue? q).bind (fun c => c.ahead.find? (fun e => e.1 == va))).map Prod.snd

/-- A descriptor word that the pair has read since the LAUNCH executed (R99). -/
def State.descWord (s : State) (q va : Nat) : Option Nat := ((s.queue? q).bind (fun c => c.desc.find? (fun e => e.1 == va))).map Prod.snd

/-- A read of 8 bytes for a packet: a word of the stream, or one that it names, as it was read before or as it is (R76, R85, R93, R99). -/
def State.queueRead (s : State) (q va : Nat) (data : Bool) (again : List Instr) : Option Nat × State :=
  let a : Acc := { kind := .read, va := va, size := 8, watch := false, align := 1 }
  let code := if data then 12 else 9
  match (if data then s.descWord q va else s.aheadWord q va) with
  | some w => (some w, s)
  | none =>
    match s.readFor (s.qWho q) (.queue q) .current a with
    | (.data l bad, s1) => if bad then (none, s1.queueError q code true) else (some (ofBytes l), s1)
    | (.later, s1) => (none, s1.push again)
    | (.cause _, s1) => (none, s1.queueError q code true)
    | (.fault c l p, s1) => (none, s1.queueFault q a c l p false data again)

/-- Reads of several words. -/
def State.queueReads (s : State) (q : Nat) (data : Bool) (again : List Instr) : List Nat → Option (List Nat) × State
  | [] => (some [], s)
  | va :: r => match s.queueRead q va data again with
    | (none, s1) => (none, s1)
    | (some w, s1) => match State.queueReads s1 q data again r with
      | (some l, s2) => (some (w :: l), s2)
      | (none, s2) => (none, s2)

/-- RD_MIRROR is written with a .sys release (R84). -/
def State.rdMirror (s : State) (q : Nat) : State :=
  let va := (s.qUhalf q + 8) % 2 ^ 64
  let a : Acc := { kind := .write, va := va, size := 4, watch := false, align := 1 }
  let done (s : State) : State := s.updQueue q (fun c => { c with mirrorDue := false })
  match s.placeWrites (s.qWho q) [a] with
  | (.ok (p :: _), s1) =>
    let bad := match p with | .mem pa => s1.memPoison pa 4 | _ => false
    if bad then s1.queueError q 9 false else done (s1.engineWrite (.queue q) 0 0 va p (toBytes 4 (s1.qRd q)) false)
  | (.ok [], s1) => s1
  | (.wait, s1) => s1
  | (.cause _, s1) => s1.queueError q 9 false
  | (.fault a c l p, s1) => s1.queueFault q a c l p true false []

/-- Where a stream stands after `n` more words, and by how many words RD moves; none where a skip would pass the end (R84, R87-R89). -/
def streamAfter (skips : Bool) : List Frame → Nat → Option (List Frame × Nat)
  | [], n => some ([], n)
  | .buffer a w d :: r, n =>
    if d + n < w then some (.buffer a w (d + n) :: r, 0) else if skips then none else streamAfter skips r 2
  | .loop a b c i d g :: r, n =>
    if d + n < b then some (.loop a b c i (d + n) g :: r, 0)
    else if skips then none
    else if i + 1 < c then some (.loop a b c (i + 1) 0 g :: r, 0)
    else streamAfter skips r (1 + b)

/-- The event of a packet of an OP (R83). -/
def packetEvent (q op : Nat) : Instr :=
  match op with
  | 0 => .nopPacket q
  | 1 => .launch q
  | 2 => .indirect q
  | 3 => .predicate q
  | 4 => .loop q
  | 5 => .waitPacket q
  | 6 => .signal q
  | _ => .fetchFence q

/-- The stream moves past `n` words, of a packet that has issued or is skipped; RD and its mirror follow at ring level (R84). -/
def State.pass (s : State) (q : Nat) (c : CmdQueue) (n : Nat) : State :=
  match streamAfter (c.skip != 0) c.frames n with
  | none => s.queueError q 8 true
  | some (fr, k) =>
    let s1 := (s.updQueue q (fun c => { c with frames := fr })).forget (.queue q)
    if k = 0 then s1
    else
      let rd := s1.qRd q + k
      let kept := (upFrom 0 64).map (fun j => s1.ringVa q (rd + j))
      ((s1.shSet q 24 4 (rd % 2 ^ 32)).updQueue q (fun c =>
        { c with mirrorDue := true, ahead := c.ahead.filter (fun e => kept.contains e.1) })).rdMirror q

/-- A queue may begin a packet now (R76, R81, R84). -/
def State.mayBegin (s : State) (q : Nat) (c : CmdQueue) : Bool :=
  s.qState q == 1 && ((!c.paused && !c.userFault && !c.unposted) || c.begun) && !c.waitingFault && !s.halted && c.wait.isNone && decide (0 < s.wordsLeft q c.frames)

/-- The worker of a queue comes to its next packet: packets are skipped, the event of the next one follows, or the queue is let go (R81,
R83, R88). -/
def State.kick (s : State) (q : Nat) : Nat → State
  | 0 => s
  | fuel + 1 =>
    match s.queue? q with
    | none => s
    | some c =>
      if !c.worker || s.halted then s
      else if c.launch.isSome then s.push [.launchAccept q]
      else if c.closing && !c.begun then s.closeNow q
      else if c.waitingFault then s
      else if c.mirrorDue then
        (let s1 := s.rdMirror q
        match s1.queue? q with
        | some c1 => if c1.mirrorDue then (if c1.waitingFault then s1 else s1.push [.nopPacket q]) else State.kick s1 q fuel
        | none => s1)
      else if c.begun then s.push [packetEvent q (bits (c.words.headD 0) 7 0)]
      else if 256 ≤ c.executed then s.release q
      else if !s.mayBegin q c then s.release q
      else match s.queueRead q (s.wordVa q c.frames 0) false [.nopPacket q] with
        | (none, s1) => s1
        | (some w, s1) =>
          let op := bits w 7 0
          let len := bits w 11 8
          if c.skip ≠ 0 then
            let body := if op = 4 then bits w 44 32 else 0
            if len = 0 ∨ 8 < len ∨ (op = 4 ∧ (body = 0 ∨ 4096 < body)) then s1.queueError q 4 true
            else if levelLeft c.frames < len + body then s1.queueError q 8 true
            else if s1.wordsLeft q c.frames < len + body then
              (s1.updQueue q (fun c => { c with starved := some (s1.qLast q) })).release q
            else
              let c1 := { c with skip := c.skip - 1 }
              State.kick ((s1.updQueue q (fun c => { c with skip := c.skip - 1, executed := c.executed + 1 })).pass q c1 (len + body)) q fuel
          else if 7 < op then s1.queueError q 3 true
          else s1.push [packetEvent q op]

/-- A packet has issued. -/
def State.packetDone (s : State) (q n : Nat) : State :=
  match s.queue? q with
  | none => s
  | some c => ((s.updQueue q (fun c => { c with executed := c.executed + 1, begun := false, words := [] })).pass q c n).kick q 600

/-- Length of a packet of an OP in words; a NOP has any (R83). -/
def packetLen (op : Nat) : Option Nat :=
  match op with
  | 1 => some 2 | 2 => some 2 | 3 => some 3 | 4 => some 1 | 5 => some 3 | 6 => some 3 | 7 => some 1 | _ => none

/-- A packet of an OP at which the worker of a queue stands: its words are read and its header checked, once, then its effect (R83, R84,
R93). -/
def State.withPacket (s : State) (q op : Nat) (body : State → CmdQueue → List Nat → State) : State :=
  match s.queue? q with
  | none => s
  | some c =>
    if !c.worker || c.launch.isSome || c.skip != 0 || c.mirrorDue || !s.mayBegin q c then s.kick q 600
    else if c.begun then (if bits (c.words.headD 0) 7 0 = op then body s c c.words else s.kick q 600)
    else match s.queueRead q (s.wordVa q c.frames 0) false [packetEvent q op] with
      | (none, s1) => s1
      | (some w, s1) =>
        let len := bits w 11 8
        if bits w 7 0 ≠ op then s1.kick q 600
        else if bits w 15 12 ≠ 0 ∨ (match packetLen op with | some n => decide (len ≠ n) | none => decide (len = 0 ∨ 8 < len)) = true then
          s1.queueError q 4 true
        else if levelLeft c.frames < len then s1.queueError q 5 true
        else if s1.wordsLeft q c.frames < len then (s1.updQueue q (fun c => { c with starved := some (s1.qLast q) })).release q
        else match s1.queueReads q false [packetEvent q op] ((upFrom 1 (len - 1)).map (s1.wordVa q c.frames)) with
          | (none, s2) => s2
          | (some l, s2) => body (s2.updQueue q (fun c => { c with begun := true, words := w :: l })) c (w :: l)

/-- NOP (R83). -/
def execNopPacket (q : Nat) (s : State) : Out :=
  .next (s.withPacket q 0 (fun s _ l => s.packetDone q (bits (l.getD 0 0) 11 8)))

/-- LAUNCH: the worker hands the launch to the pair (R86). -/
def execLaunch (q : Nat) (s : State) : Out :=
  .next (s.withPacket q 1 (fun s c l =>
    let w := l.getD 0 0
    let desc := l.getD 1 0
    if bits w 63 48 ≠ 0 ∨ bits w 31 18 ≠ 0 ∨ desc % 64 ≠ 0 then s.queueError q 4 true
    else
      let a := (desc + (if bit w 17 then loopIndex c.frames * bits w 47 32 * 64 else 0)) % 2 ^ 64
      if bit w 16 && !bit (s.qCtl q) 4 then s.queueError q 11 true
      else (s.updQueue q (fun c => { c with launch := some (BitVec.ofNat 64 a, bit w 16) })).push [.launchAccept q]))

/-- A bolt descriptor from its 64 bytes; none where it is malformed by itself (R97). -/
def parseDesc (b : List Byte) (addr : W64) : Option Desc :=
  let layout := recN b 32 1
  let lanes := match bits layout 1 0 with | 0 => 16 | 1 => 32 | 2 => 64 | _ => 0
  let acc := recN b 43 1
  let d : Desc :=
    { scode := BitVec.ofNat 64 (recN b 0 8), lcode := BitVec.ofNat 64 (recN b 8 8), karg := BitVec.ofNat 64 (recN b 16 8)
      gridX := recN b 24 4, gridY := recN b 28 2, gridZ := recN b 30 2, lanes := lanes, pair := bit layout 2, cores := bit layout 3
      trapKill := bit layout 4, nstr := recN b 33 1, ncopy := recN b 34 1, nmtx := recN b 35 1, vregs := recN b 36 1, sregs := recN b 37 1
      splits := recN b 38 1, bars := recN b 39 1, scratch := recN b 40 2, hoops := recN b 42 1, acc := bits acc 4 0, cbslot := recN b 44 1
      insnBudget := recN b 48 4, wallUs := recN b 52 4, rflags := BitVec.ofNat 64 (recN b 56 8), addr := addr }
  if recN b 0 8 % 4 ≠ 0 ∨ recN b 8 8 % 16 ≠ 0 ∨ d.gridX = 0 ∨ 2 ^ 31 ≤ d.gridX ∨ d.gridY = 0 ∨ d.gridZ = 0 ∨ lanes = 0 ∨ bits layout 7 5 ≠ 0
      ∨ d.nstr = 0 ∨ (if d.pair then d.nstr < 2 ∨ 64 < d.nstr else 32 < d.nstr) ∨ d.nstr < d.ncopy + d.nmtx ∨ d.vregs < 16 ∨ 240 < d.vregs
      ∨ d.vregs % 16 ≠ 0 ∨ d.sregs < 16 ∨ 64 < d.sregs ∨ d.sregs % 16 ≠ 0 ∨ 8 < d.splits ∨ (d.splits ≠ 0 ∧ d.sregs ≠ 64) ∨ 16 < d.bars
      ∨ 480 < d.scratch ∨ 8 < d.hoops ∨ 16 < d.acc ∨ bits acc 7 5 ≠ 0 ∨ 8 < d.cbslot ∨ recN b 45 3 ≠ 0 ∨ recN b 56 8 % 8 ≠ 0 then none
  else if d.tooBig then none
  else some d

/-- The pair accepts a bolt: its identifier, its snapshot, its place in the order (R81, R84, R86, R100). -/
def State.acceptBolt (s : State) (q : Nat) (c : CmdQueue) (d : Desc) (snap : Option Snap) : State :=
  let n := Tab.get 0 s.launches q
  let id := q * 2 ^ 52 + n % 2 ^ 52
  let b : Bolt :=
    { queue := q, asid := s.qAsid q, desc := d, snap := snap, order := s.boltOrder, prio := c.prio, nextCoil := 0, endedCoils := 0, killed := none }
  ({ s with
    bolts := Dict.put s.bolts id b
    launches := Tab.set 0 s.launches q (n + 1)
    boltOrder := s.boltOrder + 1 } : State).wantPlace

/-- The pair reads a word of a descriptor again, at some time between the LAUNCH and its acceptance (R99). -/
def State.descAhead (s : State) (q : Nat) : State :=
  match (s.queue? q).bind CmdQueue.launch with
  | none => s
  | some (a, _) =>
    let va := (a.toNat + 8 * (Config.choice s.tick % 8)) % 2 ^ 64
    if (s.descWord q va).isSome then s.draw
    else match s.draw.readFor (s.qWho q) (.queue q) .current { kind := .read, va := va, size := 8, watch := false, align := 1 } with
      | (.data l false, s1) => s1.updQueue q (fun c => { c with desc := (va, ofBytes l) :: c.desc })
      | _ => s.draw

/-- LAUNCH_ACCEPT: the pair reads the descriptor again, which alone decides, and accepts the bolt; the LAUNCH issues (R82, R86, R99, R105). -/
def execLaunchAccept (q : Nat) (s : State) : Out :=
  .next (match s.queue? q with
    | none => s
    | some c => match c.launch with
      | none => s
      | some (a, snap) =>
        if s.halted then s
        else if c.waitingFault then s
        else match s.queueReads q true [.launchAccept q] ((upFrom 0 8).map (fun j => (a.toNat + 8 * j) % 2 ^ 64)) with
          | (none, s1) => s1
          | (some l, s1) => match parseDesc (l.flatMap (toBytes 8)) a with
            | none => s1.queueError q 4 true
            | some d =>
              let accept (s : State) (n : Option Snap) : State :=
                ((s.acceptBolt q c d n).updQueue q (fun c => { c with launch := none, desc := [] })).packetDone q 2
              if d.cores && !s1.fitsIdle d then s1.queueError q 10 true
              else if !snap then accept s1 none
              else match s1.takeSnap with
                | some (n, s2) => accept s2 (some n)
                | none => s1.push [.launchAccept q])

/-- INDIRECT: the stream enters a buffer (R87). -/
def execIndirect (q : Nat) (s : State) : Out :=
  .next (s.withPacket q 2 (fun s c l =>
    let w := l.getD 0 0
    let a := l.getD 1 0
    if bits w 63 36 ≠ 0 ∨ bits w 35 16 = 0 ∨ a % 8 ≠ 0 then s.queueError q 4 true
    else if 2 ≤ depthOf c.frames then s.queueError q 6 true
    else ((s.updQueue q (fun c => { c with frames := .buffer (BitVec.ofNat 64 a) (bits w 35 16) 0 :: c.frames, executed := c.executed + 1, begun := false, words := [] })).forget
      (.queue q)).kick q 600))

/-- The test of a PREDICATE (R88). -/
def predicateHolds (cmp w v : Nat) : Bool :=
  match cmp with
  | 0 => w == v
  | 1 => w != v
  | 2 => decide (w < v)
  | 3 => decide (v ≤ w)
  | 4 => w &&& v != 0
  | _ => w &&& v == 0

/-- PREDICATE (R88). -/
def execPredicate (q : Nat) (s : State) : Out :=
  .next (s.withPacket q 3 (fun s _ l =>
    let w := l.getD 0 0
    let a := l.getD 1 0
    if bits w 63 32 ≠ 0 ∨ bits w 23 19 ≠ 0 ∨ 5 < bits w 18 16 ∨ bits w 31 24 = 0 ∨ a % 8 ≠ 0 then s.queueError q 4 true
    else match s.queueRead q a true [.predicate q] with
      | (none, s1) => s1
      | (some v, s1) =>
        if predicateHolds (bits w 18 16) v (l.getD 2 0) then s1.packetDone q 3
        else (s1.updQueue q (fun c => { c with skip := bits w 31 24 })).packetDone q 3))

/-- LOOP: the stream enters a body (R89). -/
def execLoop (q : Nat) (s : State) : Out :=
  .next (s.withPacket q 4 (fun s c l =>
    let w := l.getD 0 0
    let body := bits w 44 32
    let inLoop := match c.frames with | .loop _ _ _ _ _ _ :: _ => true | _ => false
    if bits w 63 45 ≠ 0 ∨ body = 0 ∨ 4096 < body ∨ bits w 31 16 = 0 then s.queueError q 4 true
    else if inLoop then s.queueError q 7 true
    else if levelLeft c.frames < 1 + body then s.queueError q 5 true
    else
      let f : Frame := match c.frames with
        | [] => .loop (BitVec.ofNat 64 ((s.qRd q + 1) % 2 ^ 32)) body (bits w 31 16) 0 0 true
        | _ => .loop (BitVec.ofNat 64 (s.wordVa q c.frames 1)) body (bits w 31 16) 0 0 false
      ((s.updQueue q (fun c => { c with frames := f :: c.frames, executed := c.executed + 1, begun := false, words := [] })).forget (.queue q)).kick q 600))

/-- A load of a WAIT: it issues, or the queue waits for the next load without a worker (R81, R90). -/
def State.waitLoad (s : State) (q a v : Nat) (last : Option (W64 × Nat)) (again : List Instr) : State :=
  match s.queueRead q a true again with
  | (none, s1) => s1
  | (some w, s1) =>
    if v ≤ w then
      (let s2 := (s1.updQueue q (fun c => { c with wait := none })).packetDone q 3
       if last.isSome then s2.wantWorker else s2)
    else
      let i := match last with
        | none => s1.scanMin
        | some (old, i) => s1.nextInterval q i (old.toNat != w)
      (((s1.updQueue q (fun c => { c with wait := some (BitVec.ofNat 64 w, i) })).forget (.queue q)).release q).push [.waitPacketPoll q]

/-- WAIT (R90). -/
def execWaitPacket (q : Nat) (s : State) : Out :=
  .next (s.withPacket q 5 (fun s _ l =>
    let w := l.getD 0 0
    if bits w 63 18 ≠ 0 ∨ bits w 17 16 = 3 ∨ l.getD 1 0 % 8 ≠ 0 then s.queueError q 4 true
    else s.waitLoad q (l.getD 1 0) (l.getD 2 0) none [.waitPacket q]))

/-- WAIT_PACKET_POLL: a waiting WAIT loads its word again (R90). -/
def execWaitPacketPoll (q : Nat) (s : State) : Out :=
  .next (match s.queue? q with
    | none => s
    | some c => match c.wait with
      | none => s
      | some last =>
        if c.waitingFault || s.halted then s
        else s.waitLoad q (c.words.getD 1 0) (c.words.getD 2 0) (some last) [.waitPacketPoll q])

/-- The atomic maximum of a SIGNAL, performed here or asked for; then the message (R85, R91). -/
def State.signalWrite (s : State) (q va v : Nat) (vec : Option Nat) : State :=
  let finish (s : State) : State := ((match vec with | some n => s.msix n | none => s)).packetDone q 3
  match s.placeWrites (s.qWho q) [{ kind := .atomic, va := va, size := 8, watch := false, pcieAtomic := false }] with
  | (.wait, s1) => s1.push [.signal q]
  | (.cause _, s1) => s1.queueError q 12 true
  | (.fault a c l p, s1) => s1.queueFault q a c l p false true [.signal q]
  | (.ok [], s1) => s1
  | (.ok (p :: _), s1) =>
    if p.isRemote then
      match s1.remoteDo (.queue q) p .atomic va 8 (toBytes 8 v) (some (.max, 3)) with
      | (.data _ bad, s2) => if bad then s2.queueError q 12 true else finish s2
      | (.later, s2) => s2.push [.signal q]
      | (_, s2) => s2.queueError q 12 true
    else
      let (_, bad) := s1.load .current none (match p with
        | .self off key => (match s1.exportPa key off .atomic with | some pa => .mem pa | none => p)
        | _ => p) 8
      if bad then s1.queueError q 12 true
      else
        let (_, _, _, s2) := s1.rmw .current 0 0 va p 8 (fun old => (max old v, 0))
        finish s2

/-- SIGNAL (R91). -/
def execSignal (q : Nat) (s : State) : Out :=
  .next (s.withPacket q 6 (fun s _ l =>
    let w := l.getD 0 0
    let va := l.getD 1 0
    if bits w 63 32 ≠ 0 ∨ bit w 19 = true ∨ bits w 17 16 = 3 ∨ (bit w 20 = true ∧ bits w 31 21 < 2) ∨ va % 8 ≠ 0 then s.queueError q 4 true
    else if bit w 18 && s.bolts.any (fun b => b.2.queue == q) then s.push [.signal q]
    else s.signalWrite q va (l.getD 2 0) (if bit w 20 then some (bits w 31 21) else none)))

/-- FETCH_FENCE: what was fetched ahead is read again (R92). -/
def execFetchFence (q : Nat) (s : State) : Out :=
  .next (s.withPacket q 7 (fun s _ l =>
    if bits (l.getD 0 0) 63 12 ≠ 0 then s.queueError q 4 true
    else ((s.forget (.queue q)).updQueue q (fun c => { c with ahead := [] })).packetDone q 1))

/-- The next word of a stream that has not been read: words read so far lead the way through packets, buffers and bodies, up to 64 words,
and not past a FETCH_FENCE (R93). -/
def State.nextUnread (s : State) (q : Nat) (ahead : List (Nat × Nat)) : Nat → List Frame → Nat → Nat → Option Nat
  | 0, _, _, _ => none
  | fuel + 1, frames, rd, count =>
    let have_ := min (s.wordsFrom q rd frames) (levelLeft frames)
    let va (j : Nat) : Nat := s.wordFrom q rd frames j
    let got (j : Nat) : Option Nat := (ahead.find? (fun e => e.1 == va j)).map Prod.snd
    if have_ = 0 ∨ 64 ≤ count then none
    else match got 0 with
      | none => some (va 0)
      | some w =>
        let op := bits w 7 0
        let len := bits w 11 8
        if 7 ≤ op ∨ len = 0 ∨ 8 < len ∨ have_ < len ∨ 64 < count + len then none
        else match (upFrom 1 (len - 1)).find? (fun j => (got j).isNone) with
          | some j => some (va j)
          | none =>
            if op = 2 then
              (if 2 ≤ depthOf frames then none
              else s.nextUnread q ahead fuel (.buffer (BitVec.ofNat 64 ((got 1).getD 0)) (bits w 35 16) 0 :: frames) rd (count + len))
            else if op = 4 then
              (let f : Frame := match frames with
                | [] => .loop (BitVec.ofNat 64 ((rd + 1) % 2 ^ 32)) (bits w 44 32) 1 0 0 true
                | _ => .loop (BitVec.ofNat 64 (va 1)) (bits w 44 32) 1 0 0 false
              s.nextUnread q ahead fuel (f :: frames) rd (count + len))
            else match streamAfter false frames len with
              | some (fr, k) => s.nextUnread q ahead fuel fr ((rd + k) % 2 ^ 32) (count + len)
              | none => none

/-- A worker reads one more word ahead, at any time, where the read succeeds (R93). -/
def State.fetchAhead (s : State) (q : Nat) : State :=
  match s.queue? q with
  | none => s
  | some c =>
    if s.qState q ≠ 1 ∨ c.skip ≠ 0 ∨ c.waitingFault then s
    else match s.nextUnread q c.ahead 64 c.frames (s.qRd q) 0 with
      | none => s
      | some va => match s.readFor (s.qWho q) (.queue q) .current { kind := .read, va := va, size := 8, watch := false, align := 1 } with
        | (.data l false, s1) => s1.updQueue q (fun c => { c with ahead := (va, ofBytes l) :: c.ahead })
        | _ => s

/-- A word read ahead may be read again before its packet executes (R93). -/
def State.dropAhead (s : State) (q : Nat) : State := s.updQueue q (fun c => { c with ahead := [] })

/-- The merge of a user half (R76). -/
def State.mergeQueue (s : State) (q : Nat) (u : List Byte) : State :=
  let wr := recN u 0 4
  let n := (wr + 2 ^ 32 - s.qRd q) % 2 ^ 32
  let d := (wr + 2 ^ 32 - s.qLast q) % 2 ^ 32
  if bits (recN u 4 1) 7 3 ≠ 0 ∨ bits (recN u 5 1) 7 1 ≠ 0 ∨ recN u 6 2 ≠ 0 ∨ recN u 14 50 ≠ 0 then s.queueError q 1 false
  else if 2 ^ s.qLog2 q < n ∨ n < d then s.queueError q 2 false
  else
    let s1 := if d = 0 then s else (s.shSet q 28 4 wr).logInput 3 q wr []
    (s1.updQueue q (fun c =>
      { c with unposted := false, prio := min (bits (recN u 4 1) 2 0) (bits (s.qCtl q) 2 0), paused := bit (recN u 5 1) 0
               interval := s.nextInterval q c.interval (d != 0) })).wantWorker

/-- A fault at the poll of a user half: no new packet begins until Holver has answered it (R69, R76). -/
def State.pollFault (s : State) (q : Nat) (a : Acc) (cause level pte : Nat) : State :=
  match s.postFault { source := 5, unit := q } (s.qAsid q) a cause level pte (.queue q true) with
  | none => s.updQueue q (fun c => { c with unposted := true })
  | some (_, s1) => s1.updQueue q (fun c => { c with userFault := true, unposted := false })

/-- SCANNER_POLL: the user half is loaded and merged (R76, R80). -/
def execScannerPoll (q : Nat) (s : State) : Out :=
  .next (match s.queue? q with
    | none => s
    | some c =>
      if s.qState q ≠ 1 then s
      else if !bit (s.regN aQrcCfg) 12 || s.halted || c.userFault then s.push [.scannerPoll q]
      else
        let va := s.qUhalf q
        let a : Acc := { kind := .read, va := va, size := 64, watch := false, align := 1 }
        (match s.readFor (s.qWho q) (.queue q) .current a with
        | (.data l bad, s1) => if bad then s1.queueError q 9 false else ((s1.mergeQueue q l).forget (.queue q)).push [.scannerPoll q]
        | (.later, s1) => s1.push [.scannerPoll q]
        | (.cause _, s1) => s1.queueError q 9 false
        | (.fault c l p, s1) => (s1.pollFault q a c l p).push [.scannerPoll q]))

/-- Queues that a worker may take: it executes packets, or a mirror is still to be written (R81, R84). -/
def State.ready (s : State) (q : Nat) (c : CmdQueue) : Bool :=
  !c.worker && !c.closing && ((s.mayBegin q c && c.starved != some (s.qLast q))
    || (c.mirrorDue && s.qState q == 1 && !c.waitingFault && !s.halted))

/-- WORKER_ASSIGN: a free worker takes the queue of the highest merged priority, in rotation after the one served last (R81). -/
def execWorkerAssign (s : State) : Out :=
  .next (if s.halted || decide (8 ≤ (s.queues.filter (fun e => e.2.worker)).length) then s
    else
      let l := s.queues.filter (fun e => s.ready e.1 e.2)
      let top := (l.map (fun e => e.2.prio)).foldl Nat.max 0
      let best := (l.filter (fun e => e.2.prio == top)).map Prod.fst
      match (match best.find? (fun q => decide (s.lastServed < q)) with | some q => some q | none => best.head?) with
      | none => s
      | some q =>
        let s1 : State := { s.updQueue q (fun c => { c with worker := true, executed := 0, starved := none }) with lastServed := q }
        (s1.kick q 600).wantWorker)

/-- OPEN; a reserved byte of the shadow half that is not zero makes it invalid (R6, R79). -/
def State.qrcOpenOp (s : State) (q : Nat) : State :=
  if s.qState q ≠ 0 then s
  else
    let s := s.noteCarve (s.shadowAt q)
    let l := s.qLog2 q
    let ok := decide (10 ≤ l) && decide (l ≤ 24) && s.qRing q % (8 * 2 ^ l) == 0 && s.qUhalf q % 64 == 0 && bits (s.qCtl q) 7 5 == 0
      && s.shF q 22 2 == 0 && s.shF q 37 3 == 0 && s.shF q 48 16 == 0 && s.asidLive (s.qAsid q)
    let c : CmdQueue :=
      { prio := 0, paused := false, interval := s.scanMin, frames := [], worker := false, wait := none, launch := none, waitingFault := false
        dataFault := false, mirrorDue := false, skip := 0, starved := none, closing := false, begun := false, executed := 0 }
    let s1 : State := { s with queues := Dict.put s.queues q c }
    if !ok then s1.queueError q 4 false
    else (((((s1.shSet q 24 4 0).shSet q 28 4 0).shSet q 21 1 0).shSet q 20 1 1).mirrors q).push [.scannerPoll q]

/-- CLOSE: the packet in execution issues first; a WAIT in progress is abandoned (R79). -/
def State.qrcCloseOp (s : State) (q : Nat) : State :=
  if s.qState q = 0 then s
  else match s.queue? q with
    | none => s.closeNow q
    | some c =>
      if c.launch.isSome || (c.begun && bits (c.words.headD 0) 7 0 != 5) then s.updQueue q (fun c => { c with closing := true })
      else s.closeNow q

/-- An OPEN or CLOSE ordered before is still to take effect, or the pair that makes it is halted (R79, R82). -/
def State.qrcPending (s : State) : Bool := s.halted || s.queues.any (fun e => e.2.closing)

/-- The operation that a write of `QRC_CMD` orders (R78, R79). -/
def State.qrcCommand (s : State) (v : Nat) : State :=
  let q := bits v 11 0
  if s.regF aQrcCfg 44 32 ≤ q then s
  else if bits v 13 12 = 0 then s.qrcOpenOp q
  else if bits v 13 12 = 1 then s.qrcCloseOp q
  else s

/-- A dedicated row writes the register and runs its operation, after those ordered before (R79). -/
def State.qrcRow (s : State) (op q : Nat) : State :=
  let v := op * 2 ^ 12 + q % 4096
  if s.qrcPending then s.wait else (s.setRegN aQrcCmd v).qrcCommand v
def execQrcOpen (q : Nat) (s : State) : Out := .next (s.qrcRow 0 q)
def execQrcClose (q : Nat) (s : State) : Out := .next (s.qrcRow 1 q)

/-- Holver's answer to a record on which a queue waits (R69, R76, R84, R85). -/
def State.queueResume (s : State) (q : Nat) (user deny : Bool) : State :=
  match s.queue? q with
  | none => s
  | some c =>
    if s.halted then s
    else
      let s1 := s.updQueue q (fun c =>
        if user then { c with userFault := false, waitingFault := c.waitingFault && !c.mirrorDue } else { c with waitingFault := false })
      if deny then s1.queueError q (if c.dataFault ∧ !user then 12 else 9) (!user)
      else if c.wait.isSome && !user then s1.push [.waitPacketPoll q]
      else (s1.kick q 600).wantWorker

end Sys2Proof.Machine
end

