-- ==== Sys2Proof/Machine/Sha.lean ====
section
/-! DEFINITION. SHA-256, and the verification of RSASSA-PSS signatures with it (R32, R34, R72). -/

namespace Sys2Proof.Machine

open Sys2Proof

/-- Round constants of SHA-256. -/
def shaK : List Nat :=
  [0x428A2F98, 0x71374491, 0xB5C0FBCF, 0xE9B5DBA5, 0x3956C25B, 0x59F111F1, 0x923F82A4, 0xAB1C5ED5]
    ++ [0xD807AA98, 0x12835B01, 0x243185BE, 0x550C7DC3, 0x72BE5D74, 0x80DEB1FE, 0x9BDC06A7, 0xC19BF174]
    ++ [0xE49B69C1, 0xEFBE4786, 0x0FC19DC6, 0x240CA1CC, 0x2DE92C6F, 0x4A7484AA, 0x5CB0A9DC, 0x76F988DA]
    ++ [0x983E5152, 0xA831C66D, 0xB00327C8, 0xBF597FC7, 0xC6E00BF3, 0xD5A79147, 0x06CA6351, 0x14292967]
    ++ [0x27B70A85, 0x2E1B2138, 0x4D2C6DFC, 0x53380D13, 0x650A7354, 0x766A0ABB, 0x81C2C92E, 0x92722C85]
    ++ [0xA2BFE8A1, 0xA81A664B, 0xC24B8B70, 0xC76C51A3, 0xD192E819, 0xD6990624, 0xF40E3585, 0x106AA070]
    ++ [0x19A4C116, 0x1E376C08, 0x2748774C, 0x34B0BCB5, 0x391C0CB3, 0x4ED8AA4A, 0x5B9CCA4F, 0x682E6FF3]
    ++ [0x748F82EE, 0x78A5636F, 0x84C87814, 0x8CC70208, 0x90BEFFFA, 0xA4506CEB, 0xBEF9A3F7, 0xC67178F2]

/-- Initial hash words. -/
def shaInit : List W32 := [0x6A09E667, 0xBB67AE85, 0x3C6EF372, 0xA54FF53A, 0x510E527F, 0x9B05688C, 0x1F83D9AB, 0x5BE0CD19]

/-- A word that four bytes hold, the first the highest. -/
def beWord (l : List Byte) : W32 := BitVec.ofNat 32 (ofBytes (l.take 4).reverse)

/-- The bytes of a number, highest first. -/
def beBytes (n x : Nat) : List Byte := (toBytes n x).reverse

/-- The number that bytes hold, highest first. -/
def ofBe (l : List Byte) : Nat := ofBytes l.reverse

/-- The message with its padding (FIPS 180-4). -/
def shaPad (l : List Byte) : List Byte :=
  l ++ [0x80] ++ List.replicate ((119 - l.length % 64) % 64) 0 ++ beBytes 8 (8 * l.length)

/-- The next words of a message schedule; the words so far are held last first. -/
def shaExtend : Nat → List W32 → List W32
  | 0, w => w
  | n + 1, w =>
    let g (i : Nat) : W32 := w.getD (i - 1) 0
    let x := g 15
    let y := g 2
    let s0 := x.rotateRight 7 ^^^ x.rotateRight 18 ^^^ (x >>> 3)
    let s1 := y.rotateRight 17 ^^^ y.rotateRight 19 ^^^ (y >>> 10)
    shaExtend n ((g 16 + s0 + g 7 + s1) :: w)

/-- The 64 rounds on the working words. -/
def shaRounds : List (W32 × Nat) → List W32 → List W32
  | (w, k) :: r, [a, b, c, d, e, f, g, h] =>
    let s1 := e.rotateRight 6 ^^^ e.rotateRight 11 ^^^ e.rotateRight 25
    let t1 := h + s1 + ((e &&& f) ^^^ (~~~e &&& g)) + BitVec.ofNat 32 k + w
    let s0 := a.rotateRight 2 ^^^ a.rotateRight 13 ^^^ a.rotateRight 22
    shaRounds r [t1 + s0 + ((a &&& b) ^^^ (a &&& c) ^^^ (b &&& c)), a, b, c, d + t1, e, f, g]
  | _, v => v

/-- One block. -/
def shaBlock (h : List W32) (l : List Byte) : List W32 :=
  let first := (upFrom 0 16).map (fun i => beWord (l.drop (4 * i)))
  let w := (shaExtend 48 first.reverse).reverse
  (h.zip (shaRounds (w.zip shaK) h)).map (fun e => e.1 + e.2)

/-- The blocks of a padded message. -/
def shaBlocks : Nat → List Byte → List W32 → List W32
  | 0, _, h => h
  | n + 1, l, h => shaBlocks n (l.drop 64) (shaBlock h (l.take 64))

/-- The digest as 32 bytes, and as the number whose lowest byte is its first. -/
def sha256Bytes (l : List Byte) : List Byte :=
  (shaBlocks ((shaPad l).length / 64) (shaPad l) shaInit).flatMap (fun w => beBytes 4 w.toNat) |>.take 32
def sha256 (l : List Byte) : BitVec 256 := BitVec.ofNat 256 (ofBytes (sha256Bytes l))

/-- The 32 bytes of a digest. -/
def digestBytes (d : BitVec 256) : List Byte := toBytes 32 d.toNat

/-- A mask of `n` bytes from a seed: MGF1 with SHA-256. -/
def mgf1 (seed : List Byte) (n : Nat) : List Byte :=
  ((upFrom 0 (ceilDiv n 32)).flatMap (fun i => sha256Bytes (seed ++ beBytes 4 i))).take n

/-- `x ^ 65537 mod n`. -/
def pow65537 (n x : Nat) : Nat :=
  ((upFrom 0 16).foldl (fun y _ => y * y % n) (x % n)) * x % n

/-- `rsassa_pss_verify` of R32: modulus and signature as 384-byte fields, numbers under R2; the digest of the message; a salt of 32 bytes
(log 51). -/
def pssVerify (modulus : Nat) (h : List Byte) (sig : Nat) : Bool :=
  if modulus = 0 ∨ modulus ≤ sig then false
  else
    let bitLen := modulus.log2
    let emLen := ceilDiv bitLen 8
    let m := pow65537 modulus sig
    let em := beBytes emLen m
    let db' := em.take (emLen - 33)
    let hh := (em.drop (emLen - 33)).take 32
    let mask := mgf1 hh (emLen - 33)
    let clear := 8 * emLen - bitLen
    let db := (ofBe db' ^^^ ofBe mask) % 2 ^ (8 * (emLen - 33) - clear)
    let dbl := beBytes (emLen - 33) db
    let pad := emLen - 66
    let salt := dbl.drop (pad + 1)
    decide (66 ≤ emLen) && decide (m < 2 ^ (8 * emLen)) && em.getLast? == some 0xBC && decide (ofBe db' / 2 ^ (8 * (emLen - 33) - clear) = 0)
      && (dbl.take pad).all (· == 0) && dbl.getD pad 0 == 1
      && sha256Bytes (List.replicate 8 0 ++ h ++ salt) == hh

end Sys2Proof.Machine
end

