-- ==== Sys2Proof/Machine/Yoke.lean ====
section
/-! DEFINITION. The answers to fault records, the boot-chain registers and the rings of the Yoke register space (R63, R69, R71, R72). -/

namespace Sys2Proof.Machine

open Sys2Proof

/-- A parked path no longer waits on record `i`; its last record lets it go on, or traps it for the lanes denied (R69, R158). -/
def State.pathAnswered (s : State) (i : Nat) (p : PathId) (deny : Bool) : State :=
  let s1 := s.updPath p (fun q => match q.park with
    | .fault waits d dl stream addrs =>
      let mine := (waits.filter (fun w => w.1 == i)).foldl (fun m w => m ||| w.2) (0 : Mask)
      { q with park := .fault (waits.filter (fun w => w.1 != i)) (d || deny) (if deny then dl ||| mine else dl) stream addrs }
    | _ => q)
  match s1.coil? p.coil with
  | none => s1
  | some c => match c.residency with
    | .saved _ _ => s1.refreshSaved p.coil p.strand
    | _ => s1.settleFault p

/-- What an answer does to one waiter: with DENY it fails as its own chapter says, else it tries again (R69, R85, R214, R226, R320, R410). -/
def State.waiterAnswered (s : State) (i : Nat) (deny : Bool) : FaultWaiter → State
  | .path p _ => s.pathAnswered i p deny
  | .engine op =>
    if deny then s.engineEnd op .translation
    else match Dict.find? s.ops op with
      | some o =>
        let s1 := match s.coil? o.coil with | some c => s.l1Acquire (c.hamper + o.half) | none => s
        { s1 with ops := Dict.put s1.ops op { o with faulted := false } }.push [o.event op]
      | none => s
  | .bte q n k => s.bteResume q n k deny
  | .queue q user => s.queueResume q user deny
  | .reduction p f => (if deny then s else s.mergeOrKeep p f).settleCoil p.coil

/-- A write of `YOK_FLT_RESUME` (R69). -/
def State.fltResume (s : State) (v : Nat) : State :=
  let i := bits v 31 0
  let s1 := s.setRegN aFltResume (bits v 32 0)
  match Dict.find? s1.faults i with
  | none => s1.yokErr 2
  | some r =>
    if r.waiters = [] then { s1 with faults := Dict.del s1.faults i }.yokErr 2
    else r.waiters.foldl (fun s w => s.waiterAnswered i (bit v 32) w) { s1 with faults := Dict.del s1.faults i }

/-- YOK_FLT_RESUME (R69). -/
def execYokFltResume (index : W32) (deny : Bool) (s : State) : Out := .next (s.fltResume (b2n deny * 2 ^ 32 + index.toNat))

/-- A write of `YOK_SVN_COMMIT` (R71). -/
def State.svnCommit (s : State) (kind : Nat) : State :=
  let s1 := s.setRegN aSvnCommit kind
  if 1 ≤ kind ∧ kind ≤ 4 then
    { s1 with link := { s1.link with
        fuseSvn := Tab.set 0 s1.link.fuseSvn kind (max (Tab.get 0 s1.link.fuseSvn kind) (Tab.get 0 s1.link.runningSvn kind)) } }
  else s1

/-- YOK_SVN_COMMIT (R71). -/
def execYokSvnCommit (kind : BitVec 3) (s : State) : Out := .next (s.svnCommit kind.toNat)

/-- Extends a measurement register (R34). -/
def State.measExtend (s : State) (i : Nat) (value : List Byte) : State :=
  { s with link := { s.link with meas := Tab.set 0 s.link.meas i (sha256 (digestBytes (Tab.get 0 s.link.meas i) ++ value)) } }

/-- A write of `YOK_MEAS_EXTEND` by a hart (R72). -/
def State.measWrite (s : State) (hart i : Nat) : State :=
  let s1 := s.setRegN aMeasExtend i
  if i = 6 ∨ i = 7 then s1.measExtend i ((upFrom 0 4).flatMap (fun j => toBytes 8 (Tab.get 0 s1.measData (4 * hart + j)).toNat)) else s1

/-- YOK_MEAS_EXTEND (R72). -/
def execYokMeasExtend (hart : Nat) (index : BitVec 3) (s : State) : Out := .next (s.measWrite hart index.toNat)

/-- A write of `YOK_UPC_CFG` or of `YOK_FLT_CFG`: with EN it checks BASE and LOG2 (R63; log 53). -/
def State.ringCfg (s : State) (fault : Bool) (v : Nat) : State :=
  let (base, cfg) := if fault then (aFltBase, aFltCfg) else (aUpcBase, aUpcCfg)
  let log2 := bits v 4 0
  let w := bits v 31 16 * 2 ^ 16 + log2
  let ok := decide (6 ≤ log2) && decide (log2 ≤ 16) && s.regF base 63 6 * 64 % (64 * 2 ^ log2) == 0
  let s1 := if bit v 5 then (if ok then s.setRegN cfg (w + 32) else (s.setRegN cfg w).yokErr 4) else s.setRegN cfg w
  if fault then s1.retryRflags else s1

/-- YOK_RING_ENABLE (R63). -/
def execYokRingEnable (fault : Bool) (value : W64) (s : State) : Out := .next (s.ringCfg fault value.toNat)

end Sys2Proof.Machine
end

