-- ==== Sys2Proof/Machine/MemEvents.lean ====
section
/-! DEFINITION. Walks and invalidations of translations, uncorrectable errors and the patrol scrubber (R154-R160, R208, R264). -/

namespace Sys2Proof.Machine

open Sys2Proof

/-- The fields of a fault record that name whose walk it was: free, since the event names no agent (log 54). -/
def State.walkSource (s : State) : FaultSource :=
  { source := Config.choice s.tick % 6, hamper := Config.choice (s.tick + 1) % 2 ^ 16, slot := Config.choice (s.tick + 2) % 256
    unit := Config.choice (s.tick + 3) % 2 ^ 32, bolt := Config.choice (s.tick + 4) % 2 ^ 64 }

/-- The shared TLB that the walk of a PAGE_WALK fills: of either die, since the event names no unit (log 54). -/
def State.walkUser (s : State) : TlbUser := .die (Config.choice (s.tick + 5) % 2)

/-- PAGE_WALK: a miss of a shared TLB walks the tables and fills it, or fails into a fault record; while the fault
queue takes none the walk waits with the access that needs it, which makes it again (R69, R154, R155, R157). -/
def execPageWalk (asid : Nat) (va : W64) (k : AccessKind) (s : State) : Out :=
  .next (match s.tlbFind s.walkUser asid va.toNat k with
    | some _ => s
    | none => match s.walk s.walkUser asid va.toNat k with
      | (.ok _, s1) => s1
      | (.fail c l p, s1) => (match s1.addFailure s1.walkSource asid { kind := k, va := va.toNat, size := 1 } c l p [] with
        | some (_, s2) => { s2 with tick := s2.tick + 6 }
        | none => s1))

/-- The address space of a request that leaves on the host port; none for a Yoke hart, whose own TLBs serve it, or once nothing names it. -/
def State.reqAsid (s : State) (r : RemoteReq) : Option Nat :=
  match r.reader with
  | none => (s.coilBolt? r.p.coil).map (fun e => e.2.asid)
  | some (.path p _) => (s.coilBolt? p.coil).map (fun e => e.2.asid)
  | some (.engine op) => (Dict.find? s.ops op).bind (fun o => (s.coilBolt? o.coil).map (fun e => e.2.asid))
  | some (.chunk q _ _) => some (s.bteAsid q)
  | some (.packet q _) => some (s.bteAsid q)
  | some (.bteQueue q) => some (s.bteAsid q)
  | some (.queue q) => some (s.qAsid q)
  | some (.yoke _) => none

/-- Some access to the host window that an invalidation covers has been translated and is not performed; a page is covered with its gigapage, the
largest that may have held it (R156). -/
def State.hostPending (s : State) (asid page : Option Nat) : Bool :=
  s.remotes.any (fun e => e.2.port == 255 && (match e.2.reader with | some (.yoke _) => false | _ => true)
    && (match asid, s.reqAsid e.2 with | some a, some b => a == b | _, _ => true)
    && (match page with | some p => e.2.parts.any (fun q => q.va.toNat / 2 ^ 30 == p / 2 ^ 30) | none => true))

/-- Drops the translations that do not pass a test, once every access made through them is performed at the L2 (R156). -/
def State.keepTlb (s : State) (keep : TlbEntry → Bool) : State :=
  s.setTlb (s.tlb.filter keep)

/-- The page that `MEM_TLB_INV_VA` names. -/
def State.invPage (s : State) : Nat :=
  let va := s.regF aTlbVa 56 12 * 4096
  if bit va 56 then va + (2 ^ 64 - 2 ^ 57) else va

/-- A write of `MEM_TLB_INV_CMD`: it waits until accesses to the host window that it covers have been performed (R144, R156). -/
def State.tlbCommand (s : State) (v : Nat) : State :=
  let asid := bits v 31 16
  match v % 4 with
  | 0 =>
    if s.hostPending (some asid) (some s.invPage) then s.wait
    else s.keepTlb (fun e => !(e.asid == asid && decide (e.vbase ≤ s.invPage) && decide (s.invPage < e.vbase + e.size)))
  | 1 => if s.hostPending (some asid) none then s.wait else s.keepTlb (fun e => e.asid != asid)
  | 2 => if s.hostPending none none then s.wait else s.keepTlb (fun _ => false)
  | _ => s

/-- A dedicated row writes the registers and runs the operation. -/
def State.tlbRow (s : State) (asid range : Nat) : State :=
  let v := asid % 2 ^ 16 * 2 ^ 16 + range
  (s.setRegN aTlbCmd v).tlbCommand v

/-- TLB_INV_PAGE, TLB_INV_ASID and TLB_INV_ALL (R156). -/
def execTlbInvPage (asid : Nat) (va : W64) (s : State) : Out := .next ((s.setRegN aTlbVa (bits va.toNat 56 12 * 4096)).tlbRow asid 0)
def execTlbInvAsid (asid : Nat) (s : State) : Out := .next (s.tlbRow asid 1)
def execTlbInvAll (s : State) : Out := .next (s.tlbRow 0 2)

/-- Poisons the 64-byte granule of device memory that holds an address. -/
def State.poisonAt (s : State) (pa : Nat) : State :=
  if pa < s.memBytes then { s with poison := Tab.set false s.poison (pa / 64) true } else s

/-- An uncorrectable error of the HBM or of the L2: the address is recorded before the bit that reports it (R160). -/
def State.memUe (s : State) (pa mask : Nat) : State :=
  (((s.poisonAt pa).setRegN aMemErrAddr (pa % 2 ^ 48)).setErr 1 mask).msix 0

/-- SRAM_UE (R160, R264). -/
def State.sramUe (s : State) : State := (s.setErr 1 1).msix 0

/-- Barrier words in use on a Hamper: coil and barrier (R102, R385). -/
def State.barsOn (s : State) (h : Nat) : List (Nat × Nat) :=
  s.coils.flatMap (fun e => match Dict.find? s.bolts e.2.bolt with
    | some b => if e.2.hamper = h ∧ e.2.placed = true then (upFrom 0 b.desc.bars).map (fun i => (e.1, i)) else []
    | none => [])

/-- An error in the tag of a superblock of an L1: it is gone, and its dirty bytes reach the L2 poisoned (R160). -/
def State.l1Spoil (s : State) (h sb : Nat) : State :=
  match s.l1At h sb with
  | some b => s.l1Write { b with poison := 2 ^ 64 - 1 } (upFrom 0 4) { b with filled := 0, dirty := 0 }
  | none => s

/-- An error in a granule of an L1 way: set by set, a way holds 512 bytes of each (R149, R160). -/
def State.l1Error (s : State) (h way off : Nat) : State :=
  let g := off % 512 / 8
  { s with l1 := s.l1.map (fun b =>
      if b.hamper = h ∧ b.way = way ∧ b.base % 32 = off / 512 ∧ (upFrom (8 * g) 8).any b.holds = true then { b with poison := setBits b.poison g g 1 } else b) }

/-- An error in the Hamper SRAM: a granule of a scratchpad bank or of an L1 way; a barrier word or a queue entry that the machine
chooses, or none (R145, R160; log 55). -/
def State.sramError (s : State) (h off : Nat) : State :=
  let bank := off / 16384
  let c := Config.choice s.tick
  let s1 := s.draw
  if 192 ≤ h ∨ 2 ^ 19 ≤ off then s
  else if bank = 31 ∧ off % 16384 < 1024 then
    match (s1.barsOn h)[c % ((s1.barsOn h).length + 1)]? with
    | some (k, b) => s1.updCoil k (fun x => { x with barPoison := Tab.set false x.barPoison b true })
    | none => s1
  else if bank < 30 ∧ s.role h bank = 0 then { s1 with sramPoison := Tab.set false s1.sramPoison ((h * 2 ^ 19 + off) / 8) true }
  else if bank < 30 ∧ s.role h bank = 2 then
    { s1 with fifos := Dict.upd s1.fifos (32 * h + bank) (fun l => l.modify (c % (l.length + 1)) (fun e => (e.1, true))) }
  else s1.l1Error h bank (off % 16384)

/-- UNCORRECTABLE_ERROR (R160, R208, R264). -/
def execUncorrectableError (site : ErrorSite) (s : State) : Out :=
  .next (match site with
    | .hbm pa => s.memUe pa 4
    | .l2 pa => s.memUe pa 2
    | .sram h off => (s.sramError h off).sramUe
    | .laneReg k i reg lane => (s.updStrand k i (fun st => { st with vpoison := Tab.set false st.vpoison (vKey reg lane) true })).sramUe
    | .scalarReg p reg => (s.updStrand p.coil p.strand (fun st =>
        if reg = 0 then st else { st with spoison := Tab.set false st.spoison (sKey p.path reg) true })).sramUe
    | .olderPly line stamp => (({ s with ply := { s.ply with olds := s.ply.olds.map (fun o =>
        if o.line = line ∧ o.stamp = stamp then { o with poison := [true, true] } else o) } } : State).setErr 2 8).msix 0
    | .l1Tag h pa => (s.l1Spoil h (pa / 512)).sramUe)

/-- PATROL_SCRUB: corrected errors change no value (R159). -/
def execPatrolScrub (s : State) : Out := .next s

end Sys2Proof.Machine
end

