-- ==== Sys2Proof/Machine/Debug.lean ====
section
/-! DEFINITION. Stops, steps, PC samples and the trace rings of the debug space (R269-R281). -/

namespace Sys2Proof.Machine

open Sys2Proof

/-- A debugger has stopped the coil (R270). -/
def Coil.stopped (c : Coil) : Bool := c.debugStop && (match c.residency with | .saved _ _ => true | .inPlace _ => true | _ => false)

/-- A watchdog holds the coil as well (R138). -/
def Coil.watchHeld (c : Coil) : Bool :=
  match c.residency with
  | .saved _ n => n == 2 || n == 3
  | .inPlace n => n == 2 || n == 3
  | _ => false

/-- STOP of some coils (R270). -/
def State.dbgStopAll (s : State) (l : List (Nat × Coil)) : State := l.foldl (fun s e => s.debugStopCoil e.1 (0, 0)) s

/-- RESUME of one coil (R272): a STEP that was broken off is over, and a watchdog's hold stays. -/
def State.dbgResumeOne (s : State) (k : Nat) (c : Coil) : State :=
  let c1 : Coil := { c with debugStop := false, stepOnly := none }
  let s1 : State := { s with coils := Dict.put s.coils k c1 }
  if c.watchHeld then s1 else s1.goOn k c1

/-- STEP of one coil (R272). -/
def State.dbgStepOne (s : State) (k : Nat) (c : Coil) (i p : Nat) : Option State :=
  let parked := match (c.strands[i]?).bind (fun st => st.path? p) with
    | some q => q.park != .running
    | none => true
  if !c.stopped || c.watchHeld || parked then none
  else
    let c1 : Coil := { c with debugStop := false, stepOnly := some (i, p, false) }
    some (({ s with coils := Dict.put s.coils k c1 } : State).goOn k c1)

/-- The operation that a write of `DBG_CMD` orders (R269-R272; log 56). -/
def State.dbgCommand (s : State) (v : Nat) : State :=
  let status (s : State) (n : Nat) : State := s.setRegF aDbgCmd 41 40 n
  let op := v % 8
  let all := bit v 8
  let bolt := s.regN aDbgSelBolt
  let l := if all then s.coilsOf bolt else (s.coilNamed bolt (s.regN aDbgSelPos)).toList
  if op = 0 ∨ 3 < op ∨ (op = 3 ∧ all = true) then status s 2
  else if op = 1 ∧ s.regF aCtxCfg 15 0 = 0 then status s 3
  else if l = [] then status s 1
  else if op = 1 then
    let todo := l.filter (fun e => !e.2.debugStop)
    if todo = [] then status s 2 else status (s.dbgStopAll todo) 0
  else if op = 2 then
    let todo := l.filter (fun e => e.2.stopped)
    if todo = [] then status s 2 else status (todo.foldl (fun s e => s.dbgResumeOne e.1 e.2) s) 0
  else match l with
    | (k, c) :: _ => (match s.dbgStepOne k c (bits v 37 32) (bits v 27 24) with
      | some s1 => status s1 0
      | none => status s 2)
    | [] => status s 1

/-- A dedicated row writes OP into the register, the other fields as they stand, and runs the operation. -/
def State.dbgRow (s : State) (op : Nat) : State :=
  let s1 : State := { s.setRegF aDbgCmd 2 0 op with debugUnit := { s.debugUnit with commander := 16 } }
  s1.dbgCommand (s1.regN aDbgCmd)

/-- DBG_STOP, DBG_RESUME and DBG_STEP (R270, R272). -/
def execDbgStop (s : State) : Out := .next (s.dbgRow 1)
def execDbgResume (s : State) : Out := .next (s.dbgRow 2)
def execDbgStep (s : State) : Out := .next (s.dbgRow 3)

/-- The reason for which a path is parked; `wait mem` and `cp.wait` have no code of their own (R276; log 57). -/
def Park.reason : Park → Option Nat
  | .running => none
  | .barrier _ _ => some 12
  | .hoop _ _ _ _ _ => some 13
  | .gang _ => some 14
  | .upcall _ _ => some 15
  | .fault _ _ _ _ _ => some 16
  | .join _ _ => some 17
  | .ending => some 18
  | .twait _ _ _ _ _ => some 19
  | .waitPath sel _ => some (20 + min sel 3)
  | .waitTimeline _ _ _ => some 24
  | .waitMem _ _ _ => some ((Config.spare 276 0).toNat % 32)
  | .cpWait _ _ _ _ => some ((Config.spare 276 1).toNat % 32)
  | .reorder => some 26
  | .splitWait _ _ => some 25
  | .plyRdv _ _ _ _ => some 30
  | .trap _ _ _ => some 27

/-- The codes of the reasons that hold. -/
def codesOf (l : List (Bool × Nat)) : List Nat := (l.filter (fun e => e.1)).map (fun e => e.2)

/-- Reasons that hold back the next lane instruction of a running course (R115, R276). -/
def State.laneReasons (s : State) (x : Issuer) (r : Running) : List Nat :=
  let o := r.lane
  let op := bits (r.words.getD r.pos 0).toNat 31 24
  let u := laneUses op o (laneMore op o)
  let n := (lanesOf (activeOf x o) x.w).length
  let bank := (s.fifo x (bits o.imm.toNat 4 0)).length
  codesOf [(lookahead x r, 4), (awaitsWrite x u.1 u.2.1 u.2.2, 5),
    (decide (op = 0xB1 ∧ 2048 < bank + n) || decide (op = 0xB2 ∧ bank < n), 28),
    ((laneWrites op ((laneForm op o).getD {}) o).any (s.heldRegs x.id.coil x.id.strand x.w).contains
      || ((op == 0xC0 || op == 0xC1) && s.tileBusy x o.a.toNat (op == 0xC0)) || (op == 0xC2 && s.tileBusy x o.d.toNat false), 29)]

/-- A scalar instruction, by its first word, waits until earlier courses of its path have ended (R119, R329). -/
def waitsCourses (w : Nat) : Bool :=
  let op := bits w 31 26
  let fn := w % 16
  ((upFrom 0x09 9) ++ [0x13, 0x16, 0x17, 0x18, 0x19, 0x1E] ++ upFrom 0x22 5 ++ upFrom 0x28 4).contains op
    || (op == 0x1A && fn == 1) || (op == 0x1B && fn == 11) || (op == 0x1F && fn != 3) || (op == 0x20 && (fn == 2 || fn == 4))
    || (op == 0x3F && bits w 13 8 == 5)

/-- The scalar registers, and the masks, that the fields of the first word of a scalar instruction name (R289). -/
def scalarFields (w : Nat) : List Nat × List Nat :=
  let op := bits w 31 26
  if op = 0x12 ∨ op = 0x14 then ([], [])
  else if op = 0x13 ∨ op = 0x18 then ([], [bits w 24 21])
  else if op = 0x19 then ([], [0])
  else if op = 0x16 then ([], [bits w 25 22, bits w 21 18, bits w 17 14])
  else if op = 0x17 then ([bits w 13 8], [bits w 25 22, bits w 21 18, bits w 17 14])
  else if 3 ≤ op ∧ op ≤ 0x10 ∨ op = 0x15 then ([bits w 25 20, bits w 19 14], [])
  else ([bits w 25 20, bits w 19 14, bits w 13 8], [])

/-- Reasons that hold back the next scalar instruction of a path (R115, R276). -/
def State.scalarReasons (s : State) (x : Issuer) : List Nat :=
  match s.codeValues x x.path.pc.toNat with
  | some (w :: _) =>
    let op := bits w 31 26
    let f := scalarFields w
    codesOf [(op == 0x3F && bits w 13 8 == 4 && decide (4 ≤ x.strand.queue.length + b2n x.strand.running.isSome), 2),
      (pendingK x f.2, 5), (s.pendingS x f.1, 6), (waitsCourses w && x.strand.hasCourses x.id.path, 7),
      (decide (0x22 ≤ op ∧ op ≤ 0x26) && s.intakeFull x.hamper, 10)]
  | _ => []

/-- What a timing that no rule fixes may make the reason when nothing that the state shows holds a stream back: that the path has issued, was not
picked, finds its lane unit busy, its table full, or its ring full (R276; log 57). -/
def State.mayReasons (s : State) (x : Issuer) : List Nat :=
  [0, 1] ++ codesOf [(x.strand.running.any (fun r => r.course.path == x.id.path), 9), (decide (448 < s.ottUsed x.hamper), 8), (x.role == 1, 11)]

/-- Reasons that a sample of a path which is not parked may give: those of its lane stream while its course runs, else those of its scalar stream;
its other stream may have issued (R276). -/
def State.reasons (s : State) (x : Issuer) : List Nat :=
  let sc := s.scalarReasons x
  match x.strand.running with
  | some r =>
    if r.course.path == x.id.path then
      (match s.laneReasons x r with
      | [] => s.mayReasons x
      | l => l ++ (if sc = [] then [0] else []))
    else if sc = [] then s.mayReasons x else sc
  | none => if sc = [] then s.mayReasons x else sc

/-- One of some reasons. -/
def State.oneOf (s : State) (l : List Nat) : Nat := l.getD (Config.choice s.tick % l.length) 1

/-- REASON of a sample: 0 when the path issues (R276). A coil that stops or stands still in its place has no code (log 57). -/
def State.reason (s : State) (x : Issuer) : Nat :=
  match x.path.park.reason with
  | some n =>
    if x.path.park.lanesOpen && coilFree x && x.strand.running.any (fun r => r.course.path == x.id.path) then s.oneOf [0, n] else n
  | none =>
    if pathFree x || pathWindsUp x then s.oneOf (s.reasons x)
    else if x.coil.stepOnly.isSome && x.coil.issues then (if coilFree x then s.oneOf (s.reasons x) else 31)
    else (Config.spare 276 2).toNat % 32

/-- A sample record (R275). -/
def State.sampleRecord (s : State) (x : Issuer) (h q : Nat) : List Byte :=
  let n := s.reason x
  toBytes 1 (n + 128 * b2n (n == 0)) ++ toBytes 1 x.strand.slot ++ toBytes 1 (x.id.path + 16 * q) ++ [0] ++ toBytes 2 h ++ [0, 0]
    ++ toBytes 8 x.path.pc.toNat ++ toBytes 8 x.coil.bolt ++ toBytes 4 x.coil.x ++ toBytes 2 x.coil.y ++ toBytes 2 x.coil.z
    ++ toBytes 4 x.coil.phases ++ toBytes 8 s.clock ++ List.replicate 20 0

/-- One quadrant takes a sample (R275). -/
def State.sampleQuadrant (s : State) (h q : Nat) : State :=
  let c := s.regN aSmpCfg
  let l := (s.candidates h q).filter (fun e => bit c 40 || e.2.asid == bits c 63 48)
  let r := Tab.get Rotation.start s.rotations (4 * h + q)
  match (match l.find? (fun e => decide (r.sample ≤ e.1)) with | some e => some e | none => l.head?) with
  | none => s
  | some (n, x) =>
    let s1 : State := { s with tick := s.tick + 1, rotations := Tab.set Rotation.start s.rotations (4 * h + q) { r with sample := n + 1 } }
    match s1.ringPut (s1.regF aSmpBase 63 12 * 4096) aSmpWr aSmpRd (s1.regF aSmpCfg 4 0) 3 (s.sampleRecord x h q) with
    | some s2 => s2
    | none => s1.setRegN aSmpDrop ((s1.regN aSmpDrop + 1) % 2 ^ 32)

/-- The four quadrants of a Hamper take a sample each (R275). -/
def State.sampleHamper (s : State) (h : Nat) : State := (upFrom 0 4).foldl (fun s q => s.sampleQuadrant h q) s

/-- PC_SAMPLE: one Hamper's samples (R275). -/
def execPcSample (h : Nat) (s : State) : Out := .next (if bit (s.regN aSmpCfg) 32 then s.sampleHamper h else s)

/-- TRACE_LOSS_RECOVER: a LOSS packet at the start of a new block, then a SYNC of each live path (R281; log 58). -/
def execTraceLossRecover (h : Nat) (s : State) : Out := .next (s.recoverLoss h)

/-- TRACE_BLOCK_FLUSH: the open block is padded and written (R277). -/
def execTraceBlockFlush (h : Nat) (s : State) : Out := .next (s.flushBlock h)

/-- A write of `DBG_TRC_CFG`: paths newly traced write a SYNC; a trace switched off writes its open blocks (R277, R280). -/
def State.traceCfg (s : State) (old : Nat) : State :=
  let new := s.regN aTrcCfg
  if bit new 32 then
    (if bit old 32 && bits old 63 48 == bits new 63 48 then s
    else (upFrom 0 s.hampers).foldl (fun s h => (s.recoverLoss h).syncAll h 0) s)
  else if bit old 32 then (upFrom 0 s.hampers).foldl State.flushBlock s
  else s

/-- The 64-byte header of a Klonen file (R283). -/
def State.klonenHeader (s : State) : List Byte :=
  [0x4B, 0x4C, 0x4E, 0x31] ++ toBytes 4 (s.regN aFabId) ++ toBytes 4 (s.regN aModUnits) ++ toBytes 4 (s.regN aModMem)
    ++ toBytes 1 (s.regN aPwrMode) ++ List.replicate 47 0

/-- The replay records that the replay ring holds, in ring order (R282, R283). -/
def State.replayRecords (s : State) : List Byte :=
  let rd := s.regF aLogRd 31 0
  let log2 := s.regF aLogCfg 4 0
  (upFrom rd ((s.regF aLogWr 31 0 + 2 ^ 32 - rd) % 2 ^ 32)).flatMap (fun i =>
    (s.readView .current (s.regF aLogBase 63 12 * 4096 + 64 * (i % 2 ^ log2)) 64).1)

/-- The trace stream of a Hamper that its ring holds, block by block (R277). -/
def State.traceStream (s : State) (h : Nat) : List Byte :=
  let rd := s.regN (aTrcRd h)
  let size := 2 ^ s.regF aTrcCfg 4 0
  (upFrom 0 ((s.regN (aTrcWr h) + 2 ^ 32 - rd) % 2 ^ 32 / 64)).flatMap (fun j =>
    (s.readView .current (s.regF aTrcBase 63 12 * 4096 + h * size + (rd + 64 * j) % size) 64).1)

/-- The Klonen file that a tool makes of the rings: header, replay records, then each Hamper's trace stream behind its number and length
(R283). -/
def State.klonenFile (s : State) : List Byte :=
  s.klonenHeader ++ s.replayRecords ++ (upFrom 0 s.hampers).flatMap (fun h =>
    toBytes 2 h ++ toBytes 4 (s.traceStream h).length ++ s.traceStream h)

end Sys2Proof.Machine
end

