-- ==== Sys2Proof/Machine/Boot.lean ====
section
/-! DEFINITION. Resets, boot stages, the verification and recovery of images, and measurements (R15, R21, R25, R29-R34, R82). -/

namespace Sys2Proof.Machine

open Sys2Proof

/-- STAGE of `HST_BOOT` (R30). -/
def State.stage (s : State) : Nat := s.regF aHstBoot 3 0
def State.setStage (s : State) (n : Nat) : State :=
  let s1 := s.setRegF aHstBoot 3 0 n
  if n ≤ 4 then { s1 with link := { s1.link with reached := max s1.link.reached n } } else s1
def State.setBootErr (s : State) (n : Nat) : State := s.setRegF aHstBoot 23 16 n

/-- STAGE of a failure that no image slot can recover from, and of a wait for a host image (R30). -/
def stHalted : Nat := 14
def stRecovery : Nat := 15

/-- STAGE has reached FWX_UP, MEM_READY or READY (R27, R30, R35). -/
def State.fwxUp (s : State) : Bool := decide (1 ≤ s.link.reached)
def State.memReady (s : State) : Bool := decide (2 ≤ s.link.reached)
def State.bootDone (s : State) : Bool := decide (4 ≤ s.link.reached)

/-- Boot halts, and awaits no image: vector 0 signals it (R25, R30, R33). -/
def State.haltBoot (s : State) (err : Nat) : State := (((s.setStage stHalted).setBootErr err).setRegF aRecStat 10 8 0).msix 0

/-- The load range of a kind (R32). -/
def State.inLoadRange (s : State) (kind addr len : Nat) : Bool :=
  if kind ≤ 2 then decide (addr + len ≤ 2 ^ 26)
  else decide (addr + len ≤ s.memBytes) && (decide (kind = 3)
    || !(s.link.images.any (fun i => i.1 == 3 && decide (i.2.1 < addr + len) && decide (addr < i.2.1 + i.2.2.1))))

/-- The fields of an image header (R31). -/
def imKind (h : List Byte) : Nat := recN h 4 2
def imSlot (h : List Byte) : Nat := recN h 6 1
def imSvn (h : List Byte) : Nat := recN h 8 4
def imLen (h : List Byte) : Nat := recN h 12 4
def imAddr (h : List Byte) : Nat := recN h 16 8

/-- The header digest (R32). -/
def imDigest (h : List Byte) : List Byte := sha256Bytes (h.take 0x1C0)

/-- The checks of R32 that precede the body, in order: 0, or the error of the first that fails. -/
def State.headerErr (s : State) (kind : Nat) (h : List Byte) : Nat :=
  let slot := imSlot h
  let modulus := (h.drop 0x40).take 384
  if recN h 0 4 ≠ 0x49394C4B ∨ imKind h ≠ kind ∨ recN h 7 1 ≠ 0 ∨ recN h 0x1C 4 ≠ 0 ∨ recN h 0x340 0xC0 ≠ 0 ∨ 3 < slot
      ∨ imLen h % 64 ≠ 0 ∨ 2 ^ 26 < imLen h ∨ imLen h ≤ recN h 0x18 4 ∨ imAddr h % 4096 ≠ 0
      ∨ s.inLoadRange kind (imAddr h) (imLen h) = false then 1
  else if sha256 modulus ≠ Tab.get 0 s.link.keyHash slot then 3
  else if Tab.get false s.link.revoked slot then 4
  else if !pssVerify (ofBytes modulus) (imDigest h) (recN h 0x1C0 384) then 3
  else 0

/-- The SVN check (R32). -/
def State.svnErr (s : State) (kind : Nat) (h : List Byte) : Nat := if imSvn h < Tab.get 0 s.link.fuseSvn kind then 5 else 0

/-- Copies body bytes to their place in the load range of their kind (R32, R33). -/
def State.loadBody (s : State) (kind addr : Nat) (l : List Byte) : State :=
  if kind ≤ 2 then { s with link := { s.link with priv := Tab.setRun Config.blank s.link.priv (kind * 2 ^ 26 + addr) l } }
  else s.write addr l false

/-- An accepted image is measured, and runs (R32, R34). -/
def State.acceptImage (s : State) (kind : Nat) (h : List Byte) : State :=
  let s1 := s.measExtend kind (imDigest h)
  { s1 with link := { s1.link with
      images := (kind, imAddr h, imLen h, imSlot h) :: s1.link.images
      runningSvn := Tab.set 0 s1.link.runningSvn kind (imSvn h) } }

/-- One flash slot of a kind: the image runs, or the first failed check sets ERR (R32). -/
def State.tryFlash (s : State) (kind slot : Nat) : Bool × State :=
  let im := (Dict.find? s.link.flash (8 * slot + kind)).getD []
  let h := im.take 0x400
  let e := s.headerErr kind h
  if e ≠ 0 then (false, s.setBootErr e)
  else
    let body := (im.drop 0x400).take (imLen h)
    let s1 := s.loadBody kind (imAddr h) body
    if body.length ≠ imLen h ∨ sha256Bytes body ≠ (h.drop 0x20).take 32 then (false, s1.setBootErr 2)
    else if s1.svnErr kind h ≠ 0 then (false, s1.setBootErr 5)
    else (true, (s1.setRegF aHstBoot 8 8 slot).acceptImage kind h)

/-- Loads kinds in order from slot A or slot B; when both fail, boot awaits a host image of that kind (R30, R32, R33). -/
def State.loadKinds (s : State) (next : Nat) : List Nat → State
  | [] => s.setStage next
  | k :: r =>
    match s.tryFlash k 0 with
    | (true, s1) => State.loadKinds s1 next r
    | (false, s1) => match s1.tryFlash k 1 with
      | (true, s2) => State.loadKinds s2 next r
      | (false, s2) => ((s2.setStage stRecovery).setRegF aRecStat 10 8 k).msix 0

/-- A page for Holver's page tables, zeroed: where Holver chooses (R96; log 63). -/
def State.tablePage (s : State) : Nat × State :=
  let pa := (Config.holver 0 0 + s.link.tables) % (s.memBytes / 4096) * 4096
  (pa, { s.write pa (List.replicate 4096 0) false with link := { s.link with tables := s.link.tables + 1 } })

/-- At READY Holver makes the host ASID live, with a scratchpad window (R96; log 63). -/
def State.openHostAsid (s : State) : State :=
  let asid := Config.holver 1 s.tick % 2 ^ 16
  let (root, s1) := s.tablePage
  let s2 := s1.write (s1.regF aAsidBase 63 20 * 2 ^ 20 + 16 * asid) (toBytes 16 (2 ^ 63 + root / 4096)) false
  let i := ((upFrom 0 64).find? (fun i => !bit (s2.regN (aSwin i)) 16)).getD 63
  let s3 := s2.setRegN (aSwin i) (Config.holver 2 s.tick % 2 ^ 36 * 2 ^ 21 + 2 ^ 16 + asid)
  { s3 with link := { s3.link with hostAsid := asid } }

/-- The digest of the fuse block as it stands (R34). -/
def State.fuseDigest (s : State) : BitVec 256 := Config.fuseDigest s.link.keyHash s.link.revoked s.link.fuseSvn

/-- BOOT_STAGE_ADVANCE: boot leaves a stage, with the outcome of the self-test and of the HBM training (R30, R32, R34; log 61). -/
def execBootStageAdvance (selfTestOk trainOk : Bool) (s : State) : Out :=
  .next (match s.stage with
    | 0 =>
      if !selfTestOk then s.haltBoot 7
      else ((s.measExtend 0 (digestBytes Config.romDigest)).measExtend 0 (digestBytes s.fuseDigest)).loadKinds 1 [1]
    | 1 => if trainOk then s.setStage 2 else s.haltBoot 6
    | 2 => s.loadKinds 3 [2, 3, 4]
    | 3 =>
      let d := Config.configDigest (s.regN aModUnits) (s.regN aModMem) (s.regN aPwrMode) (s.link.images.map (fun i => i.2.2.2))
      (((s.measExtend 5 (digestBytes d)).setStage 4).openHostAsid).msix 0
    | _ => s)

/-- An attempt at recovery fails (R33). -/
def State.recoverFail (s : State) (err : Nat) : State :=
  ({ s with link := { s.link with recovery := none } } : State).setBootErr err |>.setRegF aRecStat 1 0 2

/-- The pieces of an image have all come (R33). -/
def State.recoverLast (s : State) (kind : Nat) (h body : List Byte) (total : Nat) : State :=
  if total ≠ 0x400 + imLen h then s.recoverFail 1
  else if sha256Bytes body ≠ (h.drop 0x20).take 32 then s.recoverFail 2
  else
    let s1 := (({ s with link := { s.link with recovery := none } } : State).setBootErr 0).acceptImage kind h
    let s2 := s1.setRegN aRecStat 1
    if kind = 1 then s2.setStage 1 else s2.loadKinds 3 ([2, 3, 4].filter (fun k => decide (kind < k)))

/-- One piece goes to its place; the last ends the attempt. -/
def State.recoverPiece (s : State) (r : Recovery) (l : List Byte) (last : Bool) : State :=
  let left := imLen r.header - r.body.length
  let s1 := s.loadBody r.kind (imAddr r.header + r.body.length) (l.take left)
  let r1 : Recovery := { r with bytes := r.bytes + l.length, body := r.body ++ l.take left, lastSeen := last }
  if last then s1.recoverLast r1.kind r1.header r1.body (0x400 + r1.bytes)
  else { s1 with link := { s1.link with recovery := some r1 } }

/-- The loader consumes the staged piece (R33). Outside RECOVERY it awaits none, and a write of GO does nothing (log 60). -/
def State.recoverGo (s : State) : State :=
  if s.stage ≠ stRecovery then s
  else
    let ctl := s.regN aRecCtl
    let off := bits ctl 23 0
    let len := bits ctl 55 32
    let piece := Tab.getRun Config.blank s.link.staging 0 len
    if len % 64 ≠ 0 ∨ len < 64 ∨ 2 ^ 23 < len then s.recoverFail 1
    else match s.link.recovery with
      | some r => if 64 * off ≠ 0x400 + r.bytes then s.recoverFail 1 else s.recoverPiece r piece (bit ctl 63)
      | none =>
        let kind := s.regF aRecStat 10 8
        let h := piece.take 0x400
        if off ≠ 0 ∨ len < 0x400 then s.recoverFail 1
        else
          let e := s.headerErr kind h
          if e ≠ 0 then s.recoverFail e
          else if s.svnErr kind h ≠ 0 then s.recoverFail 5
          else s.recoverPiece { kind := kind, header := h, bytes := 0, body := [], lastSeen := false } (piece.drop 0x400) (bit ctl 63)

/-- HST_RECOVER_GO: the write of 1 and the consumption of the piece, after which GO reads 0 again; the write is an input of the host (R33, R282; log 60). -/
def execHstRecoverGo (s : State) : Out := .next (s.logHost 1 0x10 (toBytes 4 1)).recoverGo

/-- An SPDM request over DOE that has not been answered. -/
def isDoe : Instr → Bool
  | .getVersion r => !r.mctp
  | .getCapabilities r => !r.mctp
  | .negotiateAlgorithms r => !r.mctp
  | .getDigests r => !r.mctp
  | .getCertificate r => !r.mctp
  | .challenge r => !r.mctp
  | .getMeasurements r => !r.mctp
  | .keyExchange r => !r.mctp
  | .finish r => !r.mctp
  | .heartbeat r => !r.mctp
  | .keyUpdate r => !r.mctp
  | .endSession r => !r.mctp
  | .spdmUnsupportedRequest r => !r.mctp
  | _ => false

/-- Every DOE exchange is abandoned (R30). -/
def State.abortDoe (s : State) : State := ({ s with agenda := s.agenda.filter (fun i => !isDoe i) } : State).send .doeAbort

/-- An input that comes from outside the device, and stands through a reset: what units of the device raise does not. -/
def fromOutside : Instr → Bool
  | .moduleReset => true
  | .flr => true
  | .bootStageAdvance _ _ => true
  | .ping _ => true
  | .mbxAlloc _ => true
  | .mbxFree _ => true
  | .queueOpen _ => true
  | .queueClose _ => true
  | .mbxUnknownKind _ => true
  | .getVersion _ => true
  | .getCapabilities _ => true
  | .negotiateAlgorithms _ => true
  | .getDigests _ => true
  | .getCertificate _ => true
  | .challenge _ => true
  | .getMeasurements _ => true
  | .keyExchange _ => true
  | .finish _ => true
  | .heartbeat _ => true
  | .keyUpdate _ => true
  | .endSession _ => true
  | .spdmUnsupportedRequest _ => true
  | .doeAbort => true
  | .hostBar2Read _ _ => true
  | .hostBar2Write _ _ => true
  | .hostAtsInvalidate _ => true
  | .remoteRead _ => true
  | .remoteWrite _ => true
  | .remoteAtomic _ => true
  | .backInvalidate _ _ => true
  | .portNarrow _ => true
  | .portDown _ => true
  | .rdmaWriteArrival _ => true
  | .rdmaReadArrival _ => true
  | .congestionNotification _ => true
  | .ualinkPortTraining _ _ => true
  | .configurationRequest _ => true
  | .ideKmRequest _ => true
  | .mailboxPoll => true
  | .healthRefresh _ => true
  | _ => false

/-- The slots of the health registers, which every reset keeps (R21, R29). -/
def healthSlots : List Nat :=
  aHltEol :: ((upFrom 0 8).map aHltTrend ++ (upFrom 0 38).map aHltMargin ++ (upFrom 0 192).map aHltDrift)

/-- The health registers read as they did before. -/
def State.keepHealth (s old : State) : State := healthSlots.foldl (fun s a => s.setReg a (old.reg a)) s

/-- What every reset leaves: the fuses, the flash, the health registers, what has been sent, the inputs to come and the model's own
counters (R21, R29, R71). -/
def State.resetKeep (s : State) : State :=
  let r := State.reset
  let kept : State := { r with
    tick := s.tick
    nextOp := s.nextOp
    outbox := s.outbox
    agenda := s.agenda.filter fromOutside
    link := { r.link with flash := s.link.flash, keyHash := s.link.keyHash, revoked := s.link.revoked, fuseSvn := s.link.fuseSvn } }
  kept.keepHealth s

/-- Drift readings follow their Hampers to their new logical numbers when pairs retire (R11, R21). -/
def State.renumberDrift (s : State) (old : State) : State :=
  let kept := (upFrom 0 old.hampers).filter (fun h => !old.power.retireCreels.contains (h / 2))
  (upFrom 0 192).foldl (fun s h => s.setRegN (aHltDrift h) (match kept[h]? with | some g => old.regN (aHltDrift g) | none => 0)) s

/-- Retirements that were scheduled take effect: the counts fall (R12, R15). UAL_LANES stays, because R12 names fuses and retirements alone, and
no rule retires a lane (log 98). -/
def State.retireNow (s : State) (old : State) : State :=
  let d0 := old.regF aModUnits 7 0
  let gone (die : Nat) : Nat := 2 * (old.power.retireCreels.filter (fun c => (if 2 * c < d0 then 0 else 1) == die)).length
  let ch := old.regF aModMem 8 0 - old.power.retireChannels.length
  let s1 := ((s.setRegN aModUnits (old.regN aModUnits % 2 ^ 31)).setRegF aModUnits 7 0 (d0 - gone 0)).setRegF aModUnits 15 8
    (old.regF aModUnits 15 8 - gone 1)
  let s2 : State := { s1 with power := { s1.power with
    stackChannels := (upFrom 0 8).foldl (fun t k => Tab.set 32 t k (old.stacksLeft.getD k 0)) [], history := old.power.history } }
  (s2.setRegN aModMem (2 * ch * 2 ^ 16 + ch)).renumberDrift old

/-- MODULE_RESET (R29; log 62). -/
def execModuleReset (s : State) : Out := .next (s.resetKeep.retireNow s)

/-- FLR: the link, the configuration space with the power state and the error bits, the BARs, the counts with their pending retirements and the
health registers stay; the keys of the link's encryption are gone, and an SPDM exchange in progress is aborted (R29, R30; log 62). -/
def execFlr (s : State) : Out :=
  .next (
    let r := s.resetKeep
    let s1 : State := { r with
      link := { r.link with
        bars := s.link.bars, barSize := s.link.barSize, msixEnable := s.link.msixEnable, atsEnable := s.link.atsEnable
        d3hot := s.link.d3hot, aer := s.link.aer }
      power := { r.power with
        retireCreels := s.power.retireCreels, retireChannels := s.power.retireChannels, crossed := s.power.crossed
        stackChannels := s.power.stackChannels, history := s.power.history } }
    let s2 := (s1.setReg aModUnits (s.reg aModUnits)).setReg aModMem (s.reg aModMem)
    s2.abortDoe)

/-- LOCKSTEP_MISMATCH: a first mismatch repeats the decision from its checkpoint; a second within 1 ms, or any during boot, halts the
firmware complex (R33, R82). -/
def execLockstepMismatch (withinMs : Bool) (s : State) : Out :=
  .next (
    let s1 := s.setRegF aFwxStat 31 16 (min (s.regF aFwxStat 31 16 + 1) 0xFFFF)
    if (withinMs && s.lastMismatch) || !s.bootDone then { s1.haltBoot 8 with halted := true, lastMismatch := true }
    else { s1 with lastMismatch := true })

end Sys2Proof.Machine
end

