-- ==== Sys2Proof/Machine/CopyInstr.lean ====
section
/-! DEFINITION. The block-transfer instructions (R408, R411-R416, R454). -/

namespace Sys2Proof.Machine

open Sys2Proof

/-- A refusal: its code in sd, Z, N, C and V clear, and no other effect (R408). -/
def refuse (s : State) (x : Issuer) (d : BitVec 6) (code : Nat) : Act :=
  .go ((s.setS x.id d.toNat (BitVec.ofNat 64 code) false).setScc x.id 0)

/-- An instruction that is not refused writes sd and sets Z alone (R408). -/
def accepted (s : State) (x : Issuer) (d : BitVec 6) (v : Nat) : Act :=
  .go ((s.setS x.id d.toNat (BitVec.ofNat 64 v) false).setScc x.id (sccOf true false false false))

/-- The refusals that `cp.push` and `cp.cancel` share (R412, R416). -/
def State.bteRefusal (s : State) (x : Issuer) (q : W64) : Option Nat :=
  if s.bteCount ≤ q.toNat then some 1
  else if s.bteAsid q.toNat ≠ x.asid then some 2
  else if s.bteState q.toNat ≠ 1 then some 3
  else none

/-- One access of a copy instruction at a judged place, in the path's transaction where one is open (R198): at once in this device, else by
a request that its reader awaits. A read gives its bytes, a write none; a compare-and-swap its old value. -/
def State.placeDo (s : State) (x : Issuer) (rd : Reader) (p : Place) (kind : AccessKind) (va n : Nat) (data : List Byte) : Got × State :=
  let view := (s.issuerAt x.id).elim x.view Issuer.view
  if p.isRemote then s.remoteDo rd p kind va n data (if kind = .atomic then some (.cas, 2) else none)
  else match kind with
    | .read => let (l, bad) := s.load view (some x.coil) p n; (.data l bad, s.afterLoad p n)
    | .write => (.data [] false, s.store view x.id.coil x.id.strand va p data false)
    | _ =>
      let (old, bad, _, s1) := s.rmw view x.id.coil x.id.strand va p n (fun v =>
        (if v = ofBytes (data.drop n) then ofBytes (data.take n) else v, 0))
      (.data (toBytes n old) bad, s1)

/-- Keeps what a local access gave, so that an instruction that goes on at a later turn does not perform it again. -/
def State.keepLocal (s : State) (rd : Reader) (kind : AccessKind) (va n : Nat) (l : List Byte) : State :=
  if (s.arrivedFor rd kind va n).isSome then s
  else { s with arrived := { reader := rd, kind := kind, va := va, size := n, bytes := l, poisoned := false, cause := none } :: s.arrived }

/-- Goes on with the data of an access, waits, traps on a cause, or traps on poison (R330, R408). -/
def afterGot (g : Got × State) (va : Nat) (body : State → List Byte → Act) : Act :=
  match g with
  | (.data l bad, s) => if bad then .trap s (scalarCause .poison va true) else body s l
  | (.later, s) => .wait s
  | (.cause c, s) => .trap s (scalarCause c va true)
  | (.fault _ _ _, s) => .wait s

/-- An 8-byte store of `cp.push`, which watchpoints do not match (R412). -/
def pushAcc (va : Nat) : Acc := { kind := .write, va := va % 2 ^ 64, size := 8, watch := false, l2 := true }

/-- The 64 bytes that `cp.push` writes for index `i`: the registers' with the KL9's own CCTX and LAP (R412). -/
def pushBytes (x : Issuer) (b : BitVec 6) (i log2 : Nat) : List Byte :=
  let l := (upFrom 0 8).flatMap (fun j => toBytes 8 (x.sAt (b.toNat + j)).toNat)
  l.take 48 ++ toBytes 4 (x.id.coil % 2 ^ 31 + x.half * 2 ^ 31) ++ (l.drop 52).take 11 ++ toBytes 1 ((i >>> log2) % 255 + 1)

/-- Writes the slot: its first 63 bytes, then its LAP (R412). -/
def pushSlot (s : State) (x : Issuer) (d : BitVec 6) (q i a : Nat) (l : List Byte) (ps : List Place) : Act :=
  let rd := Reader.path x.id 4
  let base := match Dict.find? s.bte q with | some b => b.accAtOpen | none => 0
  let done (s : State) : Act := accepted (s.forget rd) x d (base + i + 1)
  match ps with
  | p :: _ =>
    if p.isRemote then
      afterGot (s.remoteDo rd p .write a 63 (l.take 63) none) a (fun s1 _ =>
        let last : Place := match p with
          | .host pa => .host (pa + 63)
          | .peer b v off key => .peer b v (off + 63) key
          | p => p
        afterGot (s1.remoteDo rd last .write (a + 63) 1 (l.drop 63) none) a (fun s2 _ => done s2))
    else
      done (s.asOne (fun s => ((upFrom 0 8).zip ps).foldl (fun s e =>
        s.store ((s.issuerAt x.id).elim x.view Issuer.view) x.id.coil x.id.strand (a + 8 * e.1) e.2 ((l.drop (8 * e.1)).take 8) false) s))
  | [] => .wait s

/-- `cp.push` (R412, R413). -/
def execCpPush (d a b : BitVec 6) (s : State) : Out :=
  scalar s (.cpPush d a b) { reads := a.toNat :: upFrom b.toNat 8, writes := [d.toNat], courses := true, roles := 1 } (fun x =>
    let q := (x.s a).toNat
    let rd := Reader.path x.id 4
    let u := s.bteUhdr q
    let log2 := s.bteLog2 q
    let claimed := s.arrivedFor rd .atomic u 4
    match (if claimed.isSome then none else s.bteRefusal x (x.s a)) with
    | some c => refuse (s.forget rd) x d c
    | none =>
      if s.pendingWork x then .wait s
      else scalarAccess (rel := some 2) s x [pushAcc u] (fun s1 hdr =>
        match hdr with
        | [] => .wait s1
        | h :: _ =>
          let hw (off : Nat) : Place := match h with
            | .mem pa => .mem (pa + off) | .scr k => .scr (k + off) | .bar w o => .bar w (o + off) | .host pa => .host (pa + off)
            | .l1 n pa => .l1 n (pa + off)
            | .self o k => .self (o + off) k | .peer w v o k => .peer w v (o + off) k
          afterGot (match s1.arrivedFor rd .read u 4 with
            | some r => (match r.cause with | some c => (.cause c, s1) | none => (.data r.bytes r.poisoned, s1))
            | none => s1.placeDo x rd h .read u 4 []) u (fun s2 wr =>
          afterGot (if claimed.isSome then (.data [] false, s2) else s2.placeDo x rd (hw 4) .read (u + 4) 4 []) u (fun s3 mir =>
            let i := ofBytes wr
            let full := claimed.isNone && decide (2 ^ log2 ≤ (i + 2 ^ 32 - ofBytes mir) % 2 ^ 32)
            if full then .wait (s3.forget rd)
            else
              let slot := s.bteRing q + 64 * (i % 2 ^ log2)
              scalarAccess s3 x ((upFrom 0 8).map (fun j => pushAcc (slot + 8 * j))) (fun s4 ps =>
                let far := h.isRemote || ps.any Place.isRemote
                afterGot (match claimed with
                  | some r => (match r.cause with | some c => (.cause c, s4) | none => (.data r.bytes false, s4))
                  | none => s4.placeDo x rd h .atomic u 4 (toBytes 4 (i + 1) ++ toBytes 4 i)) u (fun s5 old =>
                  if ofBytes old ≠ i then .wait (s5.forget rd)
                  else
                    let s6 := if far then (s5.keepLocal rd .read u 4 wr).keepLocal rd .atomic u 4 old else s5
                    pushSlot s6 x d q i slot (pushBytes x b i log2) ps))))))

/-- Reads DONE, with an acquire load at a scope, then ERR, of a completion record (R414). -/
def cpRead (s : State) (x : Issuer) (va mask : W64) (sc : BitVec 3) (body : State → W64 → W64 → Act) : Act :=
  let rd := Reader.path x.id 3
  let a0 : Acc := { kind := .read, va := va.toNat, size := 8, align := 32, l2 := x.acts sc.toNat }
  let a1 : Acc := { kind := .read, va := (va + 8).toNat, size := 8 }
  scalarAccess s x [a0, a1] (fun s1 ps =>
    match ps with
    | p0 :: p1 :: _ =>
      if mask = 0 then body s1 0 0
      else
        let get (s : State) (p : Place) (va : Nat) : Got × State :=
          if p.isRemote then s.readRemote rd p va 8
          else (let (l, bad) := s.load x.view (some x.coil) p 8
                (.data l bad, s.afterLoad p 8))
        afterGot (get s1 p0 a0.va) a0.va (fun s2 l0 =>
        afterGot (get s2 p1 a1.va) a1.va (fun s3 l1 =>
          body ((s3.forget rd).acquireAt x (p0.scope sc.toNat)) (BitVec.ofNat 64 (ofBytes l0)) (BitVec.ofNat 64 (ofBytes l1))))
    | _ => .wait s1)

/-- What `cp.test`, and `cp.wait` at its end, write (R414). -/
def State.cpEnd (s : State) (id : PathId) (d : BitVec 6) (mask done err : W64) : State :=
  (s.setS id d.toNat (done &&& mask) false).setScc id (sccOf (done &&& mask == mask) false (err &&& mask != 0) false)

/-- `cp.test` (R414). -/
def execCpTest (d a b : BitVec 6) (sc : BitVec 3) (s : State) : Out :=
  scalar s (.cpTest d a b sc) { reads := [a.toNat, b.toNat], writes := [d.toNat], courses := true } (fun x =>
    cpRead s x (x.s a) (x.s b) sc (fun s1 done err => .go (s1.cpEnd x.id d (x.s b) done err)))

/-- `cp.wait` at its issue and at each reading: it goes on, or its path stays parked (R414). -/
def cpWaitAct (s : State) (x : Issuer) (va mask : W64) (d : BitVec 6) (sc : BitVec 3) : Act :=
  match cpRead s x va mask sc (fun s1 done err =>
    if done &&& mask = mask then .go (s1.cpEnd x.id d mask done err) else .park (s1.push [.cpWaitRecheck x.id]) (.cpWait va mask d sc)) with
  | .wait s1 =>
    if s1.remotes.any (fun r => r.2.reader == some (.path x.id 3)) then .park s1 (.cpWait va mask d sc) else .wait s1
  | act => act

/-- `cp.wait` (R414). -/
def execCpWait (d a b : BitVec 6) (sc : BitVec 3) (s : State) : Out :=
  scalar s (.cpWait d a b sc) { reads := [a.toNat, b.toNat], writes := [d.toNat], courses := true } (fun x =>
    cpWaitAct s x (x.s a) (x.s b) d sc)

/-- CP_WAIT_RECHECK: the completion record is read again (R414). -/
def execCpWaitRecheck (p : PathId) (s : State) : Out :=
  .next (match s.issuerAt p with
    | some x => (match x.path.park with
      | .cpWait va mask d sc =>
        if x.coil.issues then
          (match cpWaitAct s x va mask d sc with
          | .wait s1 => s1.push [.cpWaitRecheck p]
          | act => settleParked x act)
        else s.push [.cpWaitRecheck p]
      | _ => s)
    | none => s)

/-- `cp.cancel` (R416). -/
def execCpCancel (d a b : BitVec 6) (s : State) : Out :=
  scalar s (.cpCancel d a b) { reads := [a.toNat, b.toNat], writes := [d.toNat], courses := true, roles := 1 } (fun x =>
    let q := (x.s a).toNat
    let n := (x.s b).toNat
    let rd := Reader.path x.id 4
    let mark (s : State) : Act :=
      accepted ((s.updBte q (fun b => if b.cancels.contains n then b else { b with cancels := b.cancels ++ [n] })).forget rd) x d 1
    match s.bteRefusal x (x.s a) with
    | some c => refuse (s.forget rd) x d c
    | none =>
      if n ≤ s.bteAcc q then
        match s.packet? q n with
        | some p => if p.complete || decide (n ≤ s.bteTl q) then accepted (s.forget rd) x d 0 else mark s
        | none => accepted (s.forget rd) x d 0
      else
        let u := s.bteUhdr q
        scalarAccess s x [{ kind := .read, va := u, size := 8, watch := false, l2 := true }] (fun s1 ps =>
          match ps with
          | [] => .wait s1
          | h :: _ => afterGot (s1.placeDo x rd h .read u 4 []) u (fun s2 wr =>
            let claimed := (ofBytes wr + 2 ^ 32 - s2.bteRd q) % 2 ^ 32
            if claimed ≤ 2 ^ 31 ∧ n ≤ s2.bteAcc q + claimed then mark s2 else accepted (s2.forget rd) x d 0)))

end Sys2Proof.Machine
end

