-- ==== Sys2Proof/Machine/Cover.lean ====
section
/-! DEFINITION. The exact arithmetic of the coverage unit: segments, splits, crossings, cell sums and the resolve (R243-R250, R445). -/

namespace Sys2Proof.Machine

open Sys2Proof

/-- n / d rounded to nearest, ties to even, for d above 0. -/
def rneDiv (n : Int) (d : Nat) : Int :=
  let q := n / (d : Int)
  let r := n % (d : Int)
  if (d : Int) < 2 * r ∨ (2 * r = (d : Int) ∧ q % 2 = 1) then q + 1 else q

/-- Binomial coefficients of degree 1 to 3. -/
def binom (n : Nat) : List Int := if n = 1 then [1, 1] else if n = 2 then [1, 2, 1] else [1, 3, 3, 1]

/-- One coordinate of a curve at t = T / 2^k, exactly, times 2^(k × degree). -/
def bezier (p : List Int) (t k : Nat) : Int :=
  let n := p.length - 1
  let u : Int := 2 ^ k - (t : Int)
  (((upFrom 0 (n + 1)).zip (p.zip (binom n)))).foldl (fun a e => a + e.2.2 * e.2.1 * u ^ (n - e.1) * (t : Int) ^ e.1) 0

/-- One coordinate at t = T / 2^k rounded RNE to 20 fraction bits; control points have 12 (R246). -/
def bezier20 (p : List Int) (t k : Nat) : Int := rneDiv (bezier p t k * 256) (2 ^ (k * (p.length - 1)))

/-- FP64 arithmetic, RNE. -/
def f64 : Fmt := fmtOf 11
def f64Int (z : Int) : Nat := (f64.arith { rm := 0 } (intVal z)).1
def f64Neg (x : Nat) : Nat := if bit x 63 then x - 2 ^ 63 else x + 2 ^ 63
def f64IsZero (x : Nat) : Bool := (f64.decode x).isZero

/-- An FP64 parameter rounded RNE to 24 fraction bits, where it lies in (0, 1). -/
def param24 (x : Nat) : Option Nat :=
  match f64.decode x with
  | .num false m e =>
    let t := if 0 ≤ e + 24 then (m : Int) * 2 ^ (e + 24).toNat else rneDiv m (2 ^ (-(e + 24)).toNat)
    if FVal.lt false (f64.decode x) (.num false 1 0) then some t.toNat else none
  | _ => none

/-- Roots of the derivative of a cubic coordinate (R245, R445). -/
def cubicRoots (p : List Int) : List Nat :=
  let p0 := p.getD 0 0
  let p1 := p.getD 1 0
  let p2 := p.getD 2 0
  let p3 := p.getD 3 0
  let a := f64Int (3 * (p3 - 3 * p2 + 3 * p1 - p0))
  let b := f64Int (6 * (p0 - 2 * p1 + p2))
  let c := f64Int (3 * (p1 - p0))
  let disc := (f64.sub 0 (f64.mul 0 b b).1 (f64.mul 0 (f64.mul 0 (f64Int 4) a).1 c).1).1
  if (f64.decode disc).neg && !f64IsZero disc then []
  else
    let r := (f64.sqrt 0 disc).1
    let sum := (f64.add 0 b (if bit b 63 && !f64IsZero b then f64Neg r else r)).1
    let q := f64Neg (f64.div 0 sum (f64Int 2)).1
    (if f64IsZero a then [] else (param24 (f64.div 0 q a).1).toList) ++ (if f64IsZero q then [] else (param24 (f64.div 0 c q).1).toList)

/-- The root of the derivative of a quadratic coordinate (R245). -/
def quadRoots (p : List Int) : List Nat :=
  let p0 := p.getD 0 0
  let p1 := p.getD 1 0
  let p2 := p.getD 2 0
  let d := p0 - 2 * p1 + p2
  let n := (p0 - p1) * 2 ^ 24
  if d = 0 then []
  else
    let t := if d < 0 then rneDiv (-n) d.natAbs else rneDiv n d.natAbs
    if 0 < t then [t.toNat] else []

/-- Split parameters of one coordinate, strictly within (0, 1), with 24 fraction bits. -/
def splitParams (p : List Int) : List Nat :=
  (if p.length = 3 then quadRoots p else if p.length = 4 then cubicRoots p else []).filter (fun t => decide (0 < t) && decide (t < 2 ^ 24))

/-- Puts a number into an ascending list without repeats. -/
def insertNat (x : Nat) : List Nat → List Nat
  | [] => [x]
  | a :: r => if x < a then x :: a :: r else if x = a then a :: r else a :: insertNat x r

def sortNat (l : List Nat) : List Nat := l.foldl (fun a x => insertNat x a) []

/-- The bisection of R246 for the grid line at `g`; `up` says that f(lo) lies above it. -/
def bisect (p : List Int) (g : Int) (up : Bool) : Nat → Nat → Nat → Nat
  | 0, _, hi => hi
  | n + 1, lo, hi =>
    let m := (lo + hi) / 2
    let d := bezier p m 24 - g
    if d ≠ 0 ∧ decide (0 < d) = up then bisect p g up n m hi else bisect p g up n lo m

/-- Crossings of a monotone piece with grid lines 0 to `lim`: parameter and line. Other lines change no cell (R246, R247). -/
def crossings (p : List Int) (ta tb : Nat) (lim : Nat) : List (Nat × Int) :=
  let unit : Int := 4096 * 2 ^ (24 * (p.length - 1))
  let fa := bezier p ta 24
  let fb := bezier p tb 24
  let lo := min fa fb
  let hi := max fa fb
  ((upFrom 0 (lim + 1)).filter (fun (l : Nat) => decide (lo < (l : Int) * unit) && decide ((l : Int) * unit < hi))).map (fun (l : Nat) =>
    (bisect p ((l : Int) * unit) (decide ((l : Int) * unit < fa)) 24 ta tb, (l : Int)))

/-- `add_piece` of R247: the cells that it adds to, with 20 fraction bits. -/
def addPiece (s e : Int × Int) (m : Option (Int × Int)) (w h : Nat) : List (Nat × Nat × Int) :=
  let dy := e.2 - s.2
  let cy := min s.2 e.2 / 2 ^ 20
  let cx := min s.1 e.1 / 2 ^ 20
  if dy = 0 ∨ cy < 0 ∨ (h : Int) ≤ cy ∨ (w : Int) ≤ cx then []
  else if cx < 0 then [(0, cy.toNat, dy)]
  else
    let six := 6 * dy * ((cx + 1) * 2 ^ 20) - 3 * dy * (s.1 + e.1)
      - (match m with
        | some m => 4 * ((m.1 - s.1) * (e.2 - s.2) - (m.2 - s.2) * (e.1 - s.1))
        | none => 0)
    let a := rneDiv six (6 * 2 ^ 20)
    (cx.toNat, cy.toNat, a) :: (if cx + 1 < (w : Int) then [(cx.toNat + 1, cy.toNat, dy - a)] else [])

/-- Every control point lies on one line (R244). -/
def collinear (p : List (Int × Int)) : Bool :=
  match p with
  | [] => true
  | b :: _ => match p.find? (fun q => q != b) with
    | none => true
    | some d => p.all (fun q => (q.1 - b.1) * (d.2 - b.2) == (q.2 - b.2) * (d.1 - b.1))

/-- The points of a monotone piece at which it is cut, with their parameters (R246). -/
def piecePoints (xs ys : List Int) (w h : Nat) (point : Nat → Int × Int) (ta tb : Nat) : List (Nat × Int × Int) :=
  let cx := crossings xs ta tb w
  let cy := crossings ys ta tb h
  let mid := (sortNat (cx.map Prod.fst ++ cy.map Prod.fst)).map (fun t =>
    (t, (match cx.find? (fun c => c.1 == t) with | some c => c.2 * 2 ^ 20 | none => bezier20 xs t 24),
        (match cy.find? (fun c => c.1 == t) with | some c => c.2 * 2 ^ 20 | none => bezier20 ys t 24)))
  (ta, point ta) :: mid ++ [(tb, point tb)]

/-- What a segment in the buffer's frame adds to its cells (R244-R247). -/
def segmentCells (pts : List (Int × Int)) (w h : Nat) : List (Nat × Nat × Int) :=
  let pts := if collinear pts then [pts.headD (0, 0), pts.getLastD (0, 0)] else pts
  let xs := pts.map Prod.fst
  let ys := pts.map Prod.snd
  let curve := decide (2 < pts.length)
  let cuts := if curve then sortNat (splitParams xs ++ splitParams ys) else []
  let point (t : Nat) : Int × Int :=
    if t = 0 then (xs.headD 0 * 256, ys.headD 0 * 256)
    else if t = 2 ^ 24 then (xs.getLastD 0 * 256, ys.getLastD 0 * 256)
    else (bezier20 xs t 24, bezier20 ys t 24)
  let bounds := (0 :: cuts).zip (cuts ++ [2 ^ 24])
  bounds.flatMap (fun b =>
    let l := piecePoints xs ys w h point b.1 b.2
    (l.zip (l.drop 1)).flatMap (fun e =>
      let m := if curve then some (bezier20 xs (e.1.1 + e.2.1) 25, bezier20 ys (e.1.1 + e.2.1) 25) else none
      addPiece e.1.2 e.2.2 m w h))

/-- A control point is in range (R244). -/
def pointOk (p : Int × Int) : Bool :=
  let ok (z : Int) : Bool := decide (-(2 ^ 30) ≤ z) && decide (z < 2 ^ 30)
  ok p.1 && ok p.2

/-- An FP32 coordinate converted RNE to 12 fraction bits; none when it is not finite (R244). -/
def coord32 (x : Nat) : Option Int :=
  match (fmtOf 10).decode x with
  | .num s m e =>
    let k := e + 12
    let v : Int := if 0 ≤ k then (m : Int) * 2 ^ k.toNat else rneDiv m (2 ^ (-k).toNat)
    some (if s then -v else v)
  | _ => none

/-- The control points that registers hold, each x in [31:0] and y in [63:32]; none for a segment that is rejected (R244, R424). -/
def segmentPoints (ty : Nat) (l : List W64) : Option (List (Int × Int)) :=
  let one (w : W64) : Option (Int × Int) :=
    if ty = 6 then some (sval 32 w.toNat, sval 32 (w.toNat / 2 ^ 32))
    else match coord32 (w.toNat % 2 ^ 32), coord32 (w.toNat / 2 ^ 32) with
      | some x, some y => some (x, y)
      | _, _ => none
  let pts := l.filterMap one
  if pts.length = l.length && pts.all pointOk then some pts else none

/-- The resolve of one row (R249): prefix sums modulo 2^32, then coverage with 20 fraction bits. -/
def resolveRow (rule : Nat) : Nat → List W32 → List W32
  | _, [] => []
  | acc, c :: r =>
    let a := (acc + c.toNat) % 2 ^ 32
    let w := sval 32 a
    let one : Int := 2 ^ 20
    let k : Int := match rule with
      | 0 => min one (w.natAbs : Int)
      | 1 => one - ((one - ((w.natAbs % 2 ^ 21 : Nat) : Int)).natAbs : Int)
      | 2 => min one (max 0 w)
      | _ => min one (max 0 (-w))
    BitVec.ofInt 32 k :: resolveRow rule a r

end Sys2Proof.Machine
end

