-- ==== Sys2Proof/Machine/Geom.lean ====
section
/-! DEFINITION. The arithmetic of the traversal unit: boxes, triangles, beams, builds and refits (R233-R242, R421). -/

namespace Sys2Proof.Machine

open Sys2Proof

/-- FP32. -/
def f32 : Fmt := fmtOf 10
def f32Neg (x : Nat) : Nat := if bit x 31 then x - 2 ^ 31 else x + 2 ^ 31
def f32Val (x : Nat) : FVal := f32.decode x

/-- A field of a node. -/
def nodeN (l : List Byte) (off n : Nat) : Nat := ofBytes ((l.drop off).take n)

/-- `x <= y` of values that are no NaN. -/
def FVal.le (x y : FVal) : Bool := !(FVal.lt false y x)

/-- Child `i` of a box node (R233). -/
def childType (l : List Byte) (i : Nat) : Nat := bits (nodeN l (24 + 4 * i) 4) 31 30
def childAddr (l : List Byte) (i : Nat) : Nat := (nodeN l 16 8 + 64 * bits (nodeN l (24 + 4 * i) 4) 29 0) % 2 ^ 64

/-- A box node has a reserved bit set (R233). -/
def boxBad (l : List Byte) : Bool := nodeN l 15 1 != 0 || nodeN l 84 44 != 0 || nodeN l 16 8 % 64 != 0

/-- A leaf has a reserved bit set. -/
def leafBad (l : List Byte) : Bool := bits (nodeN l 43 1) 7 1 != 0 || nodeN l 44 20 != 0

/-- A bound of child `i` on an axis, exactly: ORIGIN + q × 2^(e - 127) (R233). -/
def boxBound (l : List Byte) (i axis : Nat) (hi : Bool) : FVal :=
  let q := nodeN l (48 + 6 * i + 2 * axis + b2n hi) 1
  (addVal false (f32Val (nodeN l (4 * axis) 4)) (.num false q ((nodeN l (12 + axis) 1 : Int) - 127))).1

/-- A bound as the box test sees it: rounded down or up to FP32. -/
def boxSide (l : List Byte) (i axis : Nat) (hi : Bool) : Nat := (f32.arith { rm := if hi then 3 else 2 } (boxBound l i axis hi)).1

/-- A ray: O, D, tmin, tmax and its flags (R235). -/
structure Ray where
  o : List Nat
  d : List Nat
  tmin : Nat
  tmax : Nat
  flags : Nat
  deriving DecidableEq, Repr

def Ray.oA (r : Ray) (a : Nat) : Nat := r.o.getD a 0
def Ray.dA (r : Ray) (a : Nat) : Nat := r.d.getD a 0

/-- A ray that returns a miss by itself (R235). -/
def Ray.void (r : Ray) : Bool :=
  (r.o ++ r.d ++ [r.tmin, r.tmax]).any (fun x => (f32Val x).isNan) || r.d.all (fun x => (f32Val x).isZero)

/-- A product of the box test rounded one way; 0 × ∞ counts as -∞ below and +∞ above (R235). -/
def slab (x o inv : Nat) (up : Bool) : Nat :=
  let p := (mulVal (addVal false (f32Val x) (f32Val (f32Neg o))).1 (f32Val inv)).1
  if p.isNan then f32.infinity (!up) else (f32.arith { rm := if up then 3 else 2 } p).1

/-- The interval of a box on an axis (R235). -/
def axisSpan (r : Ray) (l : List Byte) (i a : Nat) : FVal × FVal :=
  let inv := (f32.div 0 0x3F800000 (r.dA a)).1
  let lo := boxSide l i a false
  let hi := boxSide l i a true
  let n := slab lo (r.oA a) inv false
  let f := slab hi (r.oA a) inv true
  if FVal.lt false (f32Val f) (f32Val n) then (f32Val (slab hi (r.oA a) inv false), f32Val (slab lo (r.oA a) inv true))
  else (f32Val n, f32Val f)

def maxVal (x y : FVal) : FVal := if FVal.lt false x y then y else x
def minVal (x y : FVal) : FVal := if FVal.lt false y x then y else x

/-- `box_hit` of R235 for child `i`. -/
def boxHit (r : Ray) (l : List Byte) (i : Nat) : Bool :=
  let x := axisSpan r l i 0
  let y := axisSpan r l i 1
  let z := axisSpan r l i 2
  let tn := maxVal (maxVal x.1 y.1) z.1
  let tf := minVal (minVal x.2 y.2) z.2
  tn.le tf && tn.le (f32Val r.tmax) && (f32Val r.tmin).le tf

/-- A hit: T, identifiers, the weights of V2 and V1, front (R237). -/
structure Hit where
  t : Nat
  prim : Nat
  geom : Nat
  bv : Nat
  bu : Nat
  front : Bool
  deriving DecidableEq, Repr

/-- The difference of two products of FP32 values, rounded once to FP64 (R236). -/
def cross64 (a b c d : Nat) : Nat :=
  (f64.arith { rm := 0 } (addVal false (mulVal (f32Val a) (f32Val b)).1 (mulVal (f32Val c) (f32Val d)).1.negate).1).1

/-- An FP32 value as FP64. -/
def to64 (x : Nat) : Nat := (f64.arith { rm := 0 } (f32Val x)).1

/-- round(v / d × 65,535) RNE of two FP64 values; `free` where the quotient is no number (R237; log 27). -/
def weight (free v d : Nat) : Nat :=
  match f64.decode v, f64.decode d with
  | .num _ m e, .num _ m' e' =>
    if m' = 0 then 0
    else
      let k := e - e'
      let n := m * 65535
      min 65535 (if 0 ≤ k then rneDiv (n * 2 ^ k.toNat : Nat) m' else rneDiv n (m' * 2 ^ (-k).toNat)).toNat
  | .num _ _ _, .inf _ => 0
  | _, _ => free % 65536

/-- Vertex `i` of a leaf, and its components. -/
def leafV (l : List Byte) (i a : Nat) : Nat := nodeN l (12 * i + 4 * a) 4

/-- `tri_hit` of R236 on a leaf. -/
def triHit (tick : Nat) (r : Ray) (l : List Byte) : Option Hit :=
  let mag (a : Nat) : FVal := f32Val (r.dA a % 2 ^ 31)
  let kz := if (mag 1).le (mag 0) && (mag 2).le (mag 0) then 0 else if (mag 2).le (mag 1) then 1 else 2
  let k1 := (kz + 1) % 3
  let k2 := (k1 + 1) % 3
  let flip := (f32Val (r.dA kz)).neg
  let kx := if flip then k2 else k1
  let ky := if flip then k1 else k2
  let sx := (f32.div 0 (r.dA kx) (r.dA kz)).1
  let sy := (f32.div 0 (r.dA ky) (r.dA kz)).1
  let sz := (f32.div 0 0x3F800000 (r.dA kz)).1
  let rel (i a : Nat) : Nat := (f32.sub 0 (leafV l i a) (r.oA a)).1
  let px (i : Nat) : Nat := (f32.fma 0 (f32Neg sx) (rel i kz) (rel i kx)).1
  let py (i : Nat) : Nat := (f32.fma 0 (f32Neg sy) (rel i kz) (rel i ky)).1
  let u := cross64 (px 2) (py 1) (py 2) (px 1)
  let v := cross64 (px 0) (py 2) (py 0) (px 2)
  let w := cross64 (px 1) (py 0) (py 1) (px 0)
  let zero : FVal := .num false 0 0
  let below (x : Nat) : Bool := FVal.lt false (f64.decode x) zero
  let above (x : Nat) : Bool := FVal.lt false zero (f64.decode x)
  let det := (f64.arith { rm := 0 } (addVal false (addVal false (f64.decode u) (f64.decode v)).1 (f64.decode w)).1).1
  if ([u, v, w].any below && [u, v, w].any above) || f64IsZero det then none
  else
    let m (x : Nat) (i : Nat) : Nat := (f64.mul 0 x (to64 (rel i kz))).1
    let num := (f64.mul 0 (to64 sz) (f64.add 0 (f64.add 0 (m u 0) (m v 1)).1 (m w 2)).1).1
    let t := (f32.arith { rm := 0 } (f64.decode (f64.div 0 num det).1)).1
    let front := above det
    let cull := !bit (nodeN l 43 1) 0 && ((front && bit r.flags 2) || (!front && bit r.flags 1))
    if FVal.lt false (f32Val t) (f32Val r.tmin) || FVal.lt false (f32Val r.tmax) (f32Val t) || cull then none
    else some { t := t, prim := nodeN l 36 4, geom := nodeN l 40 3, bv := weight (Config.spare tick 4).toNat w det, bu := weight (Config.spare tick 5).toNat v det, front := front }

/-- The better of two hits of a closest query (R237). -/
def Hit.better (a b : Hit) : Hit :=
  let x := f32Val a.t
  let y := f32Val b.t
  if FVal.lt false x y then a else if FVal.lt false y x then b
  else if a.prim < b.prim ∨ (a.prim = b.prim ∧ a.geom ≤ b.geom) then a else b

/-- The result words of a hit, of a miss and of an error (R237; log 27 for the fields that the spec leaves open). -/
def Hit.words (h : Hit) : W64 × W64 :=
  (BitVec.ofNat 64 (h.prim * 2 ^ 32 + h.t),
   BitVec.ofNat 64 ((if h.front then 1 else 2) * 2 ^ 56 + h.geom * 2 ^ 32 + h.bv * 2 ^ 16 + h.bu))
def missWords (tick : Nat) : W64 × W64 := (0xFFFFFFFF7F800000, BitVec.ofNat 64 ((Config.spare tick 1).toNat % 2 ^ 32))
def errorWords (tick : Nat) : W64 × W64 := (Config.spare tick 0, BitVec.ofNat 64 (3 * 2 ^ 56 + (Config.spare tick 1).toNat % 2 ^ 56))

/-- A finite FP32 value times 2^149. -/
def f32Fix (x : Nat) : Option Int :=
  match f32Val x with
  | .num s m e => some (if s then -((m * 2 ^ (e + 149).toNat : Nat) : Int) else ((m * 2 ^ (e + 149).toNat : Nat) : Int))
  | _ => none

/-- A vector of exact components, in units of 2^-149. -/
abbrev V3 := Int × Int × Int

def V3.sub (a b : V3) : V3 := (a.1 - b.1, a.2.1 - b.2.1, a.2.2 - b.2.2)
def V3.cross (a b : V3) : V3 := (a.2.1 * b.2.2 - a.2.2 * b.2.1, a.2.2 * b.1 - a.1 * b.2.2, a.1 * b.2.1 - a.2.1 * b.1)
def V3.dot (a b : V3) : Int := a.1 * b.1 + a.2.1 * b.2.1 + a.2.2 * b.2.2
def V3.det (a b c : V3) : Int := V3.dot a (V3.cross b c)

/-- The vector whose three FP32 components stand at an offset. -/
def vecAt (l : List Byte) (off : Nat) : Option V3 :=
  match f32Fix (nodeN l off 4), f32Fix (nodeN l (off + 4) 4), f32Fix (nodeN l (off + 8) 4) with
  | some x, some y, some z => some (x, y, z)
  | _, _, _ => none

/-- A beam: O, D00, DX, DY, TMIN and TMAX (R240). -/
structure Beam where
  o : V3
  d0 : V3
  dx : V3
  dy : V3
  tmin : FVal
  tmax : FVal
  deriving DecidableEq, Repr

/-- The determinant of the beam's directions. -/
def Beam.den (b : Beam) : Int := V3.det b.d0 b.dx b.dy

/-- A point in beam coordinates (t, t × sx, t × sy), each times |den| (R241). -/
def Beam.coordsOf (b : Beam) (v : V3) : Int × Int × Int :=
  let r := V3.sub v b.o
  let s : Int := if b.den < 0 then -1 else 1
  (s * V3.det r b.dx b.dy, s * V3.det b.d0 r b.dy, s * V3.det b.d0 b.dx r)

/-- A value n / d against a bound. -/
def ratLe (n d : Int) (v : FVal) : Bool :=
  match v with
  | .inf s => !s
  | .nan _ => false
  | .num s m e =>
    let z : Int := if s then -(m : Int) else m
    if 0 ≤ e then decide (n ≤ d * (z * 2 ^ e.toNat)) else decide (n * 2 ^ (-e).toNat ≤ d * z)
def ratGe (n d : Int) (v : FVal) : Bool :=
  match v with
  | .inf s => s
  | .nan _ => false
  | .num s m e =>
    let z : Int := if s then -(m : Int) else m
    if 0 ≤ e then decide (d * (z * 2 ^ e.toNat) ≤ n) else decide (d * z ≤ n * 2 ^ (-e).toNat)

/-- A region of a tile: its first pixel and its side. -/
structure Region where
  x : Nat
  y : Nat
  n : Nat
  deriving DecidableEq, Repr

/-- Every point of a list lies beyond one plane of a region's frustum: the points, each times |den| (R241). -/
def Beam.outside (b : Beam) (r : Region) (pts : List (Int × Int × Int)) : Bool :=
  let d : Int := b.den.natAbs
  pts.all (fun p => !ratGe p.1 d b.tmin) || pts.all (fun p => !ratLe p.1 d b.tmax)
    || pts.all (fun p => decide (p.2.1 < (r.x : Int) * p.1)) || pts.all (fun p => decide (((r.x + r.n : Nat) : Int) * p.1 < p.2.1))
    || pts.all (fun p => decide (p.2.2 < (r.y : Int) * p.1)) || pts.all (fun p => decide (((r.y + r.n : Nat) : Int) * p.1 < p.2.2))

/-- The corners of child `i` in beam coordinates; none where a bound is not finite. -/
def Beam.corners (b : Beam) (l : List Byte) (i : Nat) : Option (List (Int × Int × Int)) :=
  let side (a : Nat) (hi : Bool) : Option Int := f32Fix (boxSide l i a hi)
  match side 0 false, side 0 true, side 1 false, side 1 true, side 2 false, side 2 true with
  | some x0, some x1, some y0, some y1, some z0, some z1 =>
    some ([x0, x1].flatMap (fun x => [y0, y1].flatMap (fun y => [z0, z1].map (fun z => b.coordsOf (x, y, z)))))
  | _, _, _, _, _, _ => none

/-- The box test of a region's frustum for child `i`. -/
def Beam.boxHit (b : Beam) (r : Region) (l : List Byte) (i : Nat) : Bool :=
  match b.corners l i with
  | some p => !b.outside r p
  | none => true

/-- A leaf as a beam sees it: its identifiers, its vertices, and their beam coordinates times |den|. -/
structure BeamLeaf where
  prim : Nat
  geom : Nat
  verts : List V3
  pts : List (Int × Int × Int)
  deriving DecidableEq, Repr

def Beam.leaf (b : Beam) (l : List Byte) : Option BeamLeaf :=
  match vecAt l 0, vecAt l 12, vecAt l 24 with
  | some v0, some v1, some v2 =>
    some { prim := nodeN l 36 4, geom := nodeN l 40 3, verts := [v0, v1, v2], pts := [v0, v1, v2].map b.coordsOf }
  | _, _, _ => none

/-- sx and sy of a vertex, rounded to 12 fraction bits; free values where t is 0 (R241; log 27). -/
def projected (tick : Nat) (p : Int × Int × Int) : Int × Int :=
  if p.1 = 0 then (sval 32 (Config.spare tick 2).toNat, sval 32 (Config.spare tick 3).toNat)
  else
    let s : Int := if p.1 < 0 then -1 else 1
    (rneDiv (s * p.2.1 * 4096) p.1.natAbs, rneDiv (s * p.2.2 * 4096) p.1.natAbs)

/-- Smallest and largest of a list. -/
def minOf (l : List Int) : Int := l.tail.foldl min (l.headD 0)
def maxOf (l : List Int) : Int := l.tail.foldl max (l.headD 0)

/-- Bounds of a leaf's projection cut to a region: x from, to, y from, to, in 2^-12 pixels. -/
def BeamLeaf.bounds (c : BeamLeaf) (tick : Nat) (r : Region) : Int × Int × Int × Int :=
  let q := c.pts.map (projected tick)
  (max (minOf (q.map Prod.fst)) (4096 * r.x), min (maxOf (q.map Prod.fst)) (4096 * (r.x + r.n)),
   max (minOf (q.map Prod.snd)) (4096 * r.y), min (maxOf (q.map Prod.snd)) (4096 * (r.y + r.n)))

/-- zmin and zmax times |den|. -/
def BeamLeaf.zs (c : BeamLeaf) : Int × Int := (minOf (c.pts.map Prod.fst), maxOf (c.pts.map Prod.fst))

/-- The region's frustum certainly reaches the leaf: its projection meets the region within [TMIN, TMAX], or cannot be formed. -/
def BeamLeaf.mustReach (c : BeamLeaf) (b : Beam) (tick : Nat) (r : Region) : Bool :=
  let d : Int := b.den.natAbs
  let q := c.bounds tick r
  decide (c.zs.1 ≤ 0) || (decide (q.1 ≤ q.2.1) && decide (q.2.2.1 ≤ q.2.2.2) && ratLe c.zs.1 d b.tmax && ratGe c.zs.2 d b.tmin)

/-- Two leaves conflict in a region (R241). -/
def leavesConflict (tick : Nat) (r : Region) (a b : BeamLeaf) : Bool :=
  let p := a.bounds tick r
  let q := b.bounds tick r
  decide (max p.1 q.1 ≤ min p.2.1 q.2.1) && decide (max p.2.2.1 q.2.2.1 ≤ min p.2.2.2 q.2.2.2)
    && decide (max a.zs.1 b.zs.1 ≤ min a.zs.2 b.zs.2)

/-- Some pair of a list conflicts. -/
def anyConflict (tick : Nat) (r : Region) : List BeamLeaf → Bool
  | [] => false
  | a :: l => l.any (leavesConflict tick r a) || anyConflict tick r l

/-- Coverage of a leaf's projection in each pixel of the tile, by three line segments under the non-zero rule (R241). -/
def BeamLeaf.coverage (c : BeamLeaf) (tick : Nat) : List (List W32) :=
  let q := c.pts.map (projected tick)
  let cells := (q.zip (q.drop 1 ++ q.take 1)).flatMap (fun e => if pointOk e.1 && pointOk e.2 then segmentCells [e.1, e.2] 16 16 else [])
  (upFrom 0 16).map (fun y => resolveRow 0 0 ((upFrom 0 16).map (fun x =>
    BitVec.ofInt 32 ((cells.filter (fun k => k.1 == x && k.2.1 == y)).foldl (fun a k => a + k.2.2) 0))))

/-- The t, n / d, at which the ray through a pixel's centre meets a leaf's plane: n and d, d above 0; none for a ray in the plane. -/
def Beam.planeT (b : Beam) (c : BeamLeaf) (x y : Nat) : Option (Int × Int) :=
  let v (i : Nat) : V3 := c.verts.getD i (0, 0, 0)
  let n := V3.cross (V3.sub (v 1) (v 0)) (V3.sub (v 2) (v 0))
  let comp (f : V3 → Int) : Int := 2 * f b.d0 + (2 * x + 1 : Nat) * f b.dx + (2 * y + 1 : Nat) * f b.dy
  let d := V3.dot n (comp (·.1), comp (·.2.1), comp (·.2.2))
  let m := 2 * V3.dot n (V3.sub (v 0) b.o)
  if d = 0 then none else if d < 0 then some (-m, -d) else some (m, d)

/-- Inserts by a strict order. -/
def insertBy {α : Type} (lt : α → α → Bool) (x : α) : List α → List α
  | [] => [x]
  | a :: r => if lt x a then x :: a :: r else a :: insertBy lt x r
def sortBy {α : Type} (lt : α → α → Bool) (l : List α) : List α := l.foldl (fun a x => insertBy lt x a) []

/-- Ties by PRIM_ID, then GEOM_ID. -/
def idLt (a b : BeamLeaf) : Bool := decide (a.prim < b.prim) || (a.prim == b.prim && decide (a.geom < b.geom))

/-- The members of C in the order of their region (R241). -/
def Beam.ordered (b : Beam) (r : Region) (c : List BeamLeaf) : List BeamLeaf :=
  if r.n = 1 then
    let l := c.filterMap (fun m => (b.planeT m r.x r.y).bind (fun t =>
      if 0 < t.1 ∧ ratGe t.1 t.2 b.tmin = true ∧ ratLe t.1 t.2 b.tmax = true then some (m, t) else none))
    (sortBy (fun x y => decide (x.2.1 * y.2.2 < y.2.1 * x.2.2) || (x.2.1 * y.2.2 == y.2.1 * x.2.2 && idLt x.1 y.1)) l).map Prod.fst
  else sortBy (fun x y => decide (x.zs.1 < y.zs.1) || (x.zs.1 == y.zs.1 && idLt x y)) c

/-- The 32-byte record of a pixel from the pairs found (R242). -/
def recordBytes (pairs : List (Nat × Nat)) (ovf : Bool) : List Byte :=
  (upFrom 0 4).flatMap (fun i =>
    let p := pairs.getD i (0xFFFFFFFF, 0)
    toBytes 8 (p.1 + p.2 * 2 ^ 32 + (if i = 3 ∧ ovf = true then 2 ^ 63 else 0)))

/-- Residual of a pixel over the ordered members: pairs and OVF (R241). -/
def pixelPairs : List (Nat × Nat) → Nat → List (Nat × Nat) → Bool → List (Nat × Nat) × Bool
  | [], _, acc, ovf => (acc, ovf)
  | (prim, a) :: r, residual, acc, ovf =>
    let k := min a residual
    if k = 0 then pixelPairs r residual acc ovf
    else if acc.length < 4 then pixelPairs r (residual - k) (acc ++ [(prim, k)]) ovf
    else pixelPairs r residual acc true

/-- The records of a region's pixels, by pixel number 16 × y + x. -/
def regionRecords (tick : Nat) (r : Region) (c : List BeamLeaf) : List (Nat × List Byte) :=
  let cov := c.map (fun m => (m.prim, m.coverage tick))
  (upFrom r.y r.n).flatMap (fun y => (upFrom r.x r.n).map (fun x =>
    let (p, o) := pixelPairs (cov.map (fun m => (m.1, ((m.2.getD y []).getD x 0).toNat))) (2 ^ 20) [] false
    (16 * y + x, recordBytes p o)))

/-- A finite triangle that a build places: its index and its nine words (R238). -/
structure BuildTri where
  index : Nat
  words : List Nat
  deriving DecidableEq, Repr

def BuildTri.finite (t : BuildTri) : Bool := t.words.all (fun w => (f32Fix w).isSome)

/-- Groups of a list by the numbers of their members. -/
def groupsOf {α : Type} : List Nat → List α → List (List α)
  | [], l => if l.isEmpty then [] else [l]
  | k :: r, l => if l.isEmpty then [] else l.take k :: groupsOf r (l.drop k)

/-- A hierarchy: a leaf, or a box node of at most six children; each box node has its own number. -/
inductive Tree where
  | leaf (t : BuildTri)
  | box (id : Nat) (children : List Tree)

/-- The sizes of two to six groups of `n` items: any sizes high in the tree, halves below (R238; log 28). -/
def groupSizes (seed depth n : Nat) : List Nat :=
  if 39 ≤ depth then [n - n / 2]
  else if n ≤ 6 ∧ seed % 2 = 0 then List.replicate (n - 1) 1
  else (upFrom 0 (1 + seed / 2 % 5)).map (fun i => 1 + seed / 16 / (i + 1) % (n - 1))

/-- The tree of some triangles, and the number of box nodes used; each step of `fuel` is a level. -/
def growTree (seed : Nat → Nat) : Nat → Nat → Nat → List BuildTri → Tree × Nat
  | 0, _, id, _ => (.box id [], id + 1)
  | fuel + 1, depth, id, l =>
    let sizes := if l.length ≤ 1 then [1] else groupSizes (seed id) depth l.length
    let g := groupsOf (sizes.take 5) l
    let (kids, next) := g.foldl (fun (acc : List Tree × Nat) m =>
      match m with
      | [t] => (acc.1 ++ [.leaf t], acc.2)
      | _ => let (t, n) := growTree seed fuel (depth + 1) acc.2 m; (acc.1 ++ [t], n)) ([], id + 1)
    (.box id kids, next)

/-- Bounds of triangles on three axes, in units of 2^-149: none when there is none. -/
abbrev Bounds := Option (List (Int × Int))

def unionBounds (a b : Bounds) : Bounds :=
  match a, b with
  | none, y => y
  | x, none => x
  | some x, some y => some ((x.zip y).map (fun e => (min e.1.1 e.2.1, max e.1.2 e.2.2)))

def triBounds (words : List Nat) : Bounds :=
  let v (i a : Nat) : Option Int := f32Fix (words.getD (3 * i + a) 0)
  if (upFrom 0 9).all (fun i => (f32Fix (words.getD i 0)).isSome) then
    some ((upFrom 0 3).map (fun a =>
      let l := [(v 0 a).getD 0, (v 1 a).getD 0, (v 2 a).getD 0]
      (minOf l, maxOf l)))
  else none

/-- An exact number of units of 2^-149 as FP32, when it is one. -/
def fixToF32 (z : Int) : Nat := (f32.arith { rm := 2 } (.num (decide (z < 0)) z.natAbs (-149))).1

/-- The smallest scale exponent with which 255 steps reach from lo to hi (R233). -/
def expFor (span : Int) : Nat → Nat → Nat
  | 0, e => e
  | fuel + 1, e =>
    -- 255 × 2^(e - 127) in units of 2^-149 is 255 × 2^(e + 22)
    if span ≤ 255 * 2 ^ (e + 22) then e else expFor span fuel (e + 1)

/-- ORIGIN, EXP and the six bounds of each child, with the slack that the seed gives (R238; log 28). -/
def boxFields (seed : Nat) (kids : List Bounds) : List Byte × List Byte × List Byte :=
  let all := kids.foldl unionBounds none
  let axis (a : Nat) : Int × Int := (all.getD []).getD a (0, 0)
  let o (a : Nat) : Int := (f32Fix (fixToF32 (axis a).1)).getD 0
  let e (a : Nat) : Nat := min 254 (expFor ((axis a).2 - o a) 255 0 + seed / 8 % 4)
  let q (b : Bounds) (a : Nat) : List Byte :=
    match b with
    | none => [255, 0]
    | some l =>
      let u : Int := 2 ^ (e a + 22)
      let p := l.getD a (0, 0)
      let lo := ((p.1 - o a) / u).toNat
      let hi := (-((-(p.2 - o a)) / u)).toNat
      toBytes 1 (lo - seed % 3) ++ toBytes 1 (min 255 (hi + seed % 3))
  ((upFrom 0 3).flatMap (fun a => toBytes 4 (fixToF32 (axis a).1)), (upFrom 0 3).flatMap (fun a => toBytes 1 (e a)),
   (kids.map (fun b => (upFrom 0 3).flatMap (q b))).flatten)

/-- The 64 bytes of a leaf (R233, R421). -/
def leafBytes (words : List Nat) (prim geom flags : Nat) : List Byte :=
  ((upFrom 0 9).flatMap (fun i => toBytes 4 (words.getD i 0))) ++ toBytes 4 prim ++ toBytes 3 geom ++ toBytes 1 flags ++ List.replicate 20 0

/-- The 128 bytes of a box node. -/
def nodeBytes (base : Nat) (children : List (Nat × Nat)) (f : List Byte × List Byte × List Byte) : List Byte :=
  let kids := children.flatMap (fun c => toBytes 4 (c.1 * 2 ^ 30 + c.2))
  let pad (l : List Byte) (n : Nat) : List Byte := l ++ List.replicate (n - l.length) 0
  f.1 ++ f.2.1 ++ [0] ++ toBytes 8 base ++ pad kids 24 ++ pad f.2.2 36 ++ List.replicate 44 0

/-- Bounds of a tree. -/
def Tree.bounds : Nat → Tree → Bounds
  | _, .leaf t => triBounds t.words
  | 0, .box _ _ => none
  | fuel + 1, .box _ l => l.foldl (fun b t => unionBounds b (Tree.bounds fuel t)) none

/-- What a build writes for a tree: offsets from the output and bytes. Box node `id` stands in 128-byte slot `boxSlot id`, the leaf of triangle
`i` in 64-byte slot `leafSlot i`, counted in units of 64 bytes. -/
def Tree.writes (out prim geom : Nat) (boxSlot leafSlot seed : Nat → Nat) : Nat → Tree → List (Nat × List Byte)
  | _, .leaf t => [(64 * leafSlot t.index, leafBytes t.words (prim + t.index) geom 0)]
  | 0, .box _ _ => []
  | fuel + 1, .box id l =>
    let kids := l.map (fun t => match t with
      | .leaf t => (2, leafSlot t.index)
      | .box i _ => (1, boxSlot i))
    (64 * boxSlot id, nodeBytes out kids (boxFields (seed id) (l.map (Tree.bounds fuel)))) ::
      l.flatMap (fun t => Tree.writes out prim geom boxSlot leafSlot seed fuel t)

/-- Everything that a build writes (R238, R421). -/
def buildWrites (out n prim geom : Nat) (words : List Nat) : List (Nat × List Byte) :=
  let seed (i : Nat) : Nat := Config.buildSeed n prim geom words i
  let tris := ((upFrom 0 n).map (fun i => ({ index := i, words := (words.drop (9 * i)).take 9 } : BuildTri))).filter BuildTri.finite
  let order := permuteBy n (seed 0) tris
  let tree := (growTree (fun i => seed (4 * i + 1)) 65 0 0 order).1
  let boxes := 0 :: permuteBy n (seed 2) (upFrom 1 (n - 1))
  let leaves := permuteBy n (seed 3) (upFrom 0 n)
  tree.writes out prim geom (fun i => 2 * boxes.getD i 0) (fun i => 2 * n + leaves.getD i 0) (fun i => seed (4 * i + 4)) 66

end Sys2Proof.Machine
end

