-- ==== Sys2Proof/Machine/Query.lean ====
section
/-! DEFINITION. Ray and beam queries, builds and refits (R233-R242, R417-R421). -/

namespace Sys2Proof.Machine

open Sys2Proof

/-- Address of the lane instruction that issues, and its words. -/
def LaneIn.pc (i : LaneIn) : W64 := i.r.course.addr + BitVec.ofNat 64 (12 * i.r.pos)
def LaneIn.insn (i : LaneIn) : W96 := i.r.words.getD i.r.pos 0

/-- What a walk of a hierarchy has found: hits, an error, poison met, and what stopped its reading. -/
structure Walk where
  st : State
  hits : List Hit
  err : Bool
  bad : Bool
  stop : Option (Nat × Got)
  deriving DecidableEq, Repr

/-- The walk of a query that ends here: it has stopped, met an error, or an ANY query has its hit (R234, R237). -/
def Walk.isOver (k : Walk) (r : Ray) : Bool := k.stop.isSome || k.err || (bit r.flags 0 && !k.hits.isEmpty)

/-- Reads a node of a hierarchy as a load of the path, unwatched (R266, R418). -/
def State.readNode (s : State) (w : Who) (op va n : Nat) : Got × State :=
  s.readFor w (.engine op) .current { kind := .read, va := va, size := n, watch := false }

/-- A node could not be read: a fault or an answer is awaited, an access to a register space ends the operation, any other cause is an
error (R234, R450). -/
def Walk.blocked (k : Walk) (va : Nat) (g : Got × State) : Walk :=
  match g with
  | (.cause c, s) => if c = .sysSpaceAccess then { k with st := s, stop := some (va, .cause c) } else { k with st := s, err := true }
  | (g, s) => { k with st := s, stop := some (va, g) }

/-- A triangle leaf (R234, R236). -/
def Walk.leaf (k : Walk) (w : Who) (op : Nat) (r : Ray) (va : Nat) : Walk :=
  match k.st.readNode w op va 64 with
  | (.data l bad, s) =>
    if bad then { k with st := s, err := true, bad := true }
    else if leafBad l then { k with st := s, err := true }
    else match triHit s.tick r l with
      | some h => { k with st := s, hits := h :: k.hits }
      | none => { k with st := s }
  | g => k.blocked va g

/-- A box node and everything that the ray reaches below it; `fuel` counts the box nodes that a path may still hold (R234, R235). -/
def walkBox (w : Who) (op : Nat) (r : Ray) : Nat → Walk → Nat → Walk
  | 0, k, _ => { k with err := true }
  | fuel + 1, k, va =>
    match k.st.readNode w op va 128 with
    | (.data l bad, s) =>
      let k := { k with st := s }
      if bad then { k with err := true, bad := true }
      else if boxBad l then { k with err := true }
      else
        let order := if bit r.flags 0 then permuteBy 6 (Config.anyHit (s.tick + va)) (upFrom 0 6) else upFrom 0 6
        order.foldl (fun k i =>
          let va := childAddr l i
          if k.isOver r || childType l i == 0 || !boxHit r l i then k
          else if childType l i = 1 then (if va % 128 = 0 then walkBox w op r fuel k va else { k with err := true })
          else if childType l i = 2 then k.leaf w op r va
          else { k with err := true }) k
    | g => k.blocked va g

/-- A root that gives an error without an access (R418). -/
def State.badRoot (s : State) (asid : Nat) (root : W64) : Bool :=
  root.toNat % 128 != 0 || !canonical root || inPeerWin root.toNat || (s.winOff asid root.toNat).isSome

/-- An operation waits on a node, or ends (R69, R410). -/
def State.nodeStop (s : State) (op : Nat) (o : EngineOp) (c : Coil) (b : Bolt) (va : Nat) (g : Got) : State :=
  match g with
  | .fault e l p => s.engineFault op o c b { kind := .read, va := va, size := 64 } e l p
  | .cause e => s.engineEnd op (endCause e)
  | _ => s

/-- A ray's two result words reach its lane, and T falls (R237, R418). -/
def State.rayDone (s : State) (op : Nat) (o : EngineOp) (lane d : Nat) (v : W64 × W64) (bad : Bool) : State :=
  (s.updStrand o.coil o.strand (fun st => st.putV [(vKey d lane, v.1, bad), (vKey (d + 1) lane, v.2, bad)])).opGone op o

/-- RAY_LANE_COMPLETE: one lane's query, once no multiply holds its result registers (R211, R233-R237, R418). -/
def execRayLaneComplete (op : Nat) (s : State) : Out :=
  .next (s.withOp op (fun o c b =>
    match o.kind with
    | .ray lane d org tmin dir tmax root flags =>
      let r : Ray := { o := org.map BitVec.toNat, d := dir.map BitVec.toNat, tmin := tmin.toNat, tmax := tmax.toNat, flags := flags }
      if s.holdsBack o.coil o.strand b.desc.lanes [(vKey d lane, 0, false), (vKey (d + 1) lane, 0, false)] then s.push [o.event op]
      else if s.badRoot b.asid root then s.rayDone op o lane d (errorWords s.tick) false
      else if r.void then s.rayDone op o lane d (missWords s.tick) false
      else
        let k := walkBox (o.who c b) op r 64 { st := s, hits := [], err := false, bad := false, stop := none } root.toNat
        match k.stop with
        | some (va, g) => k.st.nodeStop op o c b va g
        | none =>
          if k.err then k.st.rayDone op o lane d (errorWords s.tick) k.bad
          else match k.hits with
            | [] => k.st.rayDone op o lane d (missWords s.tick) false
            | h :: t => k.st.rayDone op o lane d (t.foldl Hit.better h).words false
    | _ => s))

/-- `rq.ray`: each active lane's query is accepted, and counts on T (R417, R418). -/
def execRqRay (o : Lane) (s : State) : Out :=
  let a := o.a.toNat
  laneIssue s 0xC8 o always (fun _ => laneMore 0xC8 o) (fun i =>
    let bad := i.badLanes [a, a + 1, a + 2, a + 3, o.b.toNat]
    if bad ≠ 0 then .trap s (laneCause .poison bad i.x.w)
    else
      .go (i.lanes.foldl (fun s l =>
        let lo (j : Nat) : W32 := (i.val i.ty (a + j) l).setWidth 32
        let hi (j : Nat) : W32 := BitVec.ofNat 32 ((i.val i.ty (a + j) l).toNat >>> 32)
        (s.accept i.x 3 i.x.id.strand i.x.id.path i.pc i.insn
          (.ray l o.d.toNat [lo 0, hi 0, lo 1] (hi 1) [lo 2, hi 2, lo 3] (hi 3) (i.b l) (bits o.mod.toNat 2 0))).2) s))

/-- What the walks of a beam have found. -/
structure BeamWalk where
  st : State
  leaves : List BeamLeaf
  err : Bool
  bad : Bool
  stop : Option (Nat × Got)
  recs : List (Nat × List Byte)
  deriving DecidableEq, Repr

def BeamWalk.isOver (k : BeamWalk) : Bool := k.stop.isSome || k.err

def BeamWalk.blocked (k : BeamWalk) (va : Nat) (g : Got × State) : BeamWalk :=
  match g with
  | (.cause c, s) => if c = .sysSpaceAccess then { k with st := s, stop := some (va, .cause c) } else { k with st := s, err := true }
  | (g, s) => { k with st := s, stop := some (va, g) }

/-- A leaf that box tests reach; `see` says whether it counts, by the tick, its address and its bytes (R241). -/
def BeamWalk.leaf (k : BeamWalk) (w : Who) (op : Nat) (see : Nat → Nat → List Byte → Option BeamLeaf) (va : Nat) : BeamWalk :=
  match k.st.readNode w op va 64 with
  | (.data l bad, s) =>
    if bad || leafBad l then { k with st := s, err := true, bad := bad }
    else match see s.tick va l with
      | some m => { k with st := s, leaves := k.leaves ++ [m] }
      | none => { k with st := s }
  | g => k.blocked va g

/-- The leaves that box tests reach; `hit` is the test of child `i` of a node, by the tick, the node's address and its bytes (R241). -/
def beamBox (w : Who) (op : Nat) (hit : Nat → Nat → List Byte → Nat → Bool) (see : Nat → Nat → List Byte → Option BeamLeaf) :
    Nat → BeamWalk → Nat → BeamWalk
  | 0, k, _ => { k with err := true }
  | fuel + 1, k, node =>
    match k.st.readNode w op node 128 with
    | (.data l bad, s) =>
      let k := { k with st := s }
      if bad || boxBad l then { k with err := true, bad := bad }
      else
        (upFrom 0 6).foldl (fun k i =>
          let va := childAddr l i
          if k.isOver || childType l i == 0 || !hit s.tick node l i then k
          else if childType l i = 1 then (if va % 128 = 0 then beamBox w op hit see fuel k va else { k with err := true })
          else if childType l i = 2 then k.leaf w op see va
          else { k with err := true }) k
    | g => k.blocked node g

/-- The leaves that the box tests against a region's frustum reach. -/
def Beam.reached (b : Beam) (w : Who) (op : Nat) (r : Region) (k : BeamWalk) (root : Nat) : BeamWalk :=
  beamBox w op (fun _ _ l i => b.boxHit r l i)
    (fun tick va l => (b.leaf l).filter (fun m => m.mustReach b tick r || Config.beamReach tick va)) 64 k root

/-- The walk of a beam whose frustum R241 does not define, its directions being dependent or a component infinite: which boxes and leaves it
reaches is free (log 27). -/
def looseReached (w : Who) (op : Nat) (k : BeamWalk) (root : Nat) : BeamWalk :=
  beamBox w op (fun tick node _ i => Config.beamReach tick (node + i))
    (fun tick va _ => if Config.beamReach tick va then some { prim := 0, geom := 0, verts := [], pts := [] } else none) 64 k root

/-- `resolve_beam` of R241: level 2 is the tile, 1 a region of 4 × 4 pixels, 0 a pixel. -/
def resolveBeam (w : Who) (op : Nat) (b : Beam) (root : Nat) : Nat → BeamWalk → Nat → Nat → BeamWalk
  | level, k, x, y =>
    if k.isOver then k
    else
      let r : Region := { x := x, y := y, n := if level = 2 then 16 else if level = 1 then 4 else 1 }
      let k := b.reached w op r { k with leaves := [] } root
      if k.isOver then k
      else
        let conflict := k.leaves.any (fun c => decide (c.zs.1 ≤ 0)) || decide (64 < k.leaves.length) || anyConflict k.st.tick r k.leaves
        match level with
        | 0 => { k with recs := k.recs ++ regionRecords k.st.tick r (b.ordered r k.leaves) }
        | n + 1 =>
          if conflict then
            let sub := r.n / 4
            (upFrom 0 16).foldl (fun k i => resolveBeam w op b root n k (x + sub * (i % 4)) (y + sub * (i / 4))) k
          else { k with recs := k.recs ++ regionRecords k.st.tick r (b.ordered r k.leaves) }

/-- The 256 records of a beam, each in its place (R242). -/
def recordWrites (out : Nat) (recs : List (Nat × List Byte)) : List (Nat × List Byte) :=
  recs.flatMap (fun e => (upFrom 0 4).map (fun j => (out + 32 * e.1 + 8 * j, (e.2.drop (8 * j)).take 8)))

/-- The records of a beam whose values the spec does not state, in the format of a record (R240-R242; log 27). -/
def spareRecords (tick : Nat) : List (Nat × List Byte) :=
  (upFrom 0 256).map (fun p =>
    let free (j : Nat) : Nat := (Config.spare tick (16 + 4 * p + j)).toNat
    let (pairs, _) := pixelPairs ((upFrom 0 4).map (fun j => (free j % 2 ^ 32, free j / 2 ^ 32 % (2 ^ 20 + 1)))) (2 ^ 20) [] false
    (p, recordBytes pairs (bit (free 3) 63)))

/-- The writes of an operation are judged as a whole and made in words of 8 bytes; then it is done, at once or when every answer has come
(R242, R421). -/
def State.sendWrites (s : State) (op : Nat) (o : EngineOp) (c : Coil) (b : Bolt) (l : List (Nat × List Byte)) : State :=
  let parts := l.flatMap (fun e => (pieces 8 .write e.2.length e.1 e.2.length).map (fun a =>
    (a, (e.2.drop ((a.va + 2 ^ 64 - e.1) % 2 ^ 64)).take a.size)))
  s.withPlaces op o c b (parts.map Prod.fst) (fun s1 ps =>
    let s2 := s1.asOne (fun s => (parts.zip ps).foldl (fun s e => s.opWrite o (.engine op) e.1.1.va e.2 e.1.2 false) s)
    if s2.awaits (.engine op) then { s2 with ops := Dict.upd s2.ops op (fun o => { o with sent := true }) } else s2.opGone op o)

/-- An operation whose writes were sent goes on: the answers are in (R143). -/
def State.afterSent (s : State) (op : Nat) (o : EngineOp) (body : State) : State :=
  if o.sent then (match s.writeCause (.engine op) with | some e => s.engineEnd op (endCause e) | none => s.opGone op o)
  else body

/-- A beam's descriptor (R240): none when a component is infinite. -/
def beamOf (l : List Byte) : Option Beam :=
  match vecAt l 0, vecAt l 12, vecAt l 24, vecAt l 36 with
  | some o, some d0, some dx, some dy =>
    some { o := o, d0 := d0, dx := dx, dy := dy, tmin := f32Val (nodeN l 48 4), tmax := f32Val (nodeN l 52 4) }
  | _, _, _, _ => none

/-- A descriptor with a reserved bit set, or with a NaN (R240). -/
def beamVoid (l : List Byte) : Bool := nodeN l 56 8 != 0 || (upFrom 0 14).any (fun i => (f32Val (nodeN l (4 * i) 4)).isNan)

/-- BEAM_COMPLETE: a beam is resolved and its records are written (R240-R242, R419). -/
def execBeamComplete (op : Nat) (s : State) : Out :=
  .next (s.withOp op (fun o c b =>
    match o.kind with
    | .beam root desc out _ =>
      s.afterSent op o (
        let put (s : State) (recs : List (Nat × List Byte)) : State := s.sendWrites op o c b (recordWrites out.toNat recs)
        if beamVoid desc then put s ((upFrom 0 256).map (fun p => (p, recordBytes [] true)))
        else if s.badRoot b.asid root then put s (spareRecords s.tick)
        else
          let k0 : BeamWalk := { st := s, leaves := [], err := false, bad := false, stop := none, recs := [] }
          let ended (k : BeamWalk) (recs : List (Nat × List Byte)) : State :=
            match k.stop with
            | some (va, g) => k.st.nodeStop op o c b va g
            | none => if k.bad then k.st.engineEnd op .poison else put k.st (if k.err then spareRecords s.tick else recs)
          match (beamOf desc).filter (fun bm => decide (bm.den ≠ 0)) with
          | none =>
            let k := looseReached (o.who c b) op k0 root.toNat
            ended k (if k.leaves = [] then (upFrom 0 256).map (fun p => (p, recordBytes [] false)) else spareRecords s.tick)
          | some bm =>
            let k := resolveBeam (o.who c b) op bm root.toNat 2 k0 0 0
            ended k k.recs)
    | _ => s))

/-- The causes that judging some accesses shows (R257, R419). -/
def State.causesAt (s : State) (w : Who) (l : List Acc) : List (Cause × Nat) :=
  l.filterMap (fun a => match (s.judge w a).1 with | .cause c => some (c, a.va) | _ => none)

/-- Reads that a lane instruction makes at issue as loads of its path, at judged places (R419, R426). -/
inductive LaneGot where
  | data (l : List (List Byte × Bool))
  | later
  | cause (c : Cause) (va : Nat)
  deriving DecidableEq, Repr

def State.laneGet (s : State) (i : LaneIn) (rd : Reader) : List (Nat × Acc × Place) → LaneGot × State
  | [] => (.data [], s)
  | p :: r =>
    if s.refuses p.2.2 .read then (.cause .fabricAccess p.2.1.va, s)
    else
      let g : Got × State :=
        if p.2.2.isRemote then s.readRemote rd p.2.2 p.2.1.va p.2.1.size
        else
          let (l, bad) := s.load i.x.view (some i.x.coil) p.2.2 p.2.1.size
          (.data l bad, s.afterLoad p.2.2 p.2.1.size)
      match g with
      | (.data l bad, s1) => (match State.laneGet s1 i rd r with
        | (.data t, s2) => (.data ((l, bad) :: t), s2)
        | e => e)
      | (.cause c, s1) => (.cause c p.2.1.va, s1)
      | (_, s1) => (.later, s1)

/-- `rq.beam` (R419). -/
def execRqBeam (o : Lane) (s : State) : Out :=
  laneIssue s 0xC9 o always (fun _ => []) (fun i =>
    match i.lanes with
    | [] => .go s
    | l :: _ =>
      let out := (i.c l).toNat
      let desc := (i.b l).toNat
      let rd := Reader.path i.x.id 5
      let bad := if [o.a.toNat, o.b.toNat, o.c.toNat].any (fun p => i.bad p l) then maskOf [l] else 0
      let recs := (upFrom 0 1024).map (fun j =>
        ({ kind := .write, va := (out + 8 * j) % 2 ^ 64, size := 8, align := if j = 0 then 32 else 8 } : Acc))
      let words := (upFrom 0 8).map (fun j =>
        ({ kind := .read, va := (desc + 8 * j) % 2 ^ 64, size := 8, align := if j = 0 then 64 else 8 } : Acc))
      let far := s.causesAt i.x.who recs
      let own := if far = [] then []
        else far.flatMap (fun c => i.lanes.map (fun m => (m, c.1, c.2))) ++ (s.causesAt i.x.who words).map (fun c => (l, c.1, c.2))
      memJudge s i bad own (words.map (fun a => (l, a))) (fun s1 ps =>
        match s1.laneGet i rd ps with
        | (.later, s2) => .wait s2
        | (.cause c va, s2) => .trap s2 { laneCause c (maskOf [l]) i.x.w with memory := true, laddr := Tab.set 0 [] l (BitVec.ofNat 64 va) }
        | (.data d, s2) =>
          if d.any Prod.snd then .trap s2 { laneCause .poison (maskOf [l]) i.x.w with memory := true }
          else .go ((s2.forget rd).accept i.x 3 i.x.id.strand i.x.id.path i.pc i.insn
            (.beam (i.a l) (d.flatMap Prod.fst) (i.c l) l)).2))

/-- `rq.build` and `rq.refit`: their checks, and the operation accepted (R408, R420). -/
def rqAct (s : State) (x : Issuer) (d a : BitVec 6) (word : W96) (kind : W64 → W64 → Nat → Nat → Nat → OpKind) : Act :=
  let tri := x.s a
  let out := x.sAt (a.toNat + 1)
  let n := (x.sAt (a.toNat + 2)).toNat
  let ids := (x.sAt (a.toNat + 3)).toNat
  let off := tri.toNat % 4 != 0 || out.toNat % 128 != 0
  let valid := decide (1 ≤ n) && decide (n ≤ 2 ^ 24) && bits ids 63 56 == 0
  let r := if 1 ≤ n ∧ n ≤ 2 ^ 24 then rangesOf tri.toNat (36 * n) ++ rangesOf out.toNat (192 * n) else []
  if meetsHole r && !meetsPeer r then .trap s { cause := .addrNoncanonical }
  else if off then .trap s { cause := .misaligned }
  else if s.meetsWindow x.asid r then .trap s { cause := .scratchRange }
  else if meetsPeer r then .trap s { cause := .fabricAccess }
  else if !valid then refuse s x d 1
  else
    let (num, s1) := s.accept x 1 x.id.strand x.id.path x.path.pc word (kind tri out n (bits ids 31 0) (bits ids 55 32))
    accepted s1 x d num

/-- What they need before (R408). -/
def rqNeeds (d a : BitVec 6) : Needs := { reads := upFrom a.toNat 4, writes := [d.toNat], courses := true, roles := 4 }

/-- `rq.build` (R420). -/
def execRqBuild (d a : BitVec 6) (s : State) : Out :=
  scalar s (.rqBuild d a) (rqNeeds d a) (fun x => rqAct s x d a (insnWords (.rqBuild d a)) .build)

/-- `rq.refit` (R420). -/
def execRqRefit (d a : BitVec 6) (s : State) : Out :=
  scalar s (.rqRefit d a) (rqNeeds d a) (fun x => rqAct s x d a (insnWords (.rqRefit d a)) .refit)

/-- The triangle words of a buffer, four bytes each. -/
def wordsOfBytes : Nat → List Byte → List Nat
  | 0, _ => []
  | n + 1, l => ofBytes (l.take 4) :: wordsOfBytes n (l.drop 4)

/-- The triangles of an operation, then its effect on their words; poison ends it (R214, R421). -/
def State.withTriangles (s : State) (op : Nat) (o : EngineOp) (c : Coil) (b : Bolt) (tri : W64) (n : Nat)
    (body : State → List Nat → State) : State :=
  s.withOperands op o c b (pieces 64 .read (36 * n) tri.toNat (36 * n)) (fun s1 l =>
    if l.any Prod.snd then s1.engineEnd op .poison else body s1 (wordsOfBytes (9 * n) (l.flatMap Prod.fst)))

/-- What a build or a refit does with what it writes: all of it at its end, or a word before that. -/
abbrev Sink := State → List (Nat × List Byte) → State

/-- The structure that a build makes (R238, R421). -/
def State.building (s : State) (op : Nat) (o : EngineOp) (c : Coil) (b : Bolt) (put : Sink) : State :=
  match o.kind with
  | .build tri out n prim geom => s.withTriangles op o c b tri n (fun s1 w =>
      put s1 ((buildWrites out.toNat n prim geom w).map (fun e => ((out.toNat + e.1) % 2 ^ 64, e.2))))
  | _ => s

/-- BUILD_COMPLETE (R238, R421). -/
def execBuildComplete (op : Nat) (s : State) : Out :=
  .next (s.withOp op (fun o c b => match o.kind with
    | .build _ _ _ _ _ => s.afterSent op o (s.building op o c b (fun s1 l => s1.sendWrites op o c b l))
    | _ => s))

/-- A hierarchy as a refit reads it. -/
inductive Found where
  | leaf (va : Nat) (bytes : List Byte)
  | box (va : Nat) (bytes : List Byte) (kids : List Found)

/-- What reading a hierarchy comes to: the hierarchy, none that a build makes, poison, or what stopped the reading. -/
inductive FoundGot where
  | ok (t : Found)
  | alien
  | poison
  | stop (va : Nat) (g : Got)

/-- Reads the hierarchy below a node, as far as a build with the same N and PRIM_BASE can have made it (R238, R421). -/
def State.findTree (w : Who) (op out n prim : Nat) : Nat → State → Nat → Nat → FoundGot × State
  | 0, s, _, _ => (.alien, s)
  | fuel + 1, s, va, type =>
    let size := if type = 1 then 128 else 64
    let own := decide (va % size = 0) && decide (out ≤ va) && decide (va + size ≤ out + 192 * n)
    if !own then (.alien, s)
    else match s.readNode w op va size with
      | (.data l bad, s1) =>
        if bad then (.poison, s1)
        else if type = 2 then
          (if leafBad l || decide (nodeN l 36 4 < prim) || decide (prim + n ≤ nodeN l 36 4) then .alien else .ok (.leaf va l), s1)
        else if boxBad l then (.alien, s1)
        else
          let used := (upFrom 0 6).filter (fun i => childType l i != 0)
          if used ≠ upFrom 0 used.length ∨ used.any (fun i => childType l i == 3) = true then (.alien, s1)
          else
            let (r, s2) := used.foldl (fun (acc : (FoundGot ⊕ List Found) × State) i =>
              match acc.1 with
              | .inl g => (.inl g, acc.2)
              | .inr kids => match State.findTree w op out n prim fuel acc.2 (childAddr l i) (childType l i) with
                | (.ok t, s) => (.inr (kids ++ [t]), s)
                | (g, s) => (.inl g, s)) (.inr [], s1)
            (match r with | .inl g => g | .inr kids => .ok (.box va l kids), s2)
      | (g, s1) => (.stop va g, s1)

/-- Words of the triangle of a leaf. -/
def triWords (words : List Nat) (prim : Nat) (l : List Byte) : List Nat := (words.drop (9 * (nodeN l 36 4 - prim))).take 9

/-- Bounds of what stands below a node, from the new triangles (R238). -/
def Found.bounds (words : List Nat) (prim : Nat) : Nat → Found → Bounds
  | _, .leaf _ l => triBounds (triWords words prim l)
  | 0, .box _ _ _ => none
  | fuel + 1, .box _ _ kids => kids.foldl (fun b t => unionBounds b (Found.bounds words prim fuel t)) none

/-- What a refit writes: vertices of leaves, ORIGIN, EXP and QBOX of box nodes (R421). -/
def Found.writes (seed : Nat → Nat) (words : List Nat) (prim : Nat) : Nat → Found → List (Nat × List Byte)
  | _, .leaf va l => [(va, (triWords words prim l).flatMap (toBytes 4))]
  | 0, .box _ _ _ => []
  | fuel + 1, .box va _ kids =>
    let f := boxFields (seed va) (kids.map (Found.bounds words prim fuel))
    (va, f.1 ++ f.2.1) :: (va + 48, f.2.2) :: kids.flatMap (Found.writes seed words prim fuel)

/-- What a refit writes (R238, R421; log 28). -/
def State.refitting (s : State) (op : Nat) (o : EngineOp) (c : Coil) (b : Bolt) (put : Sink) : State :=
  match o.kind with
  | .refit tri out n prim geom => s.withTriangles op o c b tri n (fun s1 w =>
      match s1.findTree (o.who c b) op out.toNat n prim 66 out.toNat 1 with
      | (.ok t, s2) => put s2 (t.writes (Config.buildSeed n prim geom w) w prim 66)
      | (.alien, s2) => put s2 [(out.toNat, (upFrom 0 (192 * n)).map (Config.refitByte s2.tick))]
      | (.poison, s2) => s2.engineEnd op .poison
      | (.stop va g, s2) => s2.nodeStop op o c b va g)
  | _ => s

/-- REFIT_COMPLETE (R238, R421; log 28). -/
def execRefitComplete (op : Nat) (s : State) : Out :=
  .next (s.withOp op (fun o c b => match o.kind with
    | .refit _ _ _ _ _ => s.afterSent op o (s.refitting op o c b (fun s1 l => s1.sendWrites op o c b l))
    | _ => s))

/-- One word of 8 bytes of what a build or a refit writes is written before the operation ends: a query reads it new, and others old (R239). -/
def State.writeEarly (s : State) (op : Nat) (o : EngineOp) (c : Coil) (b : Bolt) (l : List (Nat × List Byte)) : State :=
  let words := l.flatMap (fun e => (pieces 8 .write e.2.length e.1 e.2.length).map (fun a =>
    (a, (e.2.drop ((a.va + 2 ^ 64 - e.1) % 2 ^ 64)).take a.size)))
  match words[Config.choice s.tick % words.length]? with
  | none => s
  | some (a, bytes) => s.withPlaces op o c b [a] (fun s1 ps => match ps with
    | p :: _ => if p.isRemote then s1 else s1.opWrite o (.engine op) a.va p bytes false
    | [] => s1)

/-- A build or a refit in progress writes a word (R239). -/
def State.buildEarly (s : State) (op : Nat) : State :=
  s.draw.withOp op (fun o c b =>
    if o.sent then s.draw
    else match o.kind with
      | .build _ _ _ _ _ => s.draw.building op o c b (fun s1 l => s1.writeEarly op o c b l)
      | .refit _ _ _ _ _ => s.draw.refitting op o c b (fun s1 l => s1.writeEarly op o c b l)
      | _ => s.draw)

/-- While no path has the turn, builds and refits in progress may write a word (R239). -/
def State.buildEvents (s : State) : List (State → Out) :=
  if s.turn.isNone then
    (s.ops.filter (fun e => match e.2.kind with | .build _ _ _ _ _ => true | .refit _ _ _ _ _ => true | _ => false)).map (fun e =>
      fun (s : State) => .next (s.buildEarly e.1))
  else []

end Sys2Proof.Machine
end

