-- ==== Sys2Proof/Machine/Coverage.lean ====
section
/-! DEFINITION. The coverage unit's instructions, path binning and atlas requests (R243-R255, R422-R426). -/

namespace Sys2Proof.Machine

open Sys2Proof

/-- A tile word's buffer, width and height (R422). -/
def tileBuf (w : W64) : Nat := bits w.toNat 20 0
def tileW (w : W64) : Nat := 8 * 2 ^ bits w.toNat 22 21
def tileH (w : W64) : Nat := 8 * 2 ^ bits w.toNat 24 23

/-- A tile word that traps `SCRATCH_RANGE` (R422). -/
def State.tileBad (s : State) (x : Issuer) (w : W64) : Bool :=
  bits w.toNat 63 25 != 0 || tileBuf w % 64 != 0 || (s.swin x.asid).isNone
    || !coveredBy (windowRanges x.desc x.half) 8 (tileBuf w) (tileBuf w + 4 * tileW w * tileH w)

/-- `cov.tile` and `cov.resolve`: their checks, and the operation accepted (R408, R423). -/
def covAct (s : State) (x : Issuer) (d a : BitVec 6) (word : W96) (kind : W64 → List Nat → OpKind) : Act :=
  let w := x.s a
  if s.tileBad x w then .trap s { cause := .scratchRange }
  else
    let (n, s1) := s.accept x 2 x.id.strand x.id.path x.path.pc word (kind w (upFrom 0 (tileH w)))
    accepted s1 x d n

def covNeeds (d a : BitVec 6) : Needs := { reads := [a.toNat], writes := [d.toNat], courses := true, roles := 4 }

/-- `cov.tile` (R423). -/
def execCovTile (d a : BitVec 6) (s : State) : Out :=
  scalar s (.covTile d a) (covNeeds d a) (fun x => covAct s x d a (insnWords (.covTile d a)) .covTile)

/-- `cov.tile.clr`, the same form (R423). -/
def execCovTileClr (d a : BitVec 6) (s : State) : Out :=
  scalar s (.covTileClr d a) (covNeeds d a) (fun x => covAct s x d a (insnWords (.covTileClr d a)) .covTile)

/-- `cov.resolve` (R423). -/
def execCovResolve (d a : BitVec 6) (r : BitVec 2) (s : State) : Out :=
  scalar s (.covResolve d a r) (covNeeds d a) (fun x =>
    covAct s x d a (insnWords (.covResolve d a r)) (fun w rows => .covResolve w r.toNat rows))

/-- The control points of a lane (R244, R424). -/
def LaneIn.segment (i : LaneIn) (l : Nat) : Option (List (Int × Int)) :=
  segmentPoints i.ty ((upFrom i.o.a.toNat (i.o.sub.toNat + 1)).map (fun v => i.val i.ty v l))

/-- Lane registers of the control points. -/
def segmentRegs (i : LaneIn) : List Nat := laneMore 0xCC i.o

/-- `cov.seg` (R244-R247, R251, R424). -/
def execCovSeg (o : Lane) (s : State) : Out :=
  laneIssue s 0xCC o always segmentRegs (fun i =>
    match i.lanes with
    | [] => .go s
    | first :: _ =>
      let bad := i.badLanes (segmentRegs i) ||| (if i.bad o.b.toNat first || i.bad o.c.toNat first then maskOf [first] else 0)
      let w := i.b first
      if bad ≠ 0 then .trap s (laneCause .poison bad i.x.w)
      else if s.tileBad i.x w then .trap s (laneCause .scratchRange (maskOf [first]) i.x.w)
      else
        let x0 := sval 32 (i.c first).toNat * 4096
        let y0 := sval 32 ((i.c first).toNat / 2 ^ 32) * 4096
        let segs := i.lanes.map (fun l => (l, i.segment l))
        let adds := segs.flatMap (fun e => match e.2 with
          | some pts => segmentCells (pts.map (fun p => (p.1 - x0, p.2 - y0))) (tileW w) (tileH w)
          | none => [])
        let reject := maskOf ((segs.filter (fun e => e.2.isNone)).map Prod.fst)
        let s1 := (s.accept i.x 2 i.x.id.strand i.x.id.path i.pc i.insn (.covSeg w adds)).2
        if o.d = 0 then .go s1
        else
          let (n, s2) := s1.fresh
          .go (({ k := some (o.d.toNat, i.act, reject) } : LaneOut).long i n [] [] s2))

/-- The causes of a `cov.bin` lane's buffer address (R257, R425). -/
def binCauses (s : State) (i : LaneIn) (l : Nat) : List (Nat × Cause × Nat) :=
  let va := (i.b l).toNat
  (if !canonical (i.b l) && !inPeerWin va then [(l, Cause.addrNoncanonical, va)] else [])
    ++ (if va % 64 ≠ 0 then [(l, Cause.misaligned, va)] else [])
    ++ (if (s.winOff i.x.asid va).isSome then [(l, Cause.scratchRange, va)] else [])
    ++ (if inPeerWin va then [(l, Cause.fabricAccess, va)] else [])

/-- `cov.bin` (R252, R253, R425). -/
def execCovBin (o : Lane) (s : State) : Out :=
  laneIssue s 0xCD o always segmentRegs (fun i =>
    match i.lanes with
    | [] => .go s
    | _ :: _ =>
      let bad := i.badLanes (segmentRegs i ++ [o.b.toNat, o.c.toNat])
      memJudge s i bad (i.lanes.flatMap (binCauses s i)) [] (fun s1 _ =>
        let (n, s2) := s1.fresh
        let lanes := i.lanes.map (fun l =>
          let pts := i.segment l
          ({ lane := l, buffer := i.b l, c := i.c l, points := pts.getD [], rejected := pts.isNone || bits (i.c l).toNat 63 34 != 0 } : BinLane))
        let s3 := (s2.accept i.x 2 i.x.id.strand i.x.id.path i.pc i.insn (.covBin o.sub.toNat lanes false 0 0 o.d.toNat n)).2
        let s4 := ({ k := some (o.d.toNat, i.act, 0), ks := [(o.d.toNat + 1, i.act, 0)] } : LaneOut).long i n [] [] s3
        .go (s4.updStrand i.x.id.coil i.x.id.strand (fun st =>
          { st with longs := Dict.upd st.longs n (fun g => { g with held := true }) }))))

/-- One element of a list taken out by a number. -/
def pick {α : Type} (n : Nat) (l : List α) : Option (α × List α) :=
  (l[n % l.length]?).map (fun x => (x, l.eraseIdx (n % l.length)))

/-- The words of 8 bytes of a row of a tile buffer: their places (R422). -/
def rowPlaces (c : Coil) (d : Desc) (half : Nat) (w : W64) (y : Nat) : List Place :=
  (upFrom 0 (tileW w / 2)).filterMap (fun j => winPlace c d half (tileBuf w + 4 * (y * tileW w) + 8 * j) 8)

/-- A row of 32-bit cells, and whether one is poisoned. -/
def State.rowCells (s : State) (c : Coil) (ps : List Place) : List W32 × Bool :=
  let l := ps.map (fun p => s.load .current (some c) p 8)
  (l.flatMap (fun e => [BitVec.ofNat 32 (ofBytes (e.1.take 4)), BitVec.ofNat 32 (ofBytes (e.1.drop 4))]), l.any Prod.snd)

/-- Two cells a word. -/
def cellBytes : List W32 → List (List Byte)
  | a :: b :: r => (toBytes 4 a.toNat ++ toBytes 4 b.toNat) :: cellBytes r
  | _ => []

def State.putRow (s : State) (o : EngineOp) (ps : List Place) (cells : List W32) : State :=
  s.asOne (fun s => (ps.zip (cellBytes cells)).foldl (fun s e => s.store .current o.coil o.strand 0 e.1 e.2 false) s)

/-- `cell_add`: a poisoned cell keeps its bits and its poison (R247, R251). -/
def State.cellAdd (s : State) (o : EngineOp) (c : Coil) (d : Desc) (w : W64) (e : Nat × Nat × Int) : State :=
  match winPlace c d o.half (tileBuf w + 4 * (e.2.1 * tileW w + e.1)) 4 with
  | none => s
  | some p => (s.rmw .current o.coil o.strand 0 p 4 (fun v => (wrap 32 ((v : Int) + e.2.2), 0))).2.2.2

/-- An operation stays, with what is left of it. -/
def State.opStays (s : State) (op : Nat) (o : EngineOp) (k : OpKind) : State :=
  ({ s with ops := Dict.upd s.ops op (fun o => { o with kind := k }) } : State).push [o.event op]

/-- Fields of a parameter buffer's header (R252). -/
structure BinHead where
  pool : Nat
  nchunk : Nat
  next : Nat
  tilesX : Nat
  tilesY : Nat
  layer : Nat

def binHead (l : List Byte) : BinHead :=
  { pool := recN l 0 8, nchunk := recN l 8 4, next := recN l 12 4, tilesX := recN l 16 2, tilesY := recN l 18 2, layer := recN l 20 4 }

/-- Tiles of a lane, in row-major order (R425; log 30). -/
def binTiles (h : BinHead) (pts : List (Int × Int)) : List (Nat × Nat) :=
  let t (z : Int) : Int := z / (32 * 4096)
  let x0 := (max 0 (t (minOf (pts.map Prod.fst)))).toNat
  let y0 := (max 0 (t (minOf (pts.map Prod.snd)))).toNat
  let y1 := t (maxOf (pts.map Prod.snd))
  let y2 := min (h.tilesY : Int) (y1 + 1)
  (upFrom y0 (y2 - (y0 : Int)).toNat).flatMap (fun y => (upFrom x0 (h.tilesX - x0)).map (fun x => (x, y)))

/-- A segment record (R252); the control points that a line or a quadratic does not have are free (log 30). -/
def binRecord (tick kind : Nat) (b : BinLane) : List Byte :=
  (upFrom 0 4).flatMap (fun j => match b.points[j]? with
    | some p => toBytes 4 (wrap 32 p.1) ++ toBytes 4 (wrap 32 p.2)
    | none => toBytes 8 (Config.spare tick (40 + j)).toNat)
  ++ toBytes 4 (b.c.toNat % 2 ^ 32) ++ toBytes 1 kind ++ toBytes 1 (bits b.c.toNat 33 32) ++ List.replicate 10 0

/-- A tile of a lane as it is read: its entry's offset in the buffer, HEAD, TAIL, COUNT, and the number of records in its last chunk. -/
structure BinTile where
  off : Nat
  head : Nat
  tail : Nat
  count : Nat
  used : Nat
  deriving DecidableEq, Repr

/-- The tile needs a new chunk. -/
def BinTile.needs (t : BinTile) : Bool := t.head == 0xFFFFFFFF || decide (10 ≤ t.used)

/-- What appending one record to each tile writes, chunks being claimed in the tiles' order: kind, address and bytes of each write (R253). -/
def binWrites (buf pool : Nat) (record : List Byte) : Nat → List BinTile → List (AccessKind × Nat × List Byte)
  | _, [] => []
  | next, t :: r =>
    let at_ (c : Nat) : Nat := pool + 512 * c
    if t.needs then
      let link : List (AccessKind × Nat × List Byte) :=
        if t.head = 0xFFFFFFFF then [(.atomic, buf + t.off, toBytes 4 next ++ toBytes 4 next), (.atomic, buf + t.off + 8, toBytes 4 (t.count + 1))]
        else [(.write, at_ t.tail, toBytes 4 next), (.atomic, buf + t.off, toBytes 4 t.head ++ toBytes 4 next),
              (.atomic, buf + t.off + 8, toBytes 4 (t.count + 1))]
      (.write, at_ next, toBytes 4 0xFFFFFFFF ++ [1] ++ List.replicate 27 0) :: (.write, at_ next + 32, record) :: link
        ++ binWrites buf pool record (next + 1) r
    else
      [(.write, at_ t.tail + 32 + 48 * t.used, record), (.write, at_ t.tail + 4, toBytes 1 (t.used + 1)),
       (.atomic, buf + t.off + 8, toBytes 4 (t.count + 1))] ++ binWrites buf pool record next r

/-- The outcome of a lane joins the masks; the operation goes on with the next (R425). -/
def State.binNext (s : State) (op : Nat) (o : EngineOp) (kind : Nat) (rest : List BinLane) (isFull : Bool) (full order : Mask)
    (d long : Nat) : State :=
  (s.forget (.engine op)).opStays op o (.covBin kind rest isFull full order d long)

/-- The masks of a `cov.bin` that is done (R425). -/
def State.binDone (s : State) (op : Nat) (o : EngineOp) (full order : Mask) (d long : Nat) : State :=
  ((s.updStrand o.coil o.strand (fun st => { st with longs := Dict.upd st.longs long (fun g =>
    { g with held := false, kWrites := g.kWrites.map (fun k => (k.1, k.2.1, if k.1 = d then full else order)) }) })).push
      [.laneLongComplete long]).opGone op o

/-- Some reserved byte of the header, of an entry or of a chunk header is not zero: none of the lane's effects takes place (R6). -/
def binMalformed (head : List Byte) (entries chunks : List (List Byte)) : Bool :=
  recN head 24 40 != 0 || entries.any (fun e => recN e 13 1 != 0) || chunks.any (fun c => recN c 5 27 != 0)

/-- Accesses to a parameter buffer, whose updates are atomics of scope .dev, are performed at the L2 (R425). -/
def atL2 (l : List Acc) : List Acc := l.map (fun a => { a with l2 := true })

/-- Records of `n` bytes each, from the pieces in which they were read. -/
def records (n : Nat) (l : List (List Byte × Bool)) : List (List Byte) :=
  let bytes := l.flatMap Prod.fst
  (upFrom 0 (bytes.length / n)).map (fun j => (bytes.drop (n * j)).take n)

/-- One lane of a `cov.bin` (R253, R425). -/
def State.binLane (s : State) (op : Nat) (o : EngineOp) (c : Coil) (b : Bolt) (kind : Nat) (m : BinLane) (rest : List BinLane)
    (isFull : Bool) (full order : Mask) (d long : Nat) : State :=
  let me := maskOf [m.lane]
  let next (s : State) (f1 : Bool) (f k : Mask) : State := s.binNext op o kind rest f1 (full ||| f) (order ||| k) d long
  -- R6: a structure with a reserved field set has no effect; the lane's report is free
  let alien (s : State) : State :=
    let f := (Config.spare s.tick 48).getLsbD 0
    let g := (Config.spare s.tick 48).getLsbD 1
    next s false (if f then me else 0) (if g then me else 0)
  let buf := m.buffer.toNat
  if isFull then next s true me 0
  else if m.rejected then next s false 0 me
  else s.withOperands op o c b (atL2 (pieces 64 .read 64 buf 64)) (fun s1 hl =>
    let head := hl.flatMap Prod.fst
    let h := binHead head
    let tiles := (binTiles h m.points).map (fun t => 64 + 16 * (t.2 * h.tilesX + t.1))
    if hl.any Prod.snd then s1.engineEnd op .poison
    else if binMalformed head [] [] then alien s1
    else s1.withOperands op o c b (atL2 (tiles.flatMap (fun t => pieces 16 .read 16 (buf + t) 16))) (fun s2 el =>
      let entries := records 16 el
      let tails := entries.map (fun e => (recN e 0 4, recN e 4 4))
      s2.withOperands op o c b (atL2 ((tails.filter (fun t => t.1 != 0xFFFFFFFF)).flatMap (fun t =>
          pieces 32 .read 64 (h.pool + 512 * t.2) 32))) (fun s3 cl =>
        let chunks := records 32 cl
        if (el ++ cl).any Prod.snd then s3.engineEnd op .poison
        else
          let usedOf (t : Nat) : Nat :=
            match ((tails.filter (fun t => t.1 != 0xFFFFFFFF)).zip chunks).find? (fun e => e.1.2 == t) with
            | some e => recN e.2 4 1
            | none => 0
          let layer := m.c.toNat % 2 ^ 32
          let bts := (tiles.zip entries).map (fun e =>
            ({ off := e.1, head := recN e.2 0 4, tail := recN e.2 4 4, count := recN e.2 8 4, used := usedOf (recN e.2 4 4) } : BinTile))
          let need := (bts.filter BinTile.needs).length
          if binMalformed head entries chunks then alien s3
          else if entries.any (fun e => recN e 12 1 != 0 && decide (layer ≤ recN e 14 2)) then next s3 false 0 me
          else if h.nchunk < h.next + need then next s3 true me 0
          else
            let claim : List (AccessKind × Nat × List Byte) := if need = 0 then [] else [(.atomic, buf + 12, toBytes 4 (h.next + need))]
            let ws := binWrites buf h.pool (binRecord s3.tick kind m) h.next bts ++ claim
              ++ [(.atomic, buf + 20, toBytes 4 (max h.layer layer))]
            let parts := ws.flatMap (fun e => (pieces 16 e.1 e.2.2.length e.2.1 e.2.2.length).map (fun a =>
              (a, (e.2.2.drop ((a.va + 2 ^ 64 - e.2.1) % 2 ^ 64)).take a.size)))
            s3.withPlaces op o c b (parts.map Prod.fst) (fun s4 ps =>
              next (s4.asOne (fun s => (parts.zip ps).foldl (fun s e => s.opWrite o (.engine op) e.1.1.va e.2 e.1.2 false) s)) false 0 0))))

/-- COV_OP_COMPLETE: a coverage operation goes on (R249-R251, R422-R425). -/
def execCovOpComplete (op : Nat) (s : State) : Out :=
  .next (s.withOp op (fun o c b =>
    match o.kind with
    | .covTile w rows => (match pick (Config.choice s.tick) rows with
      | none => s.opGone op o
      | some (y, rest) =>
        (s.putRow o (rowPlaces c b.desc o.half w y) (List.replicate (tileW w) 0)).opStays op o (.covTile w rest))
    | .covResolve w rule rows => (match pick (Config.choice s.tick) rows with
      | none => s.opGone op o
      | some (y, rest) =>
        let ps := rowPlaces c b.desc o.half w y
        let (cells, bad) := s.rowCells c ps
        if bad then s.engineEnd op .poison
        else (s.putRow o ps (resolveRow rule 0 cells)).opStays op o (.covResolve w rule rest))
    | .covSeg w adds => (match pick (Config.choice s.tick) adds with
      | none => s.opGone op o
      | some (e, rest) => (s.cellAdd o c b.desc w e).opStays op o (.covSeg w rest))
    | .covBin kind lanes isFull full order d long =>
      (match s.writeCause (.engine op) with
      | some e => s.engineEnd op (endCause e)
      | none => match lanes with
        | [] => s.binDone op o full order d long
        | m :: rest => s.binLane op o c b kind m rest isFull full order d long)
    | _ => s))

/-- `atl.req` (R255, R426). -/
def execAtlReq (o : Lane) (s : State) : Out :=
  laneIssue s 0xD0 o always (fun _ => []) (fun i =>
    match i.lanes with
    | [] => .go s
    | first :: _ =>
      let rd := Reader.path i.x.id 5
      let bank := bits o.imm.toNat 4 0
      let desc := (i.b first).toNat
      let bad := i.badLanes [o.a.toNat] ||| (if i.bad o.b.toNat first then maskOf [first] else 0)
      let own := if fifoOk s i.x bank then [] else i.lanes.map (fun l => (l, Cause.fifoAccess, 0))
      let words := (upFrom 0 4).map (fun j =>
        (first, ({ kind := .read, va := (desc + 8 * j) % 2 ^ 64, size := 8, align := if j = 0 then 32 else 8 } : Acc)))
      let early := (s.causesAt i.x.who (words.map Prod.snd)).map (fun c => (first, c.1, c.2))
      memJudge s i bad (if own = [] then [] else early ++ own) words (fun s1 ps =>
        let q := s1.fifo i.x bank
        if 2048 < q.length + i.lanes.length then .wait s1
        else match s1.laneGet i rd ps with
          | (.later, s2) => .wait s2
          | (.cause c va, s2) => .trap s2 { laneCause c (maskOf [first]) i.x.w with memory := true, laddr := Tab.set 0 [] first (BitVec.ofNat 64 va) }
          | (.data dl, s2) =>
            let l := dl.flatMap Prod.fst
            let finish (s : State) (got : List (Nat × Nat)) : Act :=
              let entry (n : Nat) : W64 := BitVec.ofNat 64 (n % 2 ^ 32 + recN l 12 2 * 2 ^ 32)
              let (n, s3) := ((s.forget rd).setFifo i.x bank (s.fifo i.x bank ++ got.map (fun e => (entry e.2, false)))).fresh
              .go (({ k := some (o.d.toNat, i.act, maskOf (got.map Prod.fst)) } : LaneOut).long i n [] [] s3)
            if dl.any Prod.snd then .trap s2 { laneCause .poison (maskOf [first]) i.x.w with memory := true }
            else if recN l 14 18 ≠ 0 then finish s2 []
            else
              let bitmap := recN l 0 8
              let blocks := i.lanes.filterMap (fun m =>
                let bx := (i.a m).toNat % 2 ^ 32
                let by_ := (i.a m).toNat / 2 ^ 32
                if bx < recN l 8 2 ∧ by_ < recN l 10 2 then some (m, by_ * recN l 8 2 + bx) else none)
              let at_ (n : Nat) : Nat := (bitmap + 8 * (n / 64)) % 2 ^ 64
              let scratch := blocks.filterMap (fun e =>
                if (s2.winOff i.x.asid (at_ e.2)).isSome && at_ e.2 % 8 == 0 then some (e.1, Cause.scratchRange, at_ e.2) else none)
              memJudge s2 i 0 scratch (blocks.map (fun e => (e.1, ({ kind := .atomic, va := at_ e.2, size := 8, l2 := true } : Acc)))) (fun s3 bps =>
                let groups := (bps.map (fun p => p.2.1.va)).eraseDups
                let orOf (va : Nat) : Nat :=
                  (blocks.filter (fun e => at_ e.2 == va)).foldl (fun m e => m ||| 2 ^ (e.2 % 64)) 0
                let place (va : Nat) : Place := match bps.find? (fun p => p.2.1.va == va) with | some p => p.2.2 | none => .mem 0
                let far := groups.filter (fun va => (place va).isRemote)
                let (gots, s4) := far.foldl (fun (acc : List (Nat × Got) × State) va =>
                  let (g, s) := acc.2.remoteDo rd (place va) .atomic va 8 (toBytes 8 (orOf va)) (some (.or, 3))
                  (acc.1 ++ [(va, g)], s)) ([], s3)
                let fails := gots.filterMap (fun e => match e.2 with | .cause c => some (e.1, c) | _ => none)
                  ++ (groups.filter (fun va => s4.refuses (place va) .atomic)).map (fun va => (va, Cause.fabricAccess))
                let pending := gots.any (fun e => match e.2 with | .later => true | _ => false)
                if pending then .wait s4
                else match fails with
                  | (va, c) :: _ =>
                    .trap (s4.forget rd) { laneCause c (maskOf ((blocks.filter (fun e => at_ e.2 == va)).map Prod.fst)) i.x.w with memory := true }
                  | [] =>
                    let spoilt := groups.filter (fun va =>
                      if far.contains va then gots.any (fun e => e.1 == va && (match e.2 with | .data _ bad => bad | _ => false))
                      else (s4.load i.x.view (some i.x.coil) (place va) 8).2)
                    if spoilt ≠ [] then
                      .trap (s4.forget rd) { laneCause .poison (maskOf ((blocks.filter (fun e => spoilt.contains (at_ e.2))).map Prod.fst)) i.x.w with
                                             memory := true }
                    else if 2048 < (s4.fifo i.x bank).length + i.lanes.length then .wait s4
                    else
                      let (olds, s5) := (groups.filter (fun va => !far.contains va)).foldl (fun (acc : List (Nat × Nat) × State) va =>
                        let v := (acc.2.issuerAt i.x.id).elim i.x.view Issuer.view
                        let (old, _, _, s) := acc.2.rmw v i.x.id.coil i.x.id.strand va (place va) 8 (fun x => (x ||| orOf va, 0))
                        (acc.1 ++ [(va, old)], s)) ([], s4.grouped)
                      let all := olds ++ gots.map (fun e => match e.2 with | .data b _ => (e.1, ofBytes b) | _ => (e.1, 0))
                      let old (va : Nat) : Nat := match all.find? (fun e => e.1 == va) with | some e => e.2 | none => 0
                      let got := blocks.foldl (fun (acc : List (Nat × Nat)) e =>
                        if bit (old (at_ e.2)) (e.2 % 64) || acc.any (fun f => f.2 == e.2) then acc else acc ++ [e]) []
                      finish s5.ungrouped got)))

end Sys2Proof.Machine
end

