-- ==== Sys2Proof/Machine/Mailbox.lean ====
section
/-! DEFINITION. The requests of the host mailbox and their replies (R28, R68, R70, R95, R96). -/

namespace Sys2Proof.Machine

open Sys2Proof

/-- A reply to a request (R70). -/
def State.reply (s : State) (r : MbxReq) (status : Nat) (body : List Byte) : State :=
  s.postMail ((r.kind + 0x8000) % 2 ^ 16) r.seq.toNat status (if status = 0 then body else [])

/-- Holver maps a 4 KiB page of the host ASID, with every permission, making tables where there are none (R96; log 63). -/
def State.mapFrom (s : State) (va pa root : Nat) : Nat → State
  | 0 => s
  | n + 1 =>
    let pte := root + 8 * bits va (12 + 9 * n + 8) (12 + 9 * n)
    if n = 0 then s.write pte (toBytes 8 (pa / 4096 * 2 ^ 10 + 0xDF)) false
    else
      let p := s.peekN pte 8
      if bit p 0 then State.mapFrom s va pa (bits p 53 10 * 4096) n
      else
        let (page, s1) := s.tablePage
        State.mapFrom (s1.write pte (toBytes 8 (page / 4096 * 2 ^ 10 + 1)) false) va pa page n

/-- The root of an address space's page tables (R142). -/
def State.rootOf (s : State) (asid : Nat) : Nat := bits (s.peekN (s.regF aAsidBase 63 20 * 2 ^ 20 + 16 * asid) 8) 43 0 * 4096

/-- The root of the host ASID's page tables. -/
def State.hostRoot (s : State) : Nat := s.rootOf s.link.hostAsid

/-- Maps the pages of a range in an address space, page `i` at the physical page `page i`. -/
def State.mapPages (s : State) (asid va n : Nat) (page : Nat → Nat) : State :=
  (upFrom 0 (ceilDiv n 4096)).foldl (fun s i => s.mapFrom (va + 4096 * i) (page i) (s.rootOf asid) 5) s

/-- Maps the pages of a contiguous range of the host ASID. -/
def State.mapRange (s : State) (va pa n : Nat) : State := s.mapPages s.link.hostAsid va n (fun i => pa / 4096 * 4096 + 4096 * i)

/-- A page that Holver takes for page `i` of an allocation (log 63). -/
def State.freePage (s : State) (i : Nat) : Nat := Config.holver (2 ^ 20 + i) s.tick % (s.memBytes / 4096) * 4096

/-- Removes the leaf of a page, if there is one. -/
def State.unmapFrom (s : State) (va root : Nat) : Nat → State
  | 0 => s
  | n + 1 =>
    let pte := root + 8 * bits va (12 + 9 * n + 8) (12 + 9 * n)
    let p := s.peekN pte 8
    if !bit p 0 then s
    else if n = 0 then s.write pte (toBytes 8 0) false
    else State.unmapFrom s va (bits p 53 10 * 4096) n

/-- Unmaps a range of an address space, and invalidates its translations (R156). -/
def State.unmapRange (s : State) (asid va n : Nat) : State :=
  let s1 := (upFrom 0 (ceilDiv n 4096)).foldl (fun s i => s.unmapFrom (va + 4096 * i) (s.rootOf asid) 5) s
  s1.keepTlb (fun e => !(e.asid == asid && decide (va < e.vbase + e.size) && decide (e.vbase < va + n)))

/-- PING: Holver's version (R70). -/
def State.doPing (s : State) (r : MbxReq) : State :=
  if r.len ≠ 0 then s.reply r 2 [] else s.reply r 0 (toBytes 8 (Config.holver 3 0))

/-- ALLOC: Holver chooses the addresses, or finds no memory; the range is mapped in the host ASID (R68, R70, R96; log 63). -/
def State.doAlloc (s : State) (r : MbxReq) : State :=
  let size := recN r.body 0 8
  let align := recN r.body 8 1
  let flags := recN r.body 9 1
  if r.len ≠ 16 ∨ 1 < flags ∨ recN r.body 10 6 ≠ 0 ∨ size = 0 ∨ 2 ^ 40 < size ∨ align < 12 ∨ 30 < align then s.reply r 2 []
  else if bit (Config.holver 4 s.tick) 0 then s.draw.reply r 3 []
  else
    let va := Config.holver 5 s.tick % 2 ^ (56 - align) * 2 ^ align
    let pa := Config.holver 6 s.tick % (s.memBytes / 2 ^ align + 1) * 2 ^ align
    let s1 := if flags = 1 then s.mapRange va pa size else s.mapPages s.link.hostAsid va size s.freePage
    let s2 : State := { s1.draw with link := { s1.link with allocs := (va, size, if flags = 1 then pa + 1 else 0) :: s1.link.allocs } }
    s2.reply r 0 (toBytes 8 va ++ toBytes 8 (if flags = 1 then pa else 0))

/-- FREE (R68, R70). -/
def State.doFree (s : State) (r : MbxReq) : State :=
  if r.len ≠ 8 then s.reply r 2 []
  else match s.link.allocs.find? (fun a => a.1 == recN r.body 0 8) with
    | none => s.reply r 2 []
    | some (va, n, _) =>
      (({ s with link := { s.link with allocs := s.link.allocs.filter (fun a => a.1 != va) } } : State).unmapRange s.link.hostAsid va n).reply r 0 []

/-- QUEUE_OPEN: Holver maps the ranges, fills the shadow half and performs OPEN (R95, R96; log 63). -/
def State.doQueueOpen (s : State) (r : MbxReq) : State :=
  let ring := recN r.body 0 8
  let half := recN r.body 8 8
  let l := recN r.body 16 1
  let ctl := recN r.body 17 1
  let size := 8 * 2 ^ l
  if r.len ≠ 24 ∨ l < 10 ∨ 24 < l ∨ bits ctl 7 5 ≠ 0 ∨ recN r.body 18 6 ≠ 0 ∨ ring % 4096 ≠ 0 ∨ half % 64 ≠ 0 then s.reply r 2 []
  else if s.memBytes < ring + size ∨ s.memBytes < half + 64 ∨ bit (Config.holver 7 s.tick) 0 = true
      ∨ (bits ctl 4 3 ≠ 0 ∧ bit (Config.holver 8 s.tick) 0 = true) then s.draw.reply r 4 []
  else match (upFrom 0 (s.regF aQrcCfg 44 32)).find? (fun q => s.qState q == 0) with
    | none => s.reply r 3 []
    | some q =>
      let rva := Config.holver 9 s.tick % 2 ^ (53 - l) * size
      let uva := Config.holver 10 s.tick % 2 ^ 44 * 4096
      let s1 := (s.draw.mapRange rva ring size).mapRange uva (half / 4096 * 4096) 4096
      let s2 := (s1.write half (toBytes 4 0) false).write (s1.shadowAt q) (toBytes 8 rva ++ toBytes 8 (uva + half % 4096) ++ toBytes 2 s1.link.hostAsid ++ toBytes 1 l ++ toBytes 1 ctl) false
      let s3 := s2.qrcOpenOp q
      ({ s3 with link := { s3.link with queues := q :: s3.link.queues } } : State).reply r 0 (toBytes 4 q ++ toBytes 2 s3.link.hostAsid ++ [0, 0])

/-- QUEUE_CLOSE: the reply follows when CLOSE has taken effect; of a queue that the host has not opened Holver chooses the code (R70, R79;
log 63). Whether the request is done. -/
def State.doQueueClose (s : State) (r : MbxReq) : State × Bool :=
  let q := recN r.body 0 4
  let closed (s : State) : State × Bool :=
    (({ s with link := { s.link with queues := s.link.queues.erase q } } : State).reply r 0 [], true)
  if r.len ≠ 8 ∨ recN r.body 4 4 ≠ 0 then (s.reply r 2 [], true)
  else if !s.link.queues.contains q then (s.draw.reply r (1 + Config.holver 11 s.tick % 5) [], true)
  else if s.qrcPending then (s, false)
  else
    let s1 := s.qrcCloseOp q
    if s1.qrcPending then (s1, false) else closed s1

/-- An unknown KIND (R70). -/
def State.doUnknown (s : State) (r : MbxReq) : State := s.reply r 1 []

def execPing (r : MbxReq) (s : State) : Out := .next (s.doPing r)
def execMbxAlloc (r : MbxReq) (s : State) : Out := .next (s.doAlloc r)
def execMbxFree (r : MbxReq) (s : State) : Out := .next (s.doFree r)
def execQueueOpen (r : MbxReq) (s : State) : Out := .next (if s.qrcPending then s.wait else s.doQueueOpen r)
def execQueueClose (r : MbxReq) (s : State) : Out :=
  .next (let (t, done) := s.doQueueClose r
    if done then t else t.wait)
def execMbxUnknownKind (r : MbxReq) (s : State) : Out := .next (s.doUnknown r)

/-- A request taken from the ring, and whether it is done: one that orders an OPEN or a CLOSE waits for those ordered before (R79). -/
def State.takeRequest (s : State) (slot : List Byte) : State × Bool :=
  let r : MbxReq := { kind := recN slot 0 2, len := recN slot 2 2, seq := BitVec.ofNat 32 (recN slot 4 4), body := (slot.drop 16).take (recN slot 2 2) }
  let known := decide (1 ≤ r.kind) && decide (r.kind ≤ 5)
  if known && (recN slot 8 4 != 0 || recN slot 12 4 != 0 || decide (240 < r.len)) then (s.reply r 2 [], true)
  else match r.kind with
    | 1 => (s.doPing r, true)
    | 2 => (s.doAlloc r, true)
    | 3 => (s.doFree r, true)
    | 4 => if s.qrcPending then (s, false) else (s.doQueueOpen r, true)
    | 5 => s.doQueueClose r
    | _ => (s.doUnknown r, true)

/-- The device consumes slots of the host-to-device ring; at a request that must wait it goes on later. -/
def State.takeSlots (s : State) : Nat → State
  | 0 => s
  | n + 1 =>
    let rd := s.regF aMbxIdx 63 32
    let (s1, done) := s.takeRequest (Tab.getRun Config.blank s.link.mailbox (256 * (rd % 1024)) 256)
    if done then State.takeSlots (s1.setRegF aMbxIdx 63 32 ((rd + 1) % 2 ^ 32)) n else s1.wait

/-- MAILBOX_POLL: the device observes the write index; one that is past the ring's end or has moved backward makes it ignore the ring
(R28). -/
def execMailboxPoll (s : State) : Out :=
  .next (
    let wr := s.regF aMbxIdx 31 0
    let rd := s.regF aMbxIdx 63 32
    let n := (wr + 2 ^ 32 - rd) % 2 ^ 32
    if !s.bootDone || s.link.mbxDead then s
    else if 1024 < n ∨ n < (s.link.mbxSeen + 2 ^ 32 - rd) % 2 ^ 32 then
      ({ s with link := { s.link with mbxDead := true } } : State).setBootErr 9
    else
      let s1 : State := { s with link := { s.link with mbxSeen := wr } }
      let s2 := s1.takeSlots n
      s2.flushMail s2.link.mail.length)

end Sys2Proof.Machine
end

