-- ==== Sys2Proof/Machine/Spdm.lean ====
section
/-! DEFINITION. The SPDM responder, DOE aborts, configuration requests and the keys of the link's encryption (R24, R30, R35-R37). -/

namespace Sys2Proof.Machine

open Sys2Proof

/-- A transport's connection (R35). -/
def State.spdm (s : State) (mctp : Bool) : SpdmConn := if mctp then s.link.spdmMctp else s.link.spdmDoe

def State.setSpdm (s : State) (mctp : Bool) (c : SpdmConn) : State :=
  { s with link := if mctp then { s.link with spdmMctp := c } else { s.link with spdmDoe := c } }

/-- Bytes that the spec leaves open: a nonce, a key share (R36; log 64). -/
def openBytes (tick what n : Nat) : List Byte := (upFrom 0 n).map (fun i => Config.spdmByte tick what i)

/-- A response: its code, two parameters and its body, after the version byte of the request (log 64). -/
def State.respond (s : State) (r : SpdmReq) (code p1 p2 : Nat) (body : List Byte) : State :=
  s.draw.send (.spdm r.mctp code (r.payload.take 1 ++ toBytes 1 code ++ toBytes 1 p1 ++ toBytes 1 p2 ++ body))

/-- Codes of the messages in the SPDM specification of the DMTF (log 64). -/
def spError : Nat := 0x7F
def errUnexpected : Nat := 4
def errUnsupported : Nat := 7
def errInvalid : Nat := 1
def errSessions : Nat := 3
def errVersion : Nat := 0x41

/-- A request of version 1.2 or 1.3 (R35). -/
def spKnown (r : SpdmReq) : Bool := r.payload.take 1 == [0x12] || r.payload.take 1 == [0x13]

/-- A response to a request of a supported version that the connection's state admits; nothing answers before FWX_UP (R35; log 64). -/
def State.spdmAnswer (s : State) (r : SpdmReq) (ok : SpdmConn → Bool) (body : State → SpdmConn → State) : Out :=
  .next (if !s.fwxUp then s
    else if !spKnown r then s.respond r spError errVersion 0 []
    else if ok (s.spdm r.mctp) then body s (s.spdm r.mctp)
    else s.respond r spError errUnexpected 0 [])

/-- The connection has a version; it has agreed on algorithms. -/
def SpdmConn.begun (c : SpdmConn) : Bool := c.version
def SpdmConn.ready (c : SpdmConn) : Bool := c.version && c.algorithms

/-- The session of a request is one of the connection's, finished or not. -/
def SpdmConn.session (c : SpdmConn) (r : SpdmReq) (finished : Bool) : Bool :=
  match r.session with
  | none => false
  | some n => c.sessions.contains (n, finished)

/-- A parameter of a request. -/
def spParam (r : SpdmReq) (i : Nat) : Nat := recN r.payload (1 + i) 1

/-- GET_VERSION begins the connection anew: versions 1.2 and 1.3 (R35). -/
def execGetVersion (r : SpdmReq) (s : State) : Out :=
  .next (if !s.fwxUp then s
    else (s.setSpdm r.mctp { version := true, algorithms := false, sessions := [] }).respond r 0x04 0 0
      ([0, 2] ++ toBytes 2 0x1200 ++ toBytes 2 0x1300))

/-- Flags of the CAPABILITIES message: certificates, challenges, signed measurements, encryption and authentication of messages, key exchange,
heartbeats and key updates are there. Mutual authentication, PSK exchange, chunking, SET_CERTIFICATE and CSR are not. Caching, fresh measurements, the
handshake in the clear and alias certificates are left open (R35; log 64). -/
def capabilityFlags : Nat := 0x62D6 ||| ((Config.spdmByte 0 0 0).toNat % 2 + (Config.spdmByte 0 0 1).toNat % 2 * 2 ^ 5
  + (Config.spdmByte 0 0 2).toNat % 2 * 2 ^ 15 + (Config.spdmByte 0 0 3).toNat % 2 * 2 ^ 18)

/-- GET_CAPABILITIES; without chunking the largest message is the largest transfer (R35; log 64). -/
def execGetCapabilities (r : SpdmReq) (s : State) : Out :=
  s.spdmAnswer r SpdmConn.begun (fun s _ =>
    let size := (upFrom 0 4).map (fun i => Config.spdmByte 0 1 i)
    s.respond r 0x61 0 0 ([0, Config.spdmByte 0 0 4, 0, 0] ++ toBytes 4 capabilityFlags ++ size ++ size))

/-- The body of the ALGORITHMS message for the algorithms of R36, with SHA-256 as the hash throughout (log 64). -/
def algorithmsBody : List Byte :=
  toBytes 2 52 ++ [1, Config.spdmByte 0 2 0] ++ toBytes 4 2 ++ toBytes 4 4 ++ toBytes 4 1 ++ List.replicate 16 0
    ++ ([2, 0x20] ++ toBytes 2 0x10) ++ ([3, 0x20] ++ toBytes 2 2) ++ ([4, 0x20] ++ toBytes 2 0) ++ ([5, 0x20] ++ toBytes 2 1)

/-- NEGOTIATE_ALGORITHMS: the algorithms of R36. -/
def execNegotiateAlgorithms (r : SpdmReq) (s : State) : Out :=
  s.spdmAnswer r SpdmConn.begun (fun s c => (s.setSpdm r.mctp { c with algorithms := true }).respond r 0x63 4 0 algorithmsBody)

/-- The device identity chain in slot 0: its length, the hash of its root, its certificates (R36; log 64). -/
def certChain : List Byte :=
  let n := 36 + Config.chainLength % 2 ^ 12
  toBytes 2 n ++ [0, 0] ++ (upFrom 0 (n - 4)).map (fun i => Config.spdmByte 0 3 i)
def chainDigest : List Byte := sha256Bytes certChain

/-- The signature of R36 over bytes of a response. -/
def signed (l : List Byte) : List Byte := l ++ toBytes 384 (Config.signature l)

/-- The requester's context, which version 1.3 gives back. -/
def spContext (r : SpdmReq) (off : Nat) : List Byte := if r.payload.take 1 = [0x13] then (r.payload.drop off).take 8 else []

/-- GET_DIGESTS and GET_CERTIFICATE: slot 0 alone holds a chain (R36). -/
def execGetDigests (r : SpdmReq) (s : State) : Out :=
  s.spdmAnswer r SpdmConn.ready (fun s _ => s.respond r 0x01 0 1 chainDigest)
def execGetCertificate (r : SpdmReq) (s : State) : Out :=
  s.spdmAnswer r SpdmConn.ready (fun s _ =>
    let off := recN r.payload 4 2
    if bits (spParam r 1) 3 0 ≠ 0 ∨ certChain.length ≤ off then s.respond r spError errInvalid 0 []
    else
      let part := (certChain.drop off).take (recN r.payload 6 2)
      s.respond r 0x02 0 0 (toBytes 2 part.length ++ toBytes 2 (certChain.length - off - part.length) ++ part))

/-- The hash of all measurements that a response may carry: what it covers is left open (log 64). -/
def summaryHash (tick param : Nat) : List Byte := if param = 0 then [] else openBytes tick 9 32

/-- CHALLENGE of slot 0, with a signed response (R35, R36). -/
def execChallenge (r : SpdmReq) (s : State) : Out :=
  s.spdmAnswer r SpdmConn.ready (fun s _ =>
    if spParam r 1 ≠ 0 then s.respond r spError errInvalid 0 []
    else s.respond r 0x03 0 1 (signed (chainDigest ++ openBytes s.tick 4 32 ++ summaryHash s.tick (spParam r 2) ++ [0, 0] ++ spContext r 36)))

/-- The value type of measurement block `n` (R37). -/
def blockType (n : Nat) : Nat := if n = 1 then 0 else if n ≤ 5 then 1 else if n = 6 then 3 else 4

/-- Measurement block `n`: MEAS[n - 1] in digest form (R37). -/
def State.measBlock (s : State) (n : Nat) : List Byte :=
  toBytes 1 n ++ [1] ++ toBytes 2 35 ++ toBytes 1 (blockType n) ++ toBytes 2 32 ++ digestBytes (Tab.get 0 s.link.meas (n - 1))

/-- GET_MEASUREMENTS: the number of blocks, one, or all, with a signature over what is returned where it is asked for (R37). -/
def execGetMeasurements (r : SpdmReq) (s : State) : Out :=
  s.spdmAnswer r SpdmConn.ready (fun s _ =>
    let op := spParam r 2
    let l := if op = 0 then [] else if op = 255 then upFrom 1 8 else [op]
    if op ≠ 255 ∧ 8 < op then s.respond r spError errInvalid 0 []
    else
      let blocks := l.flatMap s.measBlock
      let body := toBytes 1 l.length ++ toBytes 3 blocks.length ++ blocks ++ openBytes s.tick 5 32 ++ [0, 0]
      let signing := bit (spParam r 1) 0
      let body := body ++ spContext r (if signing then 37 else 4)
      s.respond r 0x60 (if op = 0 then 8 else 0) 0 (if signing then signed body else body))

/-- KEY_EXCHANGE: a session of at most four, which FINISH is to secure, without mutual authentication; a fifth is refused with
SessionLimitExceeded (R35; log 64). -/
def execKeyExchange (r : SpdmReq) (s : State) : Out :=
  s.spdmAnswer r SpdmConn.ready (fun s c =>
    if 4 ≤ c.sessions.length then s.respond r spError errSessions 0 []
    else
      let n := Config.holver 12 s.tick % 2 ^ 32
      (s.setSpdm r.mctp { c with sessions := (n, false) :: c.sessions }).respond r 0x64 0 0
        (signed (toBytes 2 (n / 2 ^ 16) ++ [0, 0] ++ openBytes s.tick 7 128 ++ summaryHash s.tick (spParam r 1) ++ [0, 0]) ++ openBytes s.tick 6 32))

/-- FINISH: the session is secured. -/
def execFinish (r : SpdmReq) (s : State) : Out :=
  s.spdmAnswer r (fun c => c.ready && c.session r false) (fun s c =>
    (s.setSpdm r.mctp { c with sessions := c.sessions.map (fun x => if some x.1 = r.session then (x.1, true) else x) }).respond r 0x65 0 0
      (openBytes s.tick 8 32))

/-- HEARTBEAT and KEY_UPDATE in a secured session. -/
def execHeartbeat (r : SpdmReq) (s : State) : Out :=
  s.spdmAnswer r (fun c => c.session r true) (fun s _ => s.respond r 0x68 0 0 [])
def execKeyUpdate (r : SpdmReq) (s : State) : Out :=
  s.spdmAnswer r (fun c => c.session r true) (fun s _ => s.respond r 0x69 (spParam r 1) (spParam r 2) [])

/-- END_SESSION: the session is gone. -/
def execEndSession (r : SpdmReq) (s : State) : Out :=
  s.spdmAnswer r (fun c => c.session r true) (fun s c =>
    (s.setSpdm r.mctp { c with sessions := c.sessions.filter (fun x => some x.1 != r.session) }).respond r 0x6C 0 0 [])

/-- SPDM_UNSUPPORTED_REQUEST (R35). -/
def execSpdmUnsupportedRequest (r : SpdmReq) (s : State) : Out :=
  .next (if !s.fwxUp then s else s.respond r spError errUnsupported (spParam r 0) [])

/-- DOE_ABORT: the exchange in progress is abandoned (R30). -/
def execDoeAbort (s : State) : Out := .next s.abortDoe

/-- The capability structures of the function: their offsets, their numbers and where the next one begins. First power management, MSI-X and PCI
Express; then AER, ATS, Resizable BAR, Data Link Feature, DOE, IDE and Flit logging (R24). The offsets are the model's (log 7). -/
def capabilities : List (Nat × Nat × Nat) := [(0x40, 0x01, 0x48), (0x48, 0x11, 0x58), (0x58, 0x10, 0)]
def extCapabilities : List (Nat × Nat × Nat) :=
  [(0x100, 0x01, 0x148), (0x148, 0x0F, 0x150), (0x150, 0x15, 0x160), (0x160, 0x25, 0x170), (0x170, 0x2E, 0x190), (0x190, 0x30, 0x1C0), (0x1C0, 0x32, 0)]

/-- What 32 bits of the configuration space read as: base addresses of 64-bit prefetchable BARs, no legacy interrupt, the capability structures, the
bits of them that the rules give a meaning; anything else is not described (R24-R26; log 7). -/
def State.cfgWord (s : State) (o : Nat) : Nat :=
  let free := (Config.cfgSpace o).toNat % 2 ^ 32
  let bar (k h l : Nat) : Nat := bits (Tab.get 0 s.link.bars k).toNat h l
  if o = 0x10 then bar 0 31 24 * 2 ^ 24 + 0xC
  else if o = 0x14 then bar 0 63 32
  else if o = 0x18 then bar 2 31 4 * 2 ^ 4 + 0xC
  else if o = 0x1C then bar 2 63 32
  else if o = 0x20 ∨ o = 0x24 then 0
  else if o = 0x34 then 0x40
  else if o = 0x3C then setBits free 15 8 0
  else if o = 0x44 then setBits free 1 0 (if s.link.d3hot then 3 else 0)
  else if o = 0x48 then 0x11 + 0x58 * 2 ^ 8 + 2047 * 2 ^ 16 + b2n s.link.msixEnable * 2 ^ 31
  else if o = 0x5C then setBits free 2 0 2
  else if o = 0x104 then s.link.aer
  else if o = 0x14C then setBits free 31 31 (b2n s.link.atsEnable)
  else if o = 0x154 then 0xFFF000
  else if o = 0x158 then setBits (setBits (setBits free 2 0 2) 7 5 1) 13 8 (Tab.get 28 s.link.barSize 2 - 20)
  else match capabilities.find? (fun c => c.1 == o), extCapabilities.find? (fun c => c.1 == o) with
    | some (_, n, next), _ => setBits (setBits free 7 0 n) 15 8 next
    | none, some (_, n, next) => setBits (setBits free 15 0 n) 31 20 next
    | none, none => free

/-- A configuration read of the eight bytes that hold an offset. -/
def State.cfgRead (s : State) (off : Nat) : W64 :=
  let o := off / 8 * 8
  BitVec.ofNat 64 (s.cfgWord o + s.cfgWord (o + 4) * 2 ^ 32)

/-- A base address: the bits above the size of its BAR (R26). -/
def barBase (base : W64) (n : Nat) : W64 := BitVec.ofNat 64 (base.toNat / 2 ^ n * 2 ^ n)

/-- CONFIGURATION_REQUEST: before FWX_UP it completes with Request Retry Status (R24-R26, R30). -/
def execConfigurationRequest (r : ConfigReq) (s : State) : Out :=
  .next (if !s.fwxUp then s.send .cfgRetry
    else match r with
      | .read off => s.send (.cfgData off (s.cfgRead off))
      | .setBar bar base n =>
        let l := s.link
        if bar = 0 then { s with link := { l with bars := Tab.set 0 l.bars 0 (barBase base 24) } }
        else if bar = 2 ∧ 28 ≤ n ∧ n ≤ 39 then
          { s with link := { l with bars := Tab.set 0 l.bars 2 (barBase base n), barSize := Tab.set 28 l.barSize 2 n } }
        else s
      | .setMsix e => { s with link := { s.link with msixEnable := e } }
      | .setAts e => { s with link := { s.link with atsEnable := e, atc := [] } }
      | .clearErrors m => { s with link := { s.link with aer := s.link.aer ^^^ (s.link.aer &&& m) } }
      | .setPower d => { s with link := { s.link with d3hot := d } })

/-- IDE_KM_REQUEST: keys of the selective stream, set inside a secured SPDM session over DOE (R24). -/
def execIdeKmRequest (r : IdeReq) (s : State) : Out :=
  .next (match r with
    | .setKey n slot key =>
      if s.link.spdmDoe.sessions.contains (n, true) then { s with link := { s.link with ideKeys := Tab.set 0 s.link.ideKeys slot key } } else s
    | .switch n slot =>
      if s.link.spdmDoe.sessions.contains (n, true) then { s with link := { s.link with ideSlot := Tab.set 0 s.link.ideSlot 0 slot } } else s)

end Sys2Proof.Machine
end

