-- ==== Sys2Proof/Machine/HostLink.lean ====
section
/-! DEFINITION. The host's accesses through BAR 2 and the answers to requests that go out through the host window (R26, R27, R143, R282,
R450). -/

namespace Sys2Proof.Machine

open Sys2Proof

/-- The device physical address that an offset of BAR 2 reaches; after a reset BAR 2 has 256 MiB (R26, R30; log 7). -/
def State.bar2Pa (s : State) (off : Nat) : Nat :=
  let size := 2 ^ Tab.get 28 s.link.barSize 2
  s.regN aHstWin / size * size + off % size

/-- BAR 2 answers: MEM_READY has been reached, the function is in D0, the bytes lie in device memory (R27, R450; log 65). -/
def State.bar2Open (s : State) (off n : Nat) : Bool := s.memReady && !s.link.d3hot && decide (s.bar2Pa off + n ≤ s.memBytes)

/-- Current bytes of device memory as an agent outside the coils reads them, line by line (R185, R192). -/
def State.readOut (s : State) (pa n : Nat) : List Byte × Bool × State :=
  (splitLines (n + 1) pa (List.replicate n 0)).foldl (fun (l, bad, s) p =>
    let (m, b) := s.readView .current p.1 p.2.length
    (l ++ m, bad || b, s.noteCarve p.1)) ([], false, s)

/-- Before an outside write: the holders of copies are gone, or the write waits (R50). -/
def State.withUnsnooped (s : State) (pa n : Nat) (body : State → State) : State :=
  let (ok, s1) := s.unsnoop pa n
  if ok then body s1 else s1.wait

/-- HOST_BAR2_READ: poison goes with the completion (R26, R27, R54; log 65). -/
def execHostBar2Read (off size : Nat) (s : State) : Out :=
  .next (if s.bar2Open off size then
      (let (l, bad, s1) := s.readOut (s.bar2Pa off) size
       s1.send (.hostRead false l bad))
    else (s.aerError 20).send (.hostRead true [] false))

/-- Adds an arrival to the replay log: fabric writes and atomics that are performed, RDMA writes among them (R55, R282; log 66). -/
def State.logArrival (s : State) (kind pa : Nat) (data : List Byte) : State :=
  if bit (s.regN aFabReplay) 0 then
    let s1 := s.logInput kind pa s.fabric.arrivals data
    { s1 with fabric := { s1.fabric with arrivals := s1.fabric.arrivals + 1 } }
  else s

/-- The byte that stands for an atomic's operation in a record: the spec gives no numbering (R282; log 66). -/
def atomicCode (op : AtomicOp) : Byte :=
  let n : Nat := match op with
    | .add => 0 | .min => 1 | .max => 2 | .and => 3 | .or => 4 | .xor => 5 | .swap => 6 | .cas => 7 | .fadd => 8 | .fmin => 9 | .fmax => 10
  BitVec.ofNat 8 (Config.spare 282 n).toNat

/-- An AtomicOp of a peer over PCI Express at the L2: the old value goes back (R26, R56). -/
def State.bar2Atomic (s : State) (off : Nat) (w : Bar2Req) (op : AtomicOp) : State :=
  let pa := s.bar2Pa off
  let n := w.data.length
  let s1 := s.logArrival 6 pa (atomicCode op :: w.data ++ (if op = .cas then toBytes n w.comparand.toNat else []))
  if s1.inCarve pa then (s1.setErr 2 2).send (.hostRead false (List.replicate n 0) false)
  else
    let m := 2 ^ (8 * n)
    let (old, bad, _, s2) := s1.rmw .current 0 0 0 (.mem pa) n (fun x => atomicNew op (if n = 4 then 2 else 3) x (ofBytes w.data) (w.comparand.toNat % m))
    s2.send (.hostRead false (toBytes n old) bad)

/-- HOST_BAR2_WRITE: a write, which commits per line in a ply region, or an AtomicOp (R26, R27, R56, R60, R204). -/
def execHostBar2Write (off : Nat) (w : Bar2Req) (s : State) : Out :=
  .next (if s.bar2Open off w.data.length then
      s.withUnsnooped (s.bar2Pa off) w.data.length (fun s => match w.atom with
        | some op => if pcieHas op w.data.length then s.bar2Atomic off w op else (s.aerError 20).send (.hostRead true [] false)
        | none => (s.logHost 2 (s.bar2Pa off) w.data).write (s.bar2Pa off) w.data w.poisoned)
    else if w.atom.isSome then (s.aerError 20).send (.hostRead true [] false)
    else s.aerError 20)

/-- A request uses the translation of a page: it has left, translated (R143). -/
def usesPage (page : Nat) (r : RemoteReq) : Bool := r.port == 255 && !r.held && !r.ats && r.off / 4096 == page

/-- HOST_ATS_INVALIDATE: completed once no request that used the page's translation is outstanding (R143). -/
def execHostAtsInvalidate (page : Nat) (s : State) : Out :=
  .next (
    let s1 : State := { s with link := { s.link with atc := s.link.atc.filter (fun p => p.1 != page) } }
    if s.remotes.any (fun r => usesPage page r.2) then s1.wait else s1.send (.atsDone page))

/-- A request goes to the host, or to a peer over PCI Express. -/
def State.isPcie (s : State) (id : Nat) : Option RemoteReq :=
  (Dict.find? s.remotes id).filter (fun r => !r.held && (r.port == 255 || r.port == 254))

/-- HOST_WINDOW_TIMEOUT (R143). -/
def execHostWindowTimeout (id : Nat) (s : State) : Out :=
  .next (match Dict.find? s.remotes id with
    | some r => if r.port = 255 then (s.aerError 14).answer id (.fail .fabricTimeout) else s
    | none => s)

/-- The answer to a request for a translation: eight bytes as the ATS specification lays them out, R and W in bits 0 and 1, the frame from bit 12
on. The request goes on, or is refused where the host permits no such access (R143; log 99). -/
def State.translated (s : State) (id : Nat) (r : RemoteReq) (data : List Byte) : State :=
  let e := recN data 0 8
  if !bit e 0 || (kindWrites r.kind && !bit e 1) then s.answer id (.fail .fabricAccess)
  else
    let r1 := { r with ats := false }
    ({ s.useAtc (r.off / 4096) (e / 4096) with remotes := Dict.put s.remotes id r1 } : State).sendReq id r1

/-- HOST_WINDOW_COMPLETION, of a request to the host or to a peer over PCI Express: a peer's refusal raises what the host's raises (R54, R56,
R143; log 99). -/
def execHostWindowCompletion (id : Nat) (st : CplStatus) (data : List Byte) (s : State) : Out :=
  .next (match s.isPcie id with
    | none => s
    | some r => match st with
      | .ok => if r.ats then s.translated id r data else s.answer id (.ok data false 0)
      | .poisoned => if r.ats then (s.aerError 12).answer id (.fail .fabricAccess) else (s.aerError 12).answer id (.ok data true 0)
      | .unsupported => s.answer id (.fail .fabricAccess)
      | .abort => s.answer id (.fail .fabricAccess))

end Sys2Proof.Machine
end

