-- ==== Sys2Proof/Machine/Fabric.lean ====
section
/-! DEFINITION. The scale-up fabric and the Ethernet ports: requests that arrive, responses, back-invalidations, ports, RDMA and queue
pairs (R42-R60). -/

namespace Sys2Proof.Machine

open Sys2Proof

/-- The runs of consecutive bytes of a write whose mask bits are 1: offset and bytes (R46, R47). -/
def maskRuns (mask : Nat) : Nat → List Byte → List (Nat × List Byte)
  | _, [] => []
  | i, b :: r =>
    if !bit mask i then maskRuns mask (i + 1) r
    else match maskRuns mask (i + 1) r with
      | (j, l) :: t => if j = i + 1 then (i, b :: l) :: t else (i, [b]) :: (j, l) :: t
      | [] => [(i, [b])]

/-- The runs of a masked write at a physical address, cut where the poison changes: from one granule of 64 bytes to the next (R160). -/
def poisonRuns (pa mask bad : Nat) (data : List Byte) : List (Nat × List Byte × Bool) :=
  (maskRuns mask 0 data).flatMap (fun r =>
    if bad = 0 then [(r.1, r.2, false)]
    else (pieces 64 .write (r.2.length / 64 + 2) (pa + r.1) r.2.length).map (fun a =>
      (a.va - pa, (r.2.drop (a.va - pa - r.1)).take a.size, bit bad (a.va / 64 - pa / 64))))

/-- A masked write of one line: one commit in a ply region (R60, R204). -/
def State.writeMasked (s : State) (pa mask : Nat) (data : List Byte) (bad : Nat := 0) : State :=
  let pokes (s : State) : State := (poisonRuns pa mask bad data).foldl (fun s r => s.poke (pa + r.1) r.2.1 r.2.2) s
  if s.inCarve pa then s.setErr 2 2
  else if s.inRegion pa then (pokes (s.nextStamp.displace (pa / 128))).publish
  else pokes s

/-- A target answers. -/
def State.fabReply (s : State) (r : FabReq) (st : FabStatus) (data : List Byte) (f : FpFlags) : State := s.send (.fabReply r.id st data f)

/-- The slice whose snoop filter holds a line (R50, R151). -/
def sliceOf (line : Nat) : Nat := Config.l2Set (line / 4) % 128

/-- The line of the entry least recently granted, of some entries. -/
def oldestGrant (l : Dict Snoop) : Option Nat :=
  (l.foldl (fun (b : Option (Nat × Snoop)) e => match b with
    | none => some e
    | some c => if e.2.grantedAt < c.2.grantedAt then some e else some c) none).map Prod.fst

/-- The home grants a copy of a line unless it has four holders or is being taken back; a full slice evicts its least recently granted entry, whose
copies are called back (R49, R50). An entry that is called back is no longer the slice's. The answer is whether the copy is granted. -/
def State.grant (s : State) (line src : Nat) : Bool × State :=
  let put (s : State) (e : Snoop) : State :=
    { s with fabric := { s.fabric with snoop := Dict.put s.fabric.snoop line { e with grantedAt := s.fabric.grants }, grants := s.fabric.grants + 1 } }
  match Dict.find? s.fabric.snoop line with
  | some e =>
    if e.awaiting ≠ [] then (false, s)
    else if e.holders.contains src then (true, put s e)
    else if e.holders.length < 4 then (true, put s { e with holders := src :: e.holders })
    else (false, s)
  | none =>
    let slice := s.fabric.snoop.filter (fun e => sliceOf e.1 == sliceOf line && e.2.awaiting == [])
    let fresh : Snoop := { holders := [src], awaiting := [], grantedAt := 0 }
    if slice.length < 4096 then (true, put s fresh)
    else match oldestGrant slice with
      | some old => (true, put (s.unsnoop (128 * old) 128).2 fresh)
      | none => (true, put s fresh)

/-- REMOTE_READ: performed under the export check, with a copy where one is granted (R42, R49, R50, R60). -/
def execRemoteRead (r : FabReq) (s : State) : Out :=
  .next (match s.exportPa r.key.toNat r.off .read with
    | none => s.fabReply r .refused [] 0
    | some pa =>
      let (l, bad, s1) := s.readOut pa r.size
      let cache := r.wantsCopy && bit (s.regN (aExport (r.off / 2 ^ 30))) 3 && !s.inRegion pa && !s.inCarve pa && !s.l1Dirty (pa / 128)
      let (g, s2) := if cache then s1.grant (pa / 128) r.src else (false, s1)
      s2.fabReply r (if bad then .poisoned else if g then .granted else .ok) l 0)

/-- Where a request is performed: under the entry that admitted it, or that of the export table now (R42). -/
def State.admitted (s : State) (r : FabReq) (k : AccessKind) : Option Nat :=
  match s.fabric.accepted.find? (fun e => e.1 == r.src && e.2.1 == r.id) with
  | some e => some e.2.2
  | none => s.exportPa r.key.toNat r.off k

/-- A request is no longer among those that wait at the L2. -/
def State.unaccept (s : State) (r : FabReq) : State :=
  { s with fabric := { s.fabric with accepted := s.fabric.accepted.filter (fun e => !(e.1 == r.src && e.2.1 == r.id)) } }

/-- A request that has been accepted at the home's L2 waits for acknowledgements, and goes on under the entry that admitted it (R42, R50). -/
def State.acceptFirst (s : State) (r : FabReq) (pa n : Nat) (body : State → State) : State :=
  let (ok, s1) := s.unsnoop pa n
  let s2 := s1.unaccept r
  if ok then body s2
  else ({ s2 with fabric := { s2.fabric with accepted := (r.src, r.id, pa) :: s2.fabric.accepted } } : State).wait

/-- REMOTE_WRITE: performed once no copy of the line is left, and then acknowledged (R42, R48, R50, R60, R330). -/
def execRemoteWrite (r : FabReq) (s : State) : Out :=
  .next (match s.admitted r .write with
    | none => s.fabReply r .refused [] 0
    | some pa => s.acceptFirst r pa r.data.length (fun s =>
        let runs := maskRuns r.byteMask 0 r.data
        let s1 := s.logArrival 5 (pa + (match runs with | e :: _ => e.1 | [] => 0)) (runs.flatMap Prod.snd)
        (s1.writeMasked pa r.byteMask r.data r.bad).fabReply r .ok [] 0))

/-- REMOTE_ATOMIC: single-copy atomic at the home's L2 (R42, R52, R60). -/
def execRemoteAtomic (r : FabReq) (s : State) : Out :=
  .next (match s.admitted r .atomic with
    | none => s.fabReply r .refused [] 0
    | some pa => s.acceptFirst r pa r.size (fun s =>
        let cmp := r.comparand.toNat % 2 ^ (8 * r.size)
        let s1 := s.logArrival 6 pa (atomicCode r.op :: r.data ++ (if r.op = .cas then toBytes r.size cmp else []))
        if s1.inCarve pa then (s1.setErr 2 2).fabReply r .ok (List.replicate r.size 0) 0
        else
          let (old, bad, f, s2) := s1.rmw .current 0 0 0 (.mem pa) r.size (fun x => atomicNew r.op r.ty.toNat x (ofBytes r.data) cmp)
          s2.fabReply r (if bad then .poisoned else .ok) (toBytes r.size old) f))

/-- A request went out over UALink and waits for its response. -/
def State.onFabric (s : State) (id : Nat) : Option RemoteReq := (Dict.find? s.remotes id).filter (fun r => decide (r.port < 36) && !r.held)

/-- This device keeps a copy of a remote line in its L2, when the read that brought it left on a port with EXT = 1: at most RC_WAYS ways of a
set (R49). -/
def State.keepCopy (s : State) (r : RemoteReq) (home line : Nat) : State :=
  let ways := s.regF aFabCfg 13 10
  let mine := s.fabric.copies.filter (fun c => !(c.1 == home && c.2 == line))
  let same := mine.filter (fun c => Config.l2Set (c.2 / 4) == Config.l2Set (line / 4))
  let drop := same.drop (ways - 1)
  if s.regF aFabCfg 9 9 = 0 ∨ ways = 0 ∨ r.ext = false then s
  else { s with fabric := { s.fabric with copies := (home, line) :: mine.filter (fun c => !drop.contains c) } }

/-- FABRIC_RESPONSE (R42, R48, R49, R52, R54). -/
def execFabricResponse (id : Nat) (st : FabStatus) (data : List Byte) (f : BitVec 5) (s : State) : Out :=
  .next (match s.onFabric id with
    | none => s
    | some r => match st with
      | .ok => s.answer id (.ok data false f)
      | .granted => (s.keepCopy r (8 * r.board + r.device) (r.off / 128)).answer id (.ok data false f)
      | .poisoned => s.answer id (.ok data true f)
      | .refused => s.answer id (.fail .fabricAccess))

/-- FABRIC_TIMEOUT: no response within 200 µs (R54). -/
def execFabricTimeout (id : Nat) (s : State) : Out :=
  .next (match Dict.find? s.remotes id with
    | some r => if !r.held && (decide (r.port < 36) || r.port == 254) then (s.setErr 0 2).answer id (.fail .fabricTimeout) else s
    | none => s)

/-- BACK_INVALIDATE: the copy is gone, and then it is acknowledged (R50). -/
def execBackInvalidate (home line : Nat) (s : State) : Out :=
  .next (({ s with fabric := { s.fabric with copies := s.fabric.copies.filter (fun c => !(c.1 == home && c.2 == line)) } } : State).send (.biAck home line))

/-- A holder no longer has a line; the entry ends with its last holder, and the write that waits goes on (R50, R51). -/
def State.holderGone (s : State) (line holder : Nat) : State :=
  match Dict.find? s.fabric.snoop line with
  | none => s
  | some e =>
    let e1 : Snoop := { e with holders := e.holders.erase holder, awaiting := e.awaiting.erase holder }
    { s with fabric := { s.fabric with
        snoop := if e1.holders = [] then Dict.del s.fabric.snoop line else Dict.put s.fabric.snoop line e1 } }

/-- An acknowledgement of a holder is awaited. -/
def State.awaitsAck (s : State) (line holder : Nat) : Bool :=
  match Dict.find? s.fabric.snoop line with
  | some e => e.awaiting.contains holder
  | none => false

/-- BI_ACKNOWLEDGEMENT (R50). -/
def execBiAcknowledgement (line holder : Nat) (s : State) : Out :=
  .next (if s.awaitsAck line holder then s.holderGone line holder else s)

/-- BI_TIMEOUT: the holder counts as lost (R51, R54). -/
def execBiTimeout (line holder : Nat) (s : State) : Out :=
  .next (if s.awaitsAck line holder then (s.setErr 0 4).holderGone line holder else s)

/-- Sets WIDTH and EXT of a port; PORT_EV where it narrows or goes down (R45, R54). -/
def State.setPort (s : State) (q width : Nat) (ext : Bool) : State :=
  (s.setRegF (aPortStat q) 1 0 width).setRegF (aPortStat q) 3 3 (b2n ext)

/-- PORT_NARROW (R45). -/
def execPortNarrow (q : Nat) (s : State) : Out :=
  .next (if q < 36 ∧ s.regF (aPortStat q) 1 0 = 2 then (s.setRegF (aPortStat q) 1 0 1).setErr 0 8 else s)

/-- Requests on a port have not been answered. -/
def State.portBusy (s : State) (q : Nat) : Bool := s.remotes.any (fun r => r.2.port == q && !r.2.held)

/-- PORT_DOWN: new requests that R43 would place on the port are held while some are outstanding on it; with no port left, no path
to any home is left, and every cached remote line goes before the loss is reported (R45, R51). EXT of a port that is down reads 0 (log 100). -/
def execPortDown (q : Nat) (s : State) : Out :=
  .next (if 36 ≤ q ∨ s.portUp q = false then s
    else
      let s0 := s.setPort q 0 false
      let s1 : State := if (upFrom 0 36).any s0.portUp then s0 else { s0 with fabric := { s0.fabric with copies := [] } }
      let s2 := s1.setErr 0 8
      if s.portBusy q then { s2 with fabric := { s2.fabric with held := q :: s2.fabric.held } } else s2)

/-- One held request leaves on the port that R43 now gives, or finds none up (R43, R45, R54). -/
def State.remapOne (s : State) (id : Nat) (r : RemoteReq) : State :=
  match s.route (r.off / 128) with
  | none => (s.setErr 0 1).answer id (.fail .fabricUnreachable)
  | some q =>
    let r1 : RemoteReq := { r with port := q, held := s.fabric.held.contains q, ext := s.regF (aPortStat q) 3 3 == 1 }
    let s1 : State := { s with remotes := Dict.put s.remotes id r1 }
    if r1.held then s1 else s1.sendReq id r1

/-- PORT_REMAP: what was held for a port leaves once nothing is outstanding on it (R45). -/
def execPortRemap (q : Nat) (s : State) : Out :=
  .next (if !s.fabric.held.contains q then s
    else if s.portBusy q then s.wait
    else
      let s1 : State := { s with fabric := { s.fabric with held := s.fabric.held.filter (fun p => p != q) } }
      (s1.remotes.filter (fun e => e.2.port == q && e.2.held)).foldl (fun s e => s.remapOne e.1 e.2) s1)

/-- UALINK_PORT_TRAINING: the port comes up with two lanes (R45, R46). -/
def execUalinkPortTraining (q : Nat) (ext : Bool) (s : State) : Out :=
  .next (if q < 36 then s.setPort q 2 ext else s)

/-- HOME_PATH_LOSS: every copy of the home's lines goes (R51). -/
def execHomePathLoss (home : Nat) (s : State) : Out :=
  .next { s with fabric := { s.fabric with copies := s.fabric.copies.filter (fun c => c.1 != home) } }

/-- This device's 22-bit identity (R38). -/
def State.identity (s : State) : Nat := s.regF aFabId 21 0

/-- An RDMA transfer names this device and lies in its memory; any other is dropped (R57, R58; log 67). -/
def State.rdmaMine (s : State) (r : RdmaReq) (n : Nat) : Bool := r.target == s.identity && decide (r.pa + n ≤ s.memBytes)

/-- RDMA_WRITE_ARRIVAL (R57, R60): the address is physical, and no export entry governs it (log 67). -/
def execRdmaWriteArrival (r : RdmaReq) (s : State) : Out :=
  .next (if s.rdmaMine r r.data.length then
      s.withUnsnooped r.pa r.data.length (fun s => ((s.logArrival 5 r.pa r.data).write r.pa r.data false).send (.rdmaReply []))
    else s)

/-- RDMA_READ_ARRIVAL (R57, R60). -/
def execRdmaReadArrival (r : RdmaReq) (s : State) : Out :=
  .next (if s.rdmaMine r r.size then
      (let (l, _, s1) := s.readOut r.pa r.size
       s1.send (.rdmaReply l))
    else s)

/-- The RDMA transfer that a chunk waits for. -/
def State.rdmaOf (s : State) (q n k : Nat) : Option (Nat × RemoteReq) :=
  List.find? (fun (e : Nat × RemoteReq) => e.2.port == 253 && e.2.reader == some (.chunk q n k)) s.remotes

/-- RDMA_RESPONSE_ARRIVAL (R57, R227). -/
def execRdmaResponseArrival (r : RdmaResp) (s : State) : Out :=
  .next (match s.rdmaOf r.queue r.number r.chunk with
    | none => s
    | some (id, q) =>
      let a : Arrived := { reader := .chunk r.queue r.number r.chunk, kind := .read, va := 0, size := 0, bytes := r.data, poisoned := false, cause := none }
      ({ s with remotes := Dict.del s.remotes id, arrived := if q.kind = .read then a :: s.arrived else s.arrived } : State).push
        [.bteChunk r.queue r.number r.chunk])

/-- QP_RETRY_LIMIT: the outstanding chunks of the pair fail, and Holver is told (R59, R64). -/
def execQpRetryLimit (pod conn : Nat) (s : State) : Out :=
  .next (((s.remotes.filter (fun e => e.2.port == 253 && e.2.board == pod && e.2.device == conn)).foldl
      (fun s e => s.answer e.1 (.fail .fabricUnreachable)) s).push
    [.upcallPost { kind := 5, arg0 := BitVec.ofNat 64 pod, arg1 := BitVec.ofNat 64 conn }])

/-- The full rate of a queue pair, in 2^20ths. -/
def qpFull : Nat := 2 ^ 20

/-- CONGESTION_NOTIFICATION: the rate halves; QP_RATE_RECOVER: it rises by 1/16 of the port's rate (R59). -/
def execCongestionNotification (conn : Nat) (s : State) : Out :=
  .next { s with fabric := { s.fabric with rate := Tab.set 0 s.fabric.rate conn (qpFull - (qpFull - Tab.get 0 s.fabric.rate conn) / 2) } }
def execQpRateRecover (conn : Nat) (s : State) : Out :=
  .next { s with fabric := { s.fabric with rate := Tab.set 0 s.fabric.rate conn (Tab.get 0 s.fabric.rate conn - qpFull / 16) } }

end Sys2Proof.Machine
end

