-- ==== Sys2Proof/Machine/LaneFloat.lean ====
section
/-! DEFINITION. Floating lane instructions (R361-R363). -/

namespace Sys2Proof.Machine

open Sys2Proof

/-- The sign of `v.fsgn`: that of b, its inverse, or that of a XOR that of b (R361). -/
def signOf (sub : Nat) (a b : Bool) : Bool :=
  match sub with
  | 0 => b
  | 1 => !b
  | _ => a != b

/-- `v.fadd` (R361). -/
def execVFadd (o : Lane) (s : State) : Out := floatForm s 0x20 o [o.a, o.b] (fun f a b _ => f.add o.sub.toNat a b)

/-- `v.fsub` (R361). -/
def execVFsub (o : Lane) (s : State) : Out := floatForm s 0x21 o [o.a, o.b] (fun f a b _ => f.sub o.sub.toNat a b)

/-- `v.fmul` (R361). -/
def execVFmul (o : Lane) (s : State) : Out := floatForm s 0x22 o [o.a, o.b] (fun f a b _ => f.mul o.sub.toNat a b)

/-- `v.fma` (R361). -/
def execVFma (o : Lane) (s : State) : Out := floatForm s 0x23 o [o.a, o.b, o.c] (fun f a b c => f.fma o.sub.toNat a b c)

/-- `v.fmin` (R361). -/
def execVFmin (o : Lane) (s : State) : Out := floatForm s 0x24 o [o.a, o.b] (fun f a b _ => f.fmin a b)

/-- `v.fmax` (R361). -/
def execVFmax (o : Lane) (s : State) : Out := floatForm s 0x25 o [o.a, o.b] (fun f a b _ => f.fmax a b)

/-- `v.fabs` (R361). -/
def execVFabs (o : Lane) (s : State) : Out := floatForm s 0x26 o [o.a] (fun f a _ _ => f.withSign a false)

/-- `v.fneg` (R361). -/
def execVFneg (o : Lane) (s : State) : Out := floatForm s 0x27 o [o.a] (fun f a _ _ => f.withSign a (!bit a (f.w - 1)))

/-- `v.fsgn` (R361). -/
def execVFsgn (o : Lane) (s : State) : Out := floatForm s 0x28 o [o.a, o.b] (fun f a b _ => f.withSign a (signOf o.sub.toNat (bit a (f.w - 1)) (bit b (f.w - 1))))

/-- `v.fint` (R361). -/
def execVFint (o : Lane) (s : State) : Out := floatForm s 0x29 o [o.a] (fun f a _ _ => f.fint o.sub.toNat (o.mod == 1) a)

/-- `v.fscl` (R361). -/
def execVFscl (o : Lane) (s : State) : Out := floatForm s 0x2A o [o.a, o.b] (fun f a b _ => f.fscl a b)

/-- `v.fcls` (R361). -/
def execVFcls (o : Lane) (s : State) : Out := floatForm s 0x2B o [o.a] (fun f a _ _ => (f.fcls a, 0))

/-- `v.fdiv` (R362). -/
def execVFdiv (o : Lane) (s : State) : Out := floatForm s 0x2C o [o.a, o.b] (fun f a b _ => f.div o.sub.toNat a b)

/-- `v.fsqrt` (R362). -/
def execVFsqrt (o : Lane) (s : State) : Out := floatForm s 0x2D o [o.a] (fun f a _ _ => f.sqrt o.sub.toNat a)

/-- `v.frcp` (R362). -/
def execVFrcp (o : Lane) (s : State) : Out := floatForm s 0x2E o [o.a] (fun f a _ _ => f.rcp a)

/-- `v.frsq` (R362). -/
def execVFrsq (o : Lane) (s : State) : Out := floatForm s 0x2F o [o.a] (fun f a _ _ => f.rsq a)

/-- `v.fexp2` (R362). -/
def execVFexp2 (o : Lane) (s : State) : Out := floatForm s 0x30 o [o.a] (fun f a _ _ => f.exp2 a)

/-- `v.flog2` (R362). -/
def execVFlog2 (o : Lane) (s : State) : Out := floatForm s 0x31 o [o.a] (fun f a _ _ => f.log2 a)

/-- `v.fsin` (R362). -/
def execVFsin (o : Lane) (s : State) : Out := floatForm s 0x32 o [o.a] (fun f a _ _ => f.fsin a)

/-- `v.fcos` (R362). -/
def execVFcos (o : Lane) (s : State) : Out := floatForm s 0x33 o [o.a] (fun f a _ _ => f.fcos a)

/-- `v.fcmp` (R358, R363). -/
def execVFcmp (o : Lane) (s : State) : Out := compareForm s 0x40 o (fun a b => (fmtOf o.ty.toNat).fcmp o.sub.toNat a b)

end Sys2Proof.Machine
end

