-- ==== Sys2Proof/Machine/LaneInt.lean ====
section
/-! DEFINITION. Integer, logic, shift and bit-field lane instructions, and the integer compares (R356, R357, R360). -/

namespace Sys2Proof.Machine

open Sys2Proof

/-- Clamps to the range of an integer TYPE, modulo its width. -/
def clampTo (ty : Nat) (z : Int) : Nat := wrap (tyWidth ty) (max (tyMin ty) (min (tyMax ty) z))

/-- `v.div`: quotient toward zero; all ones for b = 0, and the overflow case gives a (R356). -/
def laneDiv (ty a b : Nat) : Nat :=
  if b = 0 then 2 ^ tyWidth ty - 1 else wrap (tyWidth ty) ((ival ty a).tdiv (ival ty b))

/-- `v.rem` (R356). -/
def laneRem (ty a b : Nat) : Nat := if b = 0 then a else wrap (tyWidth ty) ((ival ty a).tmod (ival ty b))

/-- a >> n, filled with zero or with the sign by the TYPE (R357). -/
def laneShr (ty a n : Nat) : Nat := wrap (tyWidth ty) (ival ty a / ((2 ^ n : Nat) : Int))

/-- a[pos + len - 1:pos], extended by the TYPE (R357). -/
def laneBfx (ty a pos len : Nat) : Nat :=
  let v := (a >>> pos) % 2 ^ len
  if tySigned ty then wrap (tyWidth ty) (sval len v) else v

/-- a with bits [pos + len - 1:pos] replaced by b[len - 1:0] (R357). -/
def laneBfi (a b pos len : Nat) : Nat := setBits a (pos + len - 1) pos b

/-- The condition of `v.cmp` (R360). -/
def cmpHolds (sub : Nat) (a b : Int) : Bool :=
  match sub with
  | 0 => a == b
  | 1 => a != b
  | 2 => decide (a < b)
  | 3 => decide (a ≤ b)
  | 4 => decide (b < a)
  | _ => decide (b ≤ a)

/-- `v.add` (R356). -/
def execVAdd (o : Lane) (s : State) : Out :=
  intForm s 0x01 o [o.a, o.b] (fun a b _ => (a + b) % 2 ^ tyWidth o.ty.toNat)

/-- `v.sub` (R356). -/
def execVSub (o : Lane) (s : State) : Out :=
  intForm s 0x02 o [o.a, o.b] (fun a b _ => (a + 2 ^ tyWidth o.ty.toNat - b) % 2 ^ tyWidth o.ty.toNat)

/-- `v.mul` (R356). -/
def execVMul (o : Lane) (s : State) : Out :=
  intForm s 0x03 o [o.a, o.b] (fun a b _ => a * b % 2 ^ tyWidth o.ty.toNat)

/-- `v.mulh` (R356). -/
def execVMulh (o : Lane) (s : State) : Out :=
  intForm s 0x04 o [o.a, o.b] (fun a b _ => wrap (tyWidth o.ty.toNat) (ival o.ty.toNat a * ival o.ty.toNat b / ((2 ^ tyWidth o.ty.toNat : Nat) : Int)))

/-- `v.mad` (R356). -/
def execVMad (o : Lane) (s : State) : Out :=
  intForm s 0x05 o [o.a, o.b, o.c] (fun a b c => (a * b + c) % 2 ^ tyWidth o.ty.toNat)

/-- `v.min` (R356). -/
def execVMin (o : Lane) (s : State) : Out :=
  intForm s 0x06 o [o.a, o.b] (fun a b _ => if ival o.ty.toNat a ≤ ival o.ty.toNat b then a else b)

/-- `v.max` (R356). -/
def execVMax (o : Lane) (s : State) : Out :=
  intForm s 0x07 o [o.a, o.b] (fun a b _ => if ival o.ty.toNat a ≤ ival o.ty.toNat b then b else a)

/-- `v.abs` (R356). -/
def execVAbs (o : Lane) (s : State) : Out :=
  intForm s 0x08 o [o.a] (fun a _ _ => wrap (tyWidth o.ty.toNat) ((ival o.ty.toNat a).natAbs : Int))

/-- `v.neg` (R356). -/
def execVNeg (o : Lane) (s : State) : Out :=
  intForm s 0x09 o [o.a] (fun a _ _ => (2 ^ tyWidth o.ty.toNat - a) % 2 ^ tyWidth o.ty.toNat)

/-- `v.adds` (R356). -/
def execVAdds (o : Lane) (s : State) : Out :=
  intForm s 0x0A o [o.a, o.b] (fun a b _ => clampTo o.ty.toNat (ival o.ty.toNat a + ival o.ty.toNat b))

/-- `v.subs` (R356). -/
def execVSubs (o : Lane) (s : State) : Out :=
  intForm s 0x0B o [o.a, o.b] (fun a b _ => clampTo o.ty.toNat (ival o.ty.toNat a - ival o.ty.toNat b))

/-- `v.div` (R356). -/
def execVDiv (o : Lane) (s : State) : Out :=
  intForm s 0x0C o [o.a, o.b] (fun a b _ => laneDiv o.ty.toNat a b)

/-- `v.rem` (R356). -/
def execVRem (o : Lane) (s : State) : Out :=
  intForm s 0x0D o [o.a, o.b] (fun a b _ => laneRem o.ty.toNat a b)

/-- `v.sad` (R356). -/
def execVSad (o : Lane) (s : State) : Out :=
  intForm s 0x0E o [o.a, o.b, o.c] (fun a b c => ((ival o.ty.toNat a - ival o.ty.toNat b).natAbs + c) % 2 ^ tyWidth o.ty.toNat)

/-- `v.dot4`: four byte products and a 32-bit word of C for each word of D (R356). -/
def execVDot4 (o : Lane) (s : State) : Out :=
  laneCompute s 0x0F o always (fun i =>
    let word (l w : Nat) : Nat :=
      let sum := (upFrom 0 4).foldl (fun (z : Int) j => z + ival i.ty (elem 8 (4 * w + j) (i.a l)) * ival i.ty (elem 8 (4 * w + j) (i.b l))) 0
      wrap 32 ((elem 32 w (i.c l) : Int) + sum)
    (i.badLanes [o.a.toNat, o.b.toNat, o.c.toNat],
     { v := i.lanes.map (fun l => (l, BitVec.ofNat 64 (ofElems 32 [word l 0, word l 1]), false)) }))

/-- `v.and` (R357). -/
def execVAnd (o : Lane) (s : State) : Out :=
  intForm s 0x10 o [o.a, o.b] (fun a b _ => a &&& b)

/-- `v.or` (R357). -/
def execVOr (o : Lane) (s : State) : Out :=
  intForm s 0x11 o [o.a, o.b] (fun a b _ => a ||| b)

/-- `v.xor` (R357). -/
def execVXor (o : Lane) (s : State) : Out :=
  intForm s 0x12 o [o.a, o.b] (fun a b _ => a ^^^ b)

/-- `v.not` (R357). -/
def execVNot (o : Lane) (s : State) : Out :=
  intForm s 0x13 o [o.a] (fun a _ _ => 2 ^ tyWidth o.ty.toNat - 1 - a)

/-- `v.shl` (R357). -/
def execVShl (o : Lane) (s : State) : Out :=
  intForm s 0x14 o [o.a, o.b] (fun a b _ => (a <<< (b % tyWidth o.ty.toNat)) % 2 ^ tyWidth o.ty.toNat)

/-- `v.shr` (R357). -/
def execVShr (o : Lane) (s : State) : Out :=
  intForm s 0x15 o [o.a, o.b] (fun a b _ => laneShr o.ty.toNat a (b % tyWidth o.ty.toNat))

/-- `v.bfx` (R357). -/
def execVBfx (o : Lane) (s : State) : Out :=
  intForm s 0x16 o [o.a] (fun a _ _ => laneBfx o.ty.toNat a (bits o.imm.toNat 5 0) (bits o.imm.toNat 14 8))

/-- `v.bfi` (R357). -/
def execVBfi (o : Lane) (s : State) : Out :=
  intForm s 0x17 o [o.a, o.b] (fun a b _ => laneBfi a b (bits o.imm.toNat 5 0) (bits o.imm.toNat 14 8))

/-- `v.popc` (R357). -/
def execVPopc (o : Lane) (s : State) : Out :=
  intForm s 0x18 o [o.a] (fun a _ _ => popcount (tyWidth o.ty.toNat) a)

/-- `v.clz` (R357). -/
def execVClz (o : Lane) (s : State) : Out :=
  intForm s 0x19 o [o.a] (fun a _ _ => clzW (tyWidth o.ty.toNat) a)

/-- `v.cmp` (R358, R360). -/
def execVCmp (o : Lane) (s : State) : Out :=
  compareForm s 0x1A o (fun a b => (cmpHolds o.sub.toNat (ival o.ty.toNat a) (ival o.ty.toNat b), 0))

/-- `v.test` (R358, R360). -/
def execVTest (o : Lane) (s : State) : Out := compareForm s 0x1B o (fun a b => ((a &&& b != 0) == (o.sub == 0), 0))

end Sys2Proof.Machine
end

