-- ==== Sys2Proof/Machine/LaneMove.lean ====
section
/-! DEFINITION. Moves and selects, cross-lane and sub-element instructions, votes, reductions, scans, and the transfers between lanes
and scalar registers (R366-R369). -/

namespace Sys2Proof.Machine

open Sys2Proof

/-- A move: each active lane receives a value with its poison, which is not consumed (R354). -/
def moveForm (s : State) (op : Nat) (o : Lane) (legal : LaneIn → Option Cause) (f : LaneIn → Nat → W64 × Bool) : Out :=
  laneCompute s op o legal (fun i => (0, { v := i.lanes.map (fun l => (l, f i l)) }))

/-- A lane operand with its poison. -/
def LaneIn.word (i : LaneIn) (spec l : Nat) : W64 × Bool := (i.val i.ty spec l, i.bad spec l)

/-- `v.mov` and `v.mov.tid` (R366). -/
def execVMov (o : Lane) (s : State) : Out :=
  moveForm s 0x58 o always (fun i l =>
    if o.sub = 1 then ((Tab.get 0 i.x.strand.tids l).zeroExtend 64, false) else i.word o.a.toNat l)

/-- `v.sel` (R366). -/
def execVSel (o : Lane) (s : State) : Out :=
  moveForm s 0x59 o always (fun i l =>
    if (i.x.mask (kSpec o.c.toNat)).getLsbD l then i.word o.a.toNat l else i.word o.b.toNat l)

/-- `v.kmov` in both directions (R366). -/
def execVKmov (o : Lane) (s : State) : Out :=
  laneCompute s 0x5A o always (fun i =>
    if o.sub = 1 then
      (i.badLanes [o.a.toNat],
       { k := some (kSpec o.d.toNat, i.act, maskOf (i.lanes.filter (fun l => (i.a l).getLsbD 0))) })
    else (0, { v := i.lanes.map (fun l => (l, i.x.mask (kSpec o.a.toNat) &&& laneAll i.x.w, false)) }))

/-- `v.shfl`: the index operand is consumed, the data move (R354, R367). -/
def execVShfl (o : Lane) (s : State) : Out :=
  laneCompute s 0x60 o always (fun i =>
    let n := i.n
    let pick (l j : Nat) : Nat × Bool :=
      let p := elem i.e j (i.b l)
      if p < i.x.w * n then (elem i.e (p % n) (i.a (p / n)), i.bad o.a.toNat (p / n)) else (0, false)
    (i.badLanes [o.b.toNat],
     { v := i.lanes.map (fun l =>
         let r := (upFrom 0 n).map (pick l)
         (l, BitVec.ofNat 64 (ofElems i.e (r.map Prod.fst)), r.any Prod.snd)) }))

/-- `v.bcast` (R367). -/
def execVBcast (o : Lane) (s : State) : Out :=
  let src := bits o.imm.toNat 5 0
  moveForm s 0x61 o (illegalUnless (fun i => decide (src < i.x.w))) (fun i _ =>
    let (v, p) := i.word o.a.toNat src
    (replicate i.e (elem i.e (bits o.imm.toNat 13 8) v), p))

/-- `v.rot`, `v.rot.dn`, `v.rot.up` (R367). -/
def execVRot (o : Lane) (s : State) : Out :=
  let r := bits o.imm.toNat 6 0
  moveForm s 0x62 o (illegalUnless (fun i => decide (r < i.x.w))) (fun i l =>
    match o.sub.toNat with
    | 0 => i.word o.a.toNat ((l + r) % i.x.w)
    | 1 => if l + r < i.x.w then i.word o.a.toNat (l + r) else (0, false)
    | _ => if r ≤ l then i.word o.a.toNat (l - r) else (0, false))

/-- `v.xtr` (R367). -/
def execVXtr (o : Lane) (s : State) : Out :=
  moveForm s 0x68 o always (fun i l =>
    let (v, p) := i.word o.a.toNat l
    let x := elem i.e (bits o.imm.toNat 5 0) v
    (if tySigned i.ty then sext64 i.e x else BitVec.ofNat 64 x, p))

/-- `v.ins`: a destination word that keeps bits keeps its poison (R354, R367). -/
def execVIns (o : Lane) (s : State) : Out :=
  moveForm s 0x69 o always (fun i l =>
    let (v, p) := i.word o.a.toNat l
    (setElem i.e (bits o.imm.toNat 5 0) (i.dOld l) (elem i.e 0 v), p || (decide (1 < i.n) && i.bad o.d.toNat l)))

/-- `v.vote` (R368). -/
def execVVote (o : Lane) (s : State) : Out :=
  laneCompute s 0x63 o always (fun i =>
    let ballot := maskOf (i.lanes.filter (fun l => i.a l != 0))
    let r : W64 := match o.sub.toNat with
      | 0 => ballot
      | 1 => BitVec.ofNat 64 (b2n (ballot != 0))
      | 2 => BitVec.ofNat 64 (b2n (ballot == maskOf i.lanes))
      | _ => BitVec.ofNat 64 (popcount 64 ballot.toNat)
    (i.badLanes [o.a.toNat], { sc := some (o.d.toNat, r, false) }))

/-- An integer reduction on elements of a TYPE (R369). -/
def redInt (ty sub a b : Nat) : Nat :=
  match sub with
  | 0 => (a + b) % 2 ^ tyWidth ty
  | 1 => if ival ty a ≤ ival ty b then a else b
  | 2 => if ival ty a ≤ ival ty b then b else a
  | 3 => a &&& b
  | 4 => a ||| b
  | _ => a ^^^ b

/-- A reduction step with its flags (R369). -/
def redOp (ty sub a b : Nat) : Nat × FpFlags :=
  if tyInt ty then (redInt ty sub a b, 0)
  else match sub with
    | 0 => (fmtOf ty).add 0 a b
    | 1 => (fmtOf ty).fmin a b
    | _ => (fmtOf ty).fmax a b

/-- The identity of a reduction (R369). -/
def redIdentity (ty sub : Nat) : Nat :=
  if tyInt ty then
    (match sub with
     | 1 => wrap (tyWidth ty) (tyMax ty)
     | 2 => wrap (tyWidth ty) (tyMin ty)
     | 3 => 2 ^ tyWidth ty - 1
     | _ => 0)
  else match sub with
    | 1 => (fmtOf ty).infinity false
    | 2 => (fmtOf ty).infinity true
    | _ => 0

/-- One round of the pairwise reduction: neighbours combine where both are present. -/
def reduceRound (f : Nat → Nat → Nat × FpFlags) : List (Option Nat) → List (Option Nat) × FpFlags
  | a :: b :: r =>
    let (l, g) := reduceRound f r
    match a, b with
    | some x, some y => let (z, h) := f x y; (some z :: l, g ||| h)
    | some x, none => (some x :: l, g)
    | none, y => (y :: l, g)
  | l => (l, 0)

/-- The pairwise reduction of R369, halving until one position is left. -/
def reduceTree (f : Nat → Nat → Nat × FpFlags) : Nat → List (Option Nat) → Option Nat × FpFlags
  | 0, l => (l.headD none, 0)
  | n + 1, l =>
    if l.length ≤ 1 then (l.headD none, 0)
    else
      let (m, g) := reduceRound f l
      let (r, h) := reduceTree f n m
      (r, g ||| h)

/-- `v.sred` (R369). -/
def execVSred (o : Lane) (s : State) : Out :=
  laneCompute s 0x64 o always (fun i =>
    let x := (upFrom 0 i.x.w).flatMap (fun l => (upFrom 0 i.n).map (fun j =>
      if i.act.getLsbD l then some (elem i.e j (i.a l)) else none))
    let (r, g) := reduceTree (redOp i.ty o.sub.toNat) 10 x
    let v := r.getD (redIdentity i.ty o.sub.toNat)
    (i.badLanes [o.a.toNat], { sc := some (o.d.toNat, if tySigned i.ty then sext64 i.e v else BitVec.ofNat 64 v, false), flags := g }))

/-- The running reductions of a list, with or without the element's own position. -/
def scanFrom (f : Nat → Nat → Nat) (excl : Bool) : Nat → List Nat → List Nat
  | _, [] => []
  | acc, x :: r => let y := f acc x; (if excl then acc else y) :: scanFrom f excl y r

/-- The elements of a list, `n` to a word. -/
def chunk (n : Nat) : Nat → List Nat → List (List Nat)
  | 0, _ => []
  | fuel + 1, l => if l = [] then [] else l.take n :: chunk n fuel (l.drop n)

/-- `v.scan` (R369). -/
def execVScan (o : Lane) (s : State) : Out :=
  laneCompute s 0x65 o always (fun i =>
    let x := i.lanes.flatMap (fun l => (upFrom 0 i.n).map (fun j => elem i.e j (i.a l)))
    let r := scanFrom (redInt i.ty o.sub.toNat) (o.mod == 1) (redIdentity i.ty o.sub.toNat) x
    (i.badLanes [o.a.toNat],
     { v := (i.lanes.zip (chunk i.n 64 r)).map (fun e => (e.1, BitVec.ofNat 64 (ofElems i.e e.2), false)) }))

/-- `v.tos`: moved, and written only when some lane is active (R368). -/
def execVTos (o : Lane) (s : State) : Out :=
  let src := bits o.imm.toNat 5 0
  laneCompute s 0x66 o (illegalUnless (fun i => decide (src < i.x.w))) (fun i =>
    let (v, p) := i.word o.a.toNat src
    (0, { sc := if i.act = 0 then none else some (o.d.toNat, v, p) }))

/-- `v.froms`: sA is consumed, with any lane active or none (R330, R354, R368). -/
def execVFroms (o : Lane) (s : State) : Out :=
  laneIssue s 0x67 o always (fun _ => []) (fun i =>
    let v := i.x.sAt o.a.toNat
    let w := if i.ty = 3 then v else replicate i.e v.toNat
    if i.x.sBad o.a.toNat then .trap s (laneCause .poison i.act i.x.w)
    else laneDone s 0x67 o i { v := i.lanes.map (fun l => (l, w, false)) })

end Sys2Proof.Machine
end

