-- ==== Sys2Proof/Machine/Power.lean ====
section
/-! DEFINITION. Power modes, the limiter, thermal limits and health monitors (R14-R23, R161). -/

namespace Sys2Proof.Machine

open Sys2Proof

/-- A domain's number, and its full rate. -/
def domainNum : PowerDomain → Nat
  | .matrix => 0 | .lanes => 1 | .hbm => 2 | .fabric => 3
def fullRate : Nat := 2 ^ 20

/-- The table of R16: core and matrix ceilings in MHz, HBM pin rate in Gb/s, and the budgets in W of the matrix, lanes, HBM and fabric
domains. -/
structure PowerMode where
  core : Nat
  matrix : Nat
  pinRate : Nat
  budgets : List Nat
  deriving DecidableEq, Repr

def powerMode (mode : Nat) : PowerMode :=
  match mode with
  | 0 => { core := 1700, matrix := 1700, pinRate := 10, budgets := [1400, 380, 320, 180] }
  | 1 => { core := 1700, matrix := 1700, pinRate := 10, budgets := [1500, 300, 320, 160] }
  | 2 => { core := 1700, matrix := 1200, pinRate := 10, budgets := [1000, 420, 420, 440] }
  | _ => { core := 1700, matrix := 850, pinRate := 10, budgets := [700, 1000, 360, 220] }

/-- The mode whose ceilings and budgets apply (R17, R18). -/
def State.modeNow (s : State) : PowerMode := powerMode (s.regF aPwrState 24 23)

/-- Budget of a domain in W (R16). -/
def State.budget (s : State) (d : PowerDomain) : Nat := s.modeNow.budgets.getD (domainNum d) 0

/-- A rate of a ceiling, as a register reports it (R17, R19). -/
def reported (tick ceiling rate : Nat) : Nat :=
  let n := ceiling * rate
  n / fullRate + (if n % fullRate ≠ 0 ∧ Config.roundUp tick = true then 1 else 0)

/-- The registers report the rates in force; the matrix engine steps on core clocks, so that its rate is at most theirs (R17, R19). -/
def State.reportRates (s : State) : State :=
  let r (d : Nat) : Nat := Tab.get fullRate s.power.rate d
  let core := reported s.tick s.modeNow.core (r 1)
  let s1 := s.setRegF aPwrState 21 11 (min core (reported s.tick s.modeNow.matrix (r 0)))
  let s2 := s1.setRegF aPwrState 10 0 core
  let s3 := s2.setRegF aPwrState 22 22 (b2n ((upFrom 0 4).any (fun d => r d != fullRate)))
  (s3.setRegF aPwrThrottle 13 8 (reported s.tick 32 (r 2))).setRegF aPwrThrottle 5 0 (reported s.tick 32 (r 3))

/-- Sets the rate of a domain. -/
def State.setRate (s : State) (d rate : Nat) : State :=
  ({ s with power := { s.power with rate := Tab.set fullRate s.power.rate d rate } } : State).reportRates

def State.rate (s : State) (d : Nat) : Nat := Tab.get fullRate s.power.rate d

/-- Lowers a domain by 1/32 of its ceiling, never below 1/32 of it (R19). -/
def State.lowerRate (s : State) (d : Nat) : State :=
  let step := fullRate / 32
  if s.rate d ≤ step then s else s.setRate d (max step (s.rate d - step))

/-- A write of `PWR_MODE` (R18). -/
def State.writePwrMode (s : State) (v : Nat) : State :=
  let mode := v % 4
  let s1 := s.setRegF aPwrMode 1 0 mode
  if mode = s.regF aPwrState 24 23 then { s1 with power := { s1.power with pending := none } }
  else
    let s2 : State := { s1 with power := { s1.power with pending := some mode } }
    if s2.agenda.contains .pwrModeChange then s2 else s2.push [.pwrModeChange]

/-- PWR_MODE_WRITE (R18). -/
def execPwrModeWrite (v : W32) (s : State) : Out := .next (s.writePwrMode v.toNat)

/-- PWR_MODE_CHANGE: the mode asked for is in force (R18). -/
def execPwrModeChange (s : State) : Out :=
  .next (match s.power.pending with
    | none => s
    | some m => (({ s with power := { s.power with pending := none } } : State).setRegF aPwrState 24 23 m).reportRates)

/-- LIMITER_LOWER: an interval of the limiter at which a domain draws this power. Above its budget, or while the junction is above 95 °C, its
rate is lowered (R19, R23). -/
def execLimiterLower (p : PowerReading) (s : State) : Out :=
  .next (if s.power.hot || decide (s.budget p.domain < p.watts) then s.lowerRate (domainNum p.domain) else s)

/-- A domain has stayed below 95 % of its budget at each of the ten intervals of 1 ms (R19). -/
def State.under (s : State) (d : PowerDomain) (watts : List Nat) : Bool :=
  decide (10 ≤ watts.length) && watts.all (fun w => decide (100 * w < 95 * s.budget d))

/-- LIMITER_RAISE: a domain has drawn these powers at the intervals of the last 1 ms, the newest first. Below 95 % of its budget throughout
its rate is raised; while the junction is above 95 °C every domain counts as over budget (R19, R23). -/
def execLimiterRaise (p : PowerHistory) (s : State) : Out :=
  .next (if !s.power.hot && s.under p.domain (p.watts.take 10) then
      s.setRate (domainNum p.domain) (min fullRate (s.rate (domainNum p.domain) + fullRate / 32))
    else s)

/-- Package power is averaged again over 1 ms (R17): what it is, is measured. -/
def State.measurePackage (s : State) : State := s.draw.setRegF aPwrPkg 15 0 (Config.measured s.tick % 2 ^ 16)

/-- CURRENT_TRIP: the matrix step rate halves (R19). -/
def execCurrentTrip (s : State) : Out := .next (s.setRate 0 (s.rate 0 / 2))

/-- THERMAL_THROTTLE: an interval of the limiter above, or again not above, 95 °C (R23). -/
def execThermalThrottle (above : Bool) (s : State) : Out :=
  let s1 : State := { s with power := { s.power with hot := above } }
  .next (if above then (upFrom 0 4).foldl State.lowerRate s1 else s1)

/-- HBM_HOT_REFRESH: above, or again not above, 85 °C (R23). -/
def execHbmHotRefresh (above : Bool) (s : State) : Out := .next { s with power := { s.power with hotRefresh := above } }

/-- THERMAL_TRIP: every clock stops until a module reset (R23). -/
def execThermalTrip (s : State) : Out := .next (({ s with power := { s.power with stopped := true } } : State).send .thermalTrip)

/-- Retirements are scheduled; they take effect at the next module reset (R15, R22). -/
def State.retire (s : State) (creels channels : List Nat) : State :=
  let p := s.power
  let s1 : State := { s with power := { p with retireCreels := (p.retireCreels ++ creels).eraseDups
                                               retireChannels := (p.retireChannels ++ channels).eraseDups } }
  if s1.power.retireCreels = [] ∧ s1.power.retireChannels = [] then s1 else s1.setRegF aModUnits 31 31 1

/-- A channel's corrected-error rate is measured: a first crossing of 1,000 sets CE_OVER and schedules its retirement (R22, R161). The channels
that are enabled are those below HBM_CH, which is the model's choice, as is their new numbering after a retirement (R15; log 98). -/
def State.channelRate (s : State) (c rate : Nat) : State :=
  if s.regF aModMem 8 0 ≤ c then s
  else
    let s1 := s.setRegN (aCeCh c) (min rate 0xFFFF)
    if rate ≤ 1000 ∨ Tab.get false s1.power.crossed c = true then s1
    else
      let s2 : State := { s1 with power := { s1.power with crossed := Tab.set false s1.power.crossed c true } }
      (s2.setErr 1 8).retire [] [c]

/-- Units left for a monitor: Hampers, channels of each stack, UALink lanes. -/
def State.unitsLeft (s : State) (monitor : Nat) : List Nat :=
  match monitor with
  | 0 => [s.hampersLeft]
  | 1 => s.stacksLeft
  | _ => [s.regF aModUnits 30 24]

/-- The floors of R14 that retirement can reach are breached: 176 Hampers, 28 channels in each stack. -/
def State.belowFloor (s : State) (monitor : Nat) : Bool :=
  match monitor with
  | 0 => decide (s.hampersLeft < 176)
  | 1 => s.stacksLeft.any (fun n => decide (n < 28))
  | _ => false

/-- Readings of a monitor over 90 days: drifts, channel rates, margins. -/
def monitorReadings (h : List HealthReading) (monitor : Nat) : List (List Nat) :=
  h.map (fun r => match monitor with
    | 0 => (upFrom 0 192).map (fun i => (Tab.get 0 r.drift i).toNat)
    | 1 => (upFrom 0 256).map (fun i => Tab.get 0 r.ceRate i)
    | _ => (upFrom 0 38).map (fun i => (Tab.get 0 r.margin i).toNat))

/-- The day that a monitor predicts: none beyond 65,534 days (R21, R22; log 97). -/
def State.eolDay (s : State) (monitor : Nat) : Option Nat :=
  if s.belowFloor monitor then some 0
  else
    let d := Config.trendDay monitor (monitorReadings s.power.history monitor) (s.unitsLeft monitor)
    if d ≤ 65534 then some d else none

/-- `HLT_EOL`: the monitor that reaches its floor first, and its day; 3 and 0xFFFF where none does (R21, R22). -/
def State.endOfLife (s : State) : Nat :=
  let l := (upFrom 0 3).filterMap (fun k => (s.eolDay k).map (fun d => (k, d)))
  match l with
  | [] => 3 * 2 ^ 16 + 0xFFFF
  | e :: r => let best := r.foldl (fun a b => if b.2 < a.2 then b else a) e
              best.1 * 2 ^ 16 + best.2

/-- HEALTH_REFRESH: the registers take what the monitors read; slow Hamper pairs and erring channels are scheduled for retirement, and the end
of life is predicted from the readings of 90 days (R14, R21, R22). -/
def execHealthRefresh (h : HealthReading) (s : State) : Out :=
  let n := s.hampers
  let s1 := (upFrom 0 n).foldl (fun s i => s.setRegN (aHltDrift i) (Tab.get 0 h.drift i).toNat) s
  let s2 := (upFrom 0 8).foldl (fun s i => s.setRegN (aHltTrend i) (Tab.get 0 h.trend i).toNat) s1
  let s3 := (upFrom 0 38).foldl (fun s i => s.setRegN (aHltMargin i) (Tab.get 0 h.margin i).toNat) s2
  let s4 : State := { s3 with power := { s3.power with history := (h :: s3.power.history).take 2160 } }
  let slow := (upFrom 0 n).filter (fun i => decide (6000 < sval 16 (Tab.get 0 h.drift i).toNat))
  let s5 := h.ceRate.foldl (fun s e => s.channelRate e.1 e.2) (s4.retire (slow.map (fun i => i / 2)) [])
  .next (s5.setRegN aHltEol s5.endOfLife)

/-- CE_THRESHOLD (R161). -/
def execCeThreshold (c rate : Nat) (s : State) : Out := .next (s.channelRate c rate)

end Sys2Proof.Machine
end

