-- ==== Sys2Proof/Machine/Registers.lean ====
section
/-! DEFINITION. Loads and stores of the memory-mapped registers by Yoke harts and by the host, and the accesses of Yoke harts (R4, R5, R12,
R13, R18, R26, R27, R33, R38, R39, R61-R63, R78, R144, R184, R231, R269, R450, R453). -/

namespace Sys2Proof.Machine

open Sys2Proof

/-- The nearer limit of a range. -/
def clamp (lo hi n : Nat) : Nat := if n < lo then lo else if hi < n then hi else n

/-- A field of a number set to the nearer limit of its range. -/
def clampField (v h l lo hi : Nat) : Nat := setBits v h l (clamp lo hi (bits v h l))

/-- Fields of a register whose written values have limits (R38, R78, R184, R231, R266, R269). -/
def limited (a v : Nat) : Nat :=
  if a = aQrcCfg then clampField (clampField (clampField v 44 32 0 4096) 23 20 0 12) 11 0 50 4000
  else if a = aBteCfg then clampField (clampField (clampField v 10 0 0 1024) 27 24 0 12) 23 12 50 4000
  else if a = aPlyCfg then clampField v 6 0 0 64
  else if a = aSmpCfg then clampField (clampField v 20 16 8 20) 4 0 6 20
  else if a = aTrcCfg then clampField v 4 0 12 30
  else if a = aLogCfg then clampField v 4 0 6 24
  else if a = aFabCfg then clampField v 13 10 0 8
  else if inSlots a (aWatchAddr 0) 16 ∧ (a - aWatchAddr 0) % 16 = 8 then clampField v 13 8 3 40
  else v

/-- PLANES values that are supported (R38). -/
def planesOk (n : Nat) : Bool := [4, 6, 9, 12, 18, 36].contains n

/-- A write that leaves fields, or the whole register, as they stand: rings in use, regions valid, ports up, units that are not enabled
(R38, R144, R185, R269; log 68). -/
def State.kept (s : State) (a v : Nat) : Nat :=
  let old := s.regN a
  let smp := bit (s.regN aSmpCfg) 32
  let trc := bit (s.regN aTrcCfg) 32
  let rpl := bit (s.regN aFabReplay) 0
  if a = aSmpCfg ∧ smp = true then setBits v 4 0 (bits old 4 0)
  else if a = aTrcCfg ∧ trc = true then setBits v 4 0 (bits old 4 0)
  else if (a = aSmpBase ∧ smp = true) ∨ (a = aTrcBase ∧ trc = true) ∨ ((a = aLogCfg ∨ a = aLogBase) ∧ rpl = true) then old
  else if a = aPlyCfg then (if s.regions = [] then v else setBits v 6 0 (bits old 6 0))
  else if a = aFabCfg then
    (if (upFrom 0 36).any s.portUp then old else if planesOk (bits v 5 0) then v else setBits v 5 0 (bits old 5 0))
  else if inSlots a (aFifoAsid 0) 192 ∧ s.hampers ≤ (a - aFifoAsid 0) / 8 then old
  else v

/-- What a store of some bits makes of a register under the access types of its fields (R4, R453). -/
def State.stored (s : State) (a mask v : Nat) : Nat :=
  let i := regInfo a
  let old := s.regN a
  let rw := i.rw &&& mask
  let off := i.w1c &&& mask &&& v
  (old ^^^ (old &&& rw)) ^^^ ((old ^^^ (old &&& rw)) &&& off) ||| (v &&& rw)

/-- What follows when a register has been stored to: the operation that it starts, or what hangs on its value. -/
def State.regEffect (s : State) (hart a old : Nat) : State :=
  let v := s.regN a
  if a = aUpcDone then s.upcDone (bits v 31 0)
  else if a = aFltResume then s.fltResume v
  else if a = aFltRd then s.retryRflags
  else if a = aSvnCommit then s.svnCommit v
  else if a = aMeasExtend then s.measWrite hart v
  else if a = aQrcCmd then s.qrcCommand v
  else if a = aCtxCfg then s.wantPlace
  else if a = aCoilCmd then s.coilCommand (bits v 1 0)
  else if a = aTrapCmd then s.trapCommand v
  else if a = aTlbCmd then s.tlbCommand v
  else if a = aBteQcmd then s.bteCommand hart v
  else if a = aDbgCmd then ({ s with debugUnit := { s.debugUnit with commander := hart } } : State).dbgCommand v
  else if a = aTrcCfg then s.traceCfg old
  else if a = aFabReplay ∧ bit v 0 = true ∧ bit old 0 = false then
    { s with fabric := { s.fabric with arrivals := 0 }, debugUnit := { s.debugUnit with hostWrites := 0 } }
  else if a = aMbxIdx2 then s.flushMail s.link.mail.length
  else s

/-- A store to a hart's own `YOK_MEAS_DATA` (R63). -/
def State.setMeasData (s : State) (k mask v : Nat) : State :=
  let old := (Tab.get 0 s.measData k).toNat
  let new := (old ^^^ (old &&& mask)) ||| (v &&& mask)
  { s with measData := Tab.set 0 s.measData k (BitVec.ofNat 64 new) }

/-- A store of the bits of `mask` to slot `a` by a hart; 16 stands for the host (R453). -/
def State.slotStore (s : State) (hart a mask v : Nat) : State :=
  let n := limited a (s.stored a mask v)
  if inSlots a aMeasData 4 then
    s.setMeasData (4 * hart + (a - aMeasData) / 8) mask v
  else if a = aUpcCfg then s.ringCfg false n
  else if a = aFltCfg then s.ringCfg true n
  else if a = aPwrMode then (if mask % 2 ^ 32 = 0 then s else s.writePwrMode n)
  else if a = aRecGo then (if bit (v &&& mask) 0 then s.recoverGo else s)
  else if inSlots a (aBankRole 0) 192 then
    (if (a - aBankRole 0) / 8 < s.hampers then s.writeRoles ((a - aBankRole 0) / 8) n else s)
  else if inSlots a (aPlyRgn 0) 256 then s.writeRegion ((a - aPlyRgn 0) / 8) n
  else (s.setRegN a (s.kept a n)).regEffect hart a (s.regN a)

/-- The counts that the ply registers show (R184). -/
def State.plySnapsReg (s : State) : Nat :=
  s.regF aPlySnaps 63 32 * 2 ^ 32 + (s.ply.snaps.filter (fun e => e.2.revoked)).length * 2 ^ 16 + s.ply.snaps.length

/-- What slot `a` reads as, for a hart: registers that show the state of a unit are computed (R12, R45, R63, R78, R130, R144, R147, R184,
R269). -/
def State.slotRead (s : State) (hart a : Nat) : Nat :=
  let n := s.hampers
  if inSlots a aMeasData 4 then (Tab.get 0 s.measData (4 * hart + (a - aMeasData) / 8)).toNat
  else if a = aFwxStat then setBits (s.regN a) 3 0 (s.queues.filter (fun e => e.2.worker)).length
  else if a = aCtxCfg then setBits (s.regN a) 47 32 (s.regF aCtxCfg 15 0 - s.slots.length)
  else if inSlots a (aBankState 0) 192 then
    (let h := (a - aBankState 0) / 8
     if h < n then (upFrom 0 30).foldl (fun v b => setBits v (2 * b + 1) (2 * b) (s.role h b)) (b2n (s.rolePending h) * 2 ^ 63) else 0)
  else if inSlots a (aBankRole 0) 192 ∧ n ≤ (a - aBankRole 0) / 8 then 0
  else if inSlots a (aFifoAsid 0) 192 ∧ n ≤ (a - aFifoAsid 0) / 8 then 0
  else if inSlots a (aCeCh 0) 256 ∧ s.regF aModMem 8 0 ≤ (a - aCeCh 0) / 8 then 0
  else if inSlots a (aHltDrift 0) 192 ∧ n ≤ (a - aHltDrift 0) / 8 then 0
  else if a = aPlyClock then s.ply.pub % 2 ^ 64
  else if a = aPlyLow then s.ply.low % 2 ^ 64
  else if a = aPlySnaps then s.plySnapsReg
  else if a = aPlySlots then s.plyFree % 2 ^ 32 * 2 ^ 32 + s.plyTotal % 2 ^ 32
  else if a = aDbgClock then s.clock % 2 ^ 64
  else if inSlots a (aPortStat 0) 36 then setBits (s.regN a) 13 8 ((a - aPortStat 0) / 8 / (36 / s.regF aFabCfg 5 0))
  else s.regN a

/-- The slot that a byte of BAR 0 lies in, and whether it is a register's: the boot registers, the module block, the mailbox indices
(R13, R26, R28). -/
def bar0Slot (off : Nat) : Option Nat :=
  let o := off / 8 * 8
  if 0x1000 ≤ off ∧ off < 0x2000 then some (modBase + (o - 0x1000))
  else if off < 0x1000 ∨ o = 0x180000 ∨ o = 0x180008 then some (hstBase + o)
  else none

/-- Bytes of BAR 0 that are no register: the mailbox rings and the staging area (R26, R28, R33). -/
def State.bar0Byte (s : State) (off : Nat) : Byte :=
  if 0x100000 ≤ off ∧ off < 0x180000 then Tab.get Config.blank s.link.mailbox (off - 0x100000)
  else if 0x800000 ≤ off ∧ off < 0x1000000 then Tab.get Config.blank s.link.staging (off - 0x800000)
  else 0

/-- An offset of the mailbox (R26). -/
def inMailbox (off : Nat) : Bool := decide (0x100000 ≤ off) && decide (off < 0x200000)

/-- An access of `n` naturally aligned bytes. -/
def aligned (a n : Nat) : Bool := (n == 1 || n == 2 || n == 4 || n == 8) && a % n == 0

/-- `n` bytes of a slot from a byte address. -/
def sliceAt (a n v : Nat) : Nat := v / 2 ^ (8 * (a % 8)) % 2 ^ (8 * n)

/-- The RC fields of a slot are cleared by a load that returns any of their bits (R4, R453). -/
def State.readClear (s : State) (slot a n : Nat) : State :=
  let rc := (regInfo slot).rc
  if sliceAt a n rc = 0 then s else s.setRegN slot (s.regN slot ^^^ (s.regN slot &&& rc))

/-- A load of a register space by a hart: the value, with RC fields cleared. -/
def State.regLoad (s : State) (hart a n : Nat) : Nat × State :=
  let slot := a / 8 * 8
  (sliceAt a n (s.slotRead hart slot), s.readClear slot a n)

/-- A store of 4 or 8 aligned bytes to a register space by a hart. -/
def State.regStore (s : State) (hart a n v : Nat) : State :=
  s.slotStore hart (a / 8 * 8) ((2 ^ (8 * n) - 1) * 2 ^ (8 * (a % 8))) (v % 2 ^ (8 * n) * 2 ^ (8 * (a % 8)))

/-- A host load from BAR 0: any other size or alignment reads zero; the mailbox reads zero before READY (R26, R27, R453). -/
def State.bar0Load (s : State) (off n : Nat) : Nat × State :=
  if !aligned off n || (inMailbox off && !s.bootDone) then (0, s)
  else match bar0Slot off with
    | some slot => (sliceAt off n (s.slotRead 16 slot), s.readClear slot off n)
    | none => (ofBytes ((upFrom off n).map s.bar0Byte), s)

/-- A host store to BAR 0: any other size or alignment is discarded, and so is one to the mailbox before READY (R26, R27, R453). -/
def State.bar0Store (s : State) (off n v : Nat) : State :=
  if !(aligned off n && decide (4 ≤ n)) || (inMailbox off && !s.bootDone) then s
  else
    let s1 := s.logHost 1 off (toBytes n v)
    match bar0Slot off with
    | some slot => s1.slotStore 16 slot ((2 ^ (8 * n) - 1) * 2 ^ (8 * (off % 8))) (v % 2 ^ (8 * n) * 2 ^ (8 * (off % 8)))
    | none =>
      if 0x100000 ≤ off ∧ off < 0x180000 then
        { s1 with link := { s1.link with mailbox := Tab.setRun Config.blank s1.link.mailbox (off - 0x100000) (toBytes n v) } }
      else if 0x800000 ≤ off ∧ off < 0x1000000 then
        { s1 with link := { s1.link with staging := Tab.setRun Config.blank s1.link.staging (off - 0x800000) (toBytes n v) } }
      else s1

/-- A STOP of the debugger has not taken effect: a coil that it has stopped is still to be saved (R270). -/
def State.stopPending (s : State) : Bool :=
  s.coils.any (fun e => e.2.debugStop && e.2.stopWhy.1 == 0 && (match e.2.residency with | .stopping _ => true | _ => false))

/-- A hart's command is still to take effect: its `BTE_QCMD` write drains a queue, a `QRC_CMD` CLOSE waits for the packet in execution, or for a
lock-step pair that is halted, or its `DBG_CMD` STOP waits for coils to be saved (R79, R231, R270; log 56). -/
def State.commandPending (s : State) (hart pa : Nat) : Bool :=
  (s.stopPending && (s.debugUnit.commander == hart || pa == aDbgCmd)) || s.bte.any (fun e => match e.2.draining with | some (h, _, _) => h == hart || pa == aBteQcmd | none => false)
    || (s.queues.any (fun e => e.2.closing) && decide (fwxBase ≤ pa) && decide (pa < memBase)) || (s.halted && pa == aQrcCmd)

/-- An access to a register space by a hart (R453): what it does, with the answer sent. -/
def State.yokeReg (s : State) (hart pa size : Nat) (value : W64) : YokeKind → State
  | .load =>
    if !aligned pa size then s.send (.yokeFault hart false)
    else
      let (v, s1) := s.regLoad hart pa size
      s1.send (.yokeResult hart (BitVec.ofNat 64 v) false)
  | .store => if aligned pa size && decide (4 ≤ size) then s.regStore hart pa size value.toNat else s.send (.yokeFault hart true)
  | .amo _ _ => s.send (.yokeFault hart true)
  | .lr => s.send (.yokeFault hart true)
  | .sc => s.send (.yokeFault hart true)
  | .fence _ => s

/-- REGISTER_WRITE: a Yoke hart's store to a register space, or the host's to BAR 0 (R4, R453). -/
def execRegisterWrite (hart pa size : Nat) (value : W64) (s : State) : Out :=
  .next (if hstBase ≤ pa then s.bar0Store (pa - hstBase) size value.toNat
    else if !inRegSpace pa then s
    else if s.commandPending hart pa then s.wait
    else s.yokeReg hart pa size value .store)

/-- REGISTER_READ_CLEAR: a load, by a Yoke hart or by the host, of a slot with an RC field (R4, R453; log 69). -/
def execRegisterReadClear (pa size : Nat) (s : State) : Out :=
  .next (if hstBase ≤ pa then
      (let (v, s1) := s.bar0Load (pa - hstBase) size
       s1.send (.barRead (toBytes size v)))
    else if !inRegSpace pa then s
    else s.draw.yokeReg (Config.choice s.tick % 16) pa size 0 .load)

/-- The access kind of a Yoke operation. -/
def yokeAccess : YokeKind → AccessKind
  | .load => .read
  | .store => .write
  | .amo _ _ => .atomic
  | .lr => .read
  | .sc => .write
  | .fence _ => .read

/-- TYPE of an AMO's element, as the atomics of R378 number it. -/
def amoType (size : Nat) (signed : Bool) : Nat := (if size = 4 then 2 else 3) + (if signed then 4 else 0)

/-- A hart's reservation is made, in place of the one it had (R61). -/
def State.reserve (s : State) (hart pa n : Nat) : State := { s with resv := (hart, pa, n) :: s.resv.filter (fun r => r.1 != hart) }

/-- Any reservation of a hart is gone. -/
def State.unreserve (s : State) (hart : Nat) : State := { s with resv := s.resv.filter (fun r => r.1 != hart) }

/-- A Yoke access to device memory. An SC that finds its reservation may fail all the same, as RVA23 allows (R61, R62, R204; log 95). -/
def State.yokeMem (s : State) (a : YokeAccess) : State :=
  match a.kind with
  | .load =>
    let (l, bad, s1) := s.readOut a.pa a.size
    s1.send (.yokeResult a.hart (BitVec.ofNat 64 (ofBytes l)) bad)
  | .store => s.withUnsnooped a.pa a.size (fun s => s.write a.pa (toBytes a.size a.value.toNat) false)
  | .amo op sg => s.withUnsnooped a.pa a.size (fun s =>
      if s.inCarve a.pa then (s.setErr 2 2).send (.yokeResult a.hart 0 false)
      else
        let ty := amoType a.size sg
        let m := 2 ^ (8 * a.size)
        let (old, bad, _, s1) := s.rmw .current 0 0 0 (.mem a.pa) a.size (fun x => atomicNew op ty x (a.value.toNat % m) (a.comparand.toNat % m))
        s1.send (.yokeResult a.hart (BitVec.ofNat 64 old) bad))
  | .lr =>
    let (l, bad, s1) := s.readOut a.pa a.size
    (s1.reserve a.hart a.pa a.size).send (.yokeResult a.hart (BitVec.ofNat 64 (ofBytes l)) bad)
  | .sc =>
    if s.resv.contains (a.hart, a.pa, a.size) && decide (Config.choice s.tick % 2 = 0) then
      s.withUnsnooped a.pa a.size (fun s =>
        ((s.draw.write a.pa (toBytes a.size a.value.toNat) false).unreserve a.hart).send (.yokeResult a.hart 0 false))
    else (s.draw.unreserve a.hart).send (.yokeResult a.hart 1 false)
  | .fence _ => s

/-- LR or SC: only this device's memory has reservations (log 95). -/
def isReserving : YokeKind → Bool
  | .lr => true
  | .sc => true
  | _ => false

/-- A Yoke access that leaves the device, through the peer window or the host window (R40-R42, R52, R143). -/
def State.yokeRemote (s : State) (a : YokeAccess) (p : Place) : State :=
  let (op, ty) := match a.kind with | .amo op sg => (op, amoType a.size sg) | _ => (.add, 3)
  let isAmo := match a.kind with | .amo _ _ => true | _ => false
  if isReserving a.kind then s.send (.yokeFault a.hart (a.kind == .sc))
  else if isAmo && !pcieHas op a.size && (match p with | .host _ => true | _ => s.regF aFabCfg 8 8 == 1) then s.send (.yokeFault a.hart true)
  else
    let data := match a.kind with
      | .store => toBytes a.size a.value.toNat
      | .amo _ _ => toBytes a.size a.value.toNat ++ (if op = .cas then toBytes a.size a.comparand.toNat else [])
      | _ => []
    (s.sendAll { p := noPath, op := 0, parts := [], kind := yokeAccess a.kind, size := a.size, reader := some (.yoke a.hart)
                 atom := if isAmo then some (op, ty) else none, acq := a.aq }
      [{ lane := 0, place := p, va := a.va, dst := 2 ^ 20, data := data }]).2

/-- A Yoke access through the peer window (R40-R42; log 70). -/
def State.yokePeer (s : State) (a : YokeAccess) : State :=
  let k := yokeAccess a.kind
  match s.peerPlace a.asid { kind := k, va := a.va.toNat, size := a.size } with
  | .inl c => (s.noteUnreach c).send (.yokeFault a.hart (kindWrites k))
  | .inr (.self off key) => (match s.exportPa key off k with
    | some pa => s.yokeMem { a with pa := pa }
    | none => s.send (.yokeFault a.hart (kindWrites k)))
  | .inr p => s.yokeRemote a p

/-- Two ranges of bytes meet. -/
def meets (a n b m : Nat) : Bool := decide (a < b + m) && decide (b < a + n)

/-- A hart's access waits for answers from outside: those of an acquire, those of its earlier accesses to the same bytes, and, for a release that
goes outside and for a .sys fence, all of them (R61, R162, R169, R183). -/
def State.yokeWaits (s : State) (a : YokeAccess) : Bool :=
  let far := inPeerWin a.va.toNat || inHostWin a.pa
  s.remotes.any (fun e => e.2.reader == some (.yoke a.hart)
    && (e.2.acq || a.kind == .fence true || (a.rl && far) || e.2.parts.any (fun p => meets p.va.toNat p.len a.va.toNat a.size)))

/-- YOKE_MEMORY_ACCESS (R61, R62, R450, R453). A .dev fence, and a release of a local access, find every earlier local access performed. -/
def execYokeMemoryAccess (a : YokeAccess) (s : State) : Out :=
  .next (let k := yokeAccess a.kind
    if s.yokeWaits a then s.wait
    else if (match a.kind with | .fence _ => true | _ => false) then s
    else if s.commandPending a.hart a.pa then s.wait
    else if (s.winOff a.asid a.va.toNat).isSome then s.send (.yokeFault a.hart (kindWrites k))
    else if inPeerWin a.va.toNat then s.yokePeer a
    else if inRegSpace a.pa then s.yokeReg a.hart a.pa a.size a.value a.kind
    else if inHostWin a.pa then s.yokeRemote a (.host a.pa)
    else if a.pa + a.size ≤ s.memBytes then s.yokeMem a
    else s.send (.yokeFault a.hart (kindWrites k)))

end Sys2Proof.Machine
end

