-- ==== Sys2Proof/Machine/System.lean ====
section
/-! DEFINITION. Special registers and upcalls of the scalar stream (R318, R319, R321, R345, R346). -/

namespace Sys2Proof.Machine

open Sys2Proof

/-- What `srd` reads from special register `n` (R345). -/
def specialRead (s : State) (x : Issuer) (n : Nat) : W64 :=
  let num (k : Nat) : W64 := BitVec.ofNat 64 k
  match n with
  | 0x00 => x.path.scc.zeroExtend 64
  | 0x01 => num (x.path.seq.toNat * 2 ^ 32 + x.strand.cvt.toNat)
  | 0x02 => x.strand.fpf.zeroExtend 64
  | 0x03 => x.strand.mxp
  | 0x04 => x.strand.gang
  | 0x10 => num x.coil.x
  | 0x11 => num x.coil.y
  | 0x12 => num x.coil.z
  | 0x13 => num x.id.strand
  | 0x14 => num x.desc.nstr
  | 0x15 => num x.w
  | 0x16 => num x.coil.bolt
  | 0x17 => num x.hamper
  | 0x18 => num x.strand.slot
  | 0x19 => num x.id.path
  | 0x1A => x.strand.live
  | 0x1B => num s.clock
  | 0x1C => num x.coil.insnUsed
  | 0x1D => num x.asid
  | 0x1E => num ((s.swin x.asid).getD 0)
  | _ => if 8 ≤ n ∧ n ≤ 15 then Tab.get 0 x.strand.mregs (n - 8) else 0

/-- `srd`: `fpflags` waits for earlier courses and for the merges of the path (R319; log 71), the strand number and the live-lane mask for its courses (R345). -/
def execSrd (d : BitVec 6) (n : BitVec 8) (s : State) : Out :=
  scalar s (.srd d n) { writes := [d.toNat], courses := n == 2 || n == 0x13 || n == 0x1A } (fun x =>
    if n = 2 ∧ x.strand.longs.any (fun e => e.2.path == x.id.path) then .wait s
    else .go (s.setS x.id d.toNat (specialRead s x n.toNat) false))

/-- What `swr` writes to special register `n`; a read-only one has no effect (R345). -/
def specialWrite (s : State) (x : Issuer) (n : Nat) (v : W64) : State :=
  let k := x.id.coil
  let i := x.id.strand
  match n with
  | 0x00 => s.setScc x.id (v.setWidth 4)
  | 0x01 => (s.updStrand k i (fun st => { st with cvt := v.setWidth 32 })).updPath x.id (fun p => { p with seq := BitVec.ofNat 32 (v.toNat >>> 32) })
  | 0x02 => s.updStrand k i (fun st => { st with fpf := v.setWidth 5 })
  | 0x04 => s.updStrand k i (fun st => { st with gang := v &&& 0x7FFFFFFFFF })
  | _ => if 8 ≤ n ∧ n ≤ 15 then s.updStrand k i (fun st => { st with mregs := Tab.set 0 st.mregs (n - 8) v }) else s

/-- `swr`: `scc` waits for earlier courses (R345). -/
def execSwr (a : BitVec 6) (n : BitVec 8) (s : State) : Out :=
  scalar s (.swr a n) { reads := [a.toNat], courses := n == 0 } (fun x => .go (specialWrite s x n.toNat (x.s a)))

/-- `upcall`: a release, a record of kind 1, and the park (R64, R346). -/
def execUpcall (d a : BitVec 6) (service : W16) (s : State) : Out :=
  scalar s (.upcall d a service) { reads := upFrom a.toNat 4, writes := [d.toNat], courses := true } (fun x =>
    if !bit (s.regN aUpcCfg) 5 then trapNow s .upcallDisabled
    else if s.pendingWork x then .wait s
    else
      let u : UpcallReq :=
        { kind := 1, splint := splintOf x.id.path, service := service.toNat, hamper := x.hamper, slot := x.strand.slot
          bolt := x.coil.bolt, x := x.coil.x, y := x.coil.y, z := x.coil.z, asid := x.asid, arg0 := x.sAt a.toNat
          arg1 := x.sAt (a.toNat + 1), arg2 := x.sAt (a.toNat + 2), arg3 := x.sAt (a.toNat + 3), waiter := some x.id }
      .park ((s.releaseAt x 2).push [.upcallPost u]) (.upcall none d))

end Sys2Proof.Machine
end

