-- ==== Sys2Proof/Machine/Dispatch.lean ====
section
/-! DEFINITION. One arm per constructor of Instr. -/

namespace Sys2Proof.Machine

open Sys2Proof

def exec (i : Instr) (s : State) : Host.Outcome State Fault Refusal :=
  match i with
  | .add x0 x1 x2 x3 => Sys2Proof.Machine.execAdd x0 x1 x2 x3 s
  | .sub x0 x1 x2 x3 => Sys2Proof.Machine.execSub x0 x1 x2 x3 s
  | .and x0 x1 x2 x3 => Sys2Proof.Machine.execAnd x0 x1 x2 x3 s
  | .or x0 x1 x2 x3 => Sys2Proof.Machine.execOr x0 x1 x2 x3 s
  | .xor x0 x1 x2 x3 => Sys2Proof.Machine.execXor x0 x1 x2 x3 s
  | .andn x0 x1 x2 x3 => Sys2Proof.Machine.execAndn x0 x1 x2 x3 s
  | .shl x0 x1 x2 x3 => Sys2Proof.Machine.execShl x0 x1 x2 x3 s
  | .shr x0 x1 x2 x3 => Sys2Proof.Machine.execShr x0 x1 x2 x3 s
  | .sra x0 x1 x2 x3 => Sys2Proof.Machine.execSra x0 x1 x2 x3 s
  | .minS x0 x1 x2 => Sys2Proof.Machine.execMinS x0 x1 x2 s
  | .maxS x0 x1 x2 => Sys2Proof.Machine.execMaxS x0 x1 x2 s
  | .minN x0 x1 x2 => Sys2Proof.Machine.execMinN x0 x1 x2 s
  | .maxN x0 x1 x2 => Sys2Proof.Machine.execMaxN x0 x1 x2 s
  | .sadd2 x0 x1 x2 => Sys2Proof.Machine.execSadd2 x0 x1 x2 s
  | .sadd4 x0 x1 x2 => Sys2Proof.Machine.execSadd4 x0 x1 x2 s
  | .sadd8 x0 x1 x2 => Sys2Proof.Machine.execSadd8 x0 x1 x2 s
  | .sextS8 x0 x1 => Sys2Proof.Machine.execSextS8 x0 x1 s
  | .sextS16 x0 x1 => Sys2Proof.Machine.execSextS16 x0 x1 s
  | .sextS32 x0 x1 => Sys2Proof.Machine.execSextS32 x0 x1 s
  | .zextN8 x0 x1 => Sys2Proof.Machine.execZextN8 x0 x1 s
  | .zextN16 x0 x1 => Sys2Proof.Machine.execZextN16 x0 x1 s
  | .zextN32 x0 x1 => Sys2Proof.Machine.execZextN32 x0 x1 s
  | .popc x0 x1 => Sys2Proof.Machine.execPopc x0 x1 s
  | .clz x0 x1 => Sys2Proof.Machine.execClz x0 x1 s
  | .ctz x0 x1 => Sys2Proof.Machine.execCtz x0 x1 s
  | .mul x0 x1 x2 => Sys2Proof.Machine.execMul x0 x1 x2 s
  | .mulhS x0 x1 x2 => Sys2Proof.Machine.execMulhS x0 x1 x2 s
  | .mulhN x0 x1 x2 => Sys2Proof.Machine.execMulhN x0 x1 x2 s
  | .mulhSn x0 x1 x2 => Sys2Proof.Machine.execMulhSn x0 x1 x2 s
  | .divS x0 x1 x2 => Sys2Proof.Machine.execDivS x0 x1 x2 s
  | .divN x0 x1 x2 => Sys2Proof.Machine.execDivN x0 x1 x2 s
  | .remS x0 x1 x2 => Sys2Proof.Machine.execRemS x0 x1 x2 s
  | .remN x0 x1 x2 => Sys2Proof.Machine.execRemN x0 x1 x2 s
  | .addi x0 x1 x2 => Sys2Proof.Machine.execAddi x0 x1 x2 s
  | .andi x0 x1 x2 => Sys2Proof.Machine.execAndi x0 x1 x2 s
  | .ori x0 x1 x2 => Sys2Proof.Machine.execOri x0 x1 x2 s
  | .xori x0 x1 x2 => Sys2Proof.Machine.execXori x0 x1 x2 s
  | .shli x0 x1 x2 => Sys2Proof.Machine.execShli x0 x1 x2 s
  | .shri x0 x1 x2 => Sys2Proof.Machine.execShri x0 x1 x2 s
  | .srai x0 x1 x2 => Sys2Proof.Machine.execSrai x0 x1 x2 s
  | .cmpi x0 x1 => Sys2Proof.Machine.execCmpi x0 x1 s
  | .ldN8 x0 x1 x2 => Sys2Proof.Machine.execLdN8 x0 x1 x2 s
  | .ldN16 x0 x1 x2 => Sys2Proof.Machine.execLdN16 x0 x1 x2 s
  | .ldN32 x0 x1 x2 => Sys2Proof.Machine.execLdN32 x0 x1 x2 s
  | .ldB64 x0 x1 x2 => Sys2Proof.Machine.execLdB64 x0 x1 x2 s
  | .stB8 x0 x1 x2 => Sys2Proof.Machine.execStB8 x0 x1 x2 s
  | .stB16 x0 x1 x2 => Sys2Proof.Machine.execStB16 x0 x1 x2 s
  | .stB32 x0 x1 x2 => Sys2Proof.Machine.execStB32 x0 x1 x2 s
  | .stB64 x0 x1 x2 => Sys2Proof.Machine.execStB64 x0 x1 x2 s
  | .atom x0 x1 x2 x3 x4 x5 => Sys2Proof.Machine.execAtom x0 x1 x2 x3 x4 x5 s
  | .b x0 x1 => Sys2Proof.Machine.execB x0 x1 s
  | .bz x0 x1 => Sys2Proof.Machine.execBz x0 x1 s
  | .bnz x0 x1 => Sys2Proof.Machine.execBnz x0 x1 s
  | .call x0 => Sys2Proof.Machine.execCall x0 s
  | .jalr x0 x1 x2 => Sys2Proof.Machine.execJalr x0 x1 x2 s
  | .kand x0 x1 x2 => Sys2Proof.Machine.execKand x0 x1 x2 s
  | .kor x0 x1 x2 => Sys2Proof.Machine.execKor x0 x1 x2 s
  | .kxor x0 x1 x2 => Sys2Proof.Machine.execKxor x0 x1 x2 s
  | .kandn x0 x1 x2 => Sys2Proof.Machine.execKandn x0 x1 x2 s
  | .knot x0 x1 => Sys2Proof.Machine.execKnot x0 x1 s
  | .kmov x0 x1 => Sys2Proof.Machine.execKmov x0 x1 s
  | .kfroms x0 x1 => Sys2Proof.Machine.execKfroms x0 x1 s
  | .ktos x0 x1 => Sys2Proof.Machine.execKtos x0 x1 s
  | .kpopc x0 x1 => Sys2Proof.Machine.execKpopc x0 x1 s
  | .kffs x0 x1 => Sys2Proof.Machine.execKffs x0 x1 s
  | .ktest x0 x1 => Sys2Proof.Machine.execKtest x0 x1 s
  | .split x0 x1 => Sys2Proof.Machine.execSplit x0 x1 s
  | .join x0 => Sys2Proof.Machine.execJoin x0 s
  | .nop => Sys2Proof.Machine.execNop s
  | .endPath => Sys2Proof.Machine.execEndPath s
  | .trap x0 => Sys2Proof.Machine.execTrap x0 s
  | .waitPath x0 x1 => Sys2Proof.Machine.execWaitPath x0 x1 s
  | .waitMx x0 x1 => Sys2Proof.Machine.execWaitMx x0 x1 s
  | .waitTrv x0 x1 => Sys2Proof.Machine.execWaitTrv x0 x1 s
  | .waitCov x0 x1 => Sys2Proof.Machine.execWaitCov x0 x1 s
  | .waitMem x0 x1 x2 => Sys2Proof.Machine.execWaitMem x0 x1 x2 s
  | .srd x0 x1 => Sys2Proof.Machine.execSrd x0 x1 s
  | .swr x0 x1 => Sys2Proof.Machine.execSwr x0 x1 s
  | .fence x0 x1 => Sys2Proof.Machine.execFence x0 x1 s
  | .barInit x0 x1 => Sys2Proof.Machine.execBarInit x0 x1 s
  | .barDrop x0 => Sys2Proof.Machine.execBarDrop x0 s
  | .barArrive x0 x1 => Sys2Proof.Machine.execBarArrive x0 x1 s
  | .barWait x0 x1 => Sys2Proof.Machine.execBarWait x0 x1 s
  | .barSync x0 x1 => Sys2Proof.Machine.execBarSync x0 x1 s
  | .hoopInit x0 x1 => Sys2Proof.Machine.execHoopInit x0 x1 s
  | .hoopWfill x0 x1 x2 x3 => Sys2Proof.Machine.execHoopWfill x0 x1 x2 x3 s
  | .hoopFilled x0 x1 => Sys2Proof.Machine.execHoopFilled x0 x1 s
  | .hoopWtake x0 x1 x2 x3 => Sys2Proof.Machine.execHoopWtake x0 x1 x2 x3 s
  | .hoopTaken x0 x1 => Sys2Proof.Machine.execHoopTaken x0 x1 s
  | .hoopRd x0 x1 => Sys2Proof.Machine.execHoopRd x0 x1 s
  | .twait x0 x1 x2 x3 => Sys2Proof.Machine.execTwait x0 x1 x2 x3 s
  | .mxMma x0 x1 x2 x3 x4 => Sys2Proof.Machine.execMxMma x0 x1 x2 x3 x4 s
  | .mxGang x0 x1 x2 x3 x4 => Sys2Proof.Machine.execMxGang x0 x1 x2 x3 x4 s
  | .mxCbld x0 x1 x2 => Sys2Proof.Machine.execMxCbld x0 x1 x2 s
  | .mxClr x0 x1 => Sys2Proof.Machine.execMxClr x0 x1 s
  | .mxDrain x0 x1 x2 x3 x4 => Sys2Proof.Machine.execMxDrain x0 x1 x2 x3 x4 s
  | .cpPush x0 x1 x2 => Sys2Proof.Machine.execCpPush x0 x1 x2 s
  | .cpTest x0 x1 x2 x3 => Sys2Proof.Machine.execCpTest x0 x1 x2 x3 s
  | .cpWait x0 x1 x2 x3 => Sys2Proof.Machine.execCpWait x0 x1 x2 x3 s
  | .cpCancel x0 x1 x2 => Sys2Proof.Machine.execCpCancel x0 x1 x2 s
  | .rqBuild x0 x1 => Sys2Proof.Machine.execRqBuild x0 x1 s
  | .rqRefit x0 x1 => Sys2Proof.Machine.execRqRefit x0 x1 s
  | .covTile x0 x1 => Sys2Proof.Machine.execCovTile x0 x1 s
  | .covTileClr x0 x1 => Sys2Proof.Machine.execCovTileClr x0 x1 s
  | .covResolve x0 x1 x2 => Sys2Proof.Machine.execCovResolve x0 x1 x2 s
  | .plyBegin x0 x1 x2 => Sys2Proof.Machine.execPlyBegin x0 x1 x2 s
  | .plyBeginCoil x0 x1 x2 => Sys2Proof.Machine.execPlyBeginCoil x0 x1 x2 s
  | .plyCommit x0 => Sys2Proof.Machine.execPlyCommit x0 s
  | .plyCommitCoil x0 => Sys2Proof.Machine.execPlyCommitCoil x0 s
  | .plyAbort x0 => Sys2Proof.Machine.execPlyAbort x0 s
  | .plyAbortCoil x0 => Sys2Proof.Machine.execPlyAbortCoil x0 s
  | .plySnap x0 => Sys2Proof.Machine.execPlySnap x0 s
  | .plyDrop x0 => Sys2Proof.Machine.execPlyDrop x0 s
  | .plyStamp x0 x1 x2 => Sys2Proof.Machine.execPlyStamp x0 x1 x2 s
  | .plyClock x0 => Sys2Proof.Machine.execPlyClock x0 s
  | .li x0 x1 => Sys2Proof.Machine.execLi x0 x1 s
  | .lih x0 x1 => Sys2Proof.Machine.execLih x0 x1 s
  | .addx x0 x1 x2 => Sys2Proof.Machine.execAddx x0 x1 x2 s
  | .crs x0 x1 x2 => Sys2Proof.Machine.execCrs x0 x1 x2 s
  | .upcall x0 x1 x2 => Sys2Proof.Machine.execUpcall x0 x1 x2 s
  | .courseTrailer x0 x1 x2 x3 => Sys2Proof.Machine.execCourseTrailer x0 x1 x2 x3 s
  | .vAdd x0 => Sys2Proof.Machine.execVAdd x0 s
  | .vSub x0 => Sys2Proof.Machine.execVSub x0 s
  | .vMul x0 => Sys2Proof.Machine.execVMul x0 s
  | .vMulh x0 => Sys2Proof.Machine.execVMulh x0 s
  | .vMad x0 => Sys2Proof.Machine.execVMad x0 s
  | .vMin x0 => Sys2Proof.Machine.execVMin x0 s
  | .vMax x0 => Sys2Proof.Machine.execVMax x0 s
  | .vAbs x0 => Sys2Proof.Machine.execVAbs x0 s
  | .vNeg x0 => Sys2Proof.Machine.execVNeg x0 s
  | .vAdds x0 => Sys2Proof.Machine.execVAdds x0 s
  | .vSubs x0 => Sys2Proof.Machine.execVSubs x0 s
  | .vDiv x0 => Sys2Proof.Machine.execVDiv x0 s
  | .vRem x0 => Sys2Proof.Machine.execVRem x0 s
  | .vSad x0 => Sys2Proof.Machine.execVSad x0 s
  | .vDot4 x0 => Sys2Proof.Machine.execVDot4 x0 s
  | .vAnd x0 => Sys2Proof.Machine.execVAnd x0 s
  | .vOr x0 => Sys2Proof.Machine.execVOr x0 s
  | .vXor x0 => Sys2Proof.Machine.execVXor x0 s
  | .vNot x0 => Sys2Proof.Machine.execVNot x0 s
  | .vShl x0 => Sys2Proof.Machine.execVShl x0 s
  | .vShr x0 => Sys2Proof.Machine.execVShr x0 s
  | .vBfx x0 => Sys2Proof.Machine.execVBfx x0 s
  | .vBfi x0 => Sys2Proof.Machine.execVBfi x0 s
  | .vPopc x0 => Sys2Proof.Machine.execVPopc x0 s
  | .vClz x0 => Sys2Proof.Machine.execVClz x0 s
  | .vCmp x0 => Sys2Proof.Machine.execVCmp x0 s
  | .vTest x0 => Sys2Proof.Machine.execVTest x0 s
  | .vFadd x0 => Sys2Proof.Machine.execVFadd x0 s
  | .vFsub x0 => Sys2Proof.Machine.execVFsub x0 s
  | .vFmul x0 => Sys2Proof.Machine.execVFmul x0 s
  | .vFma x0 => Sys2Proof.Machine.execVFma x0 s
  | .vFmin x0 => Sys2Proof.Machine.execVFmin x0 s
  | .vFmax x0 => Sys2Proof.Machine.execVFmax x0 s
  | .vFabs x0 => Sys2Proof.Machine.execVFabs x0 s
  | .vFneg x0 => Sys2Proof.Machine.execVFneg x0 s
  | .vFsgn x0 => Sys2Proof.Machine.execVFsgn x0 s
  | .vFint x0 => Sys2Proof.Machine.execVFint x0 s
  | .vFscl x0 => Sys2Proof.Machine.execVFscl x0 s
  | .vFcls x0 => Sys2Proof.Machine.execVFcls x0 s
  | .vFdiv x0 => Sys2Proof.Machine.execVFdiv x0 s
  | .vFsqrt x0 => Sys2Proof.Machine.execVFsqrt x0 s
  | .vFrcp x0 => Sys2Proof.Machine.execVFrcp x0 s
  | .vFrsq x0 => Sys2Proof.Machine.execVFrsq x0 s
  | .vFexp2 x0 => Sys2Proof.Machine.execVFexp2 x0 s
  | .vFlog2 x0 => Sys2Proof.Machine.execVFlog2 x0 s
  | .vFsin x0 => Sys2Proof.Machine.execVFsin x0 s
  | .vFcos x0 => Sys2Proof.Machine.execVFcos x0 s
  | .vFcmp x0 => Sys2Proof.Machine.execVFcmp x0 s
  | .vCvt x0 => Sys2Proof.Machine.execVCvt x0 s
  | .vPack x0 => Sys2Proof.Machine.execVPack x0 s
  | .vUnpack x0 => Sys2Proof.Machine.execVUnpack x0 s
  | .vBscl x0 => Sys2Proof.Machine.execVBscl x0 s
  | .vMov x0 => Sys2Proof.Machine.execVMov x0 s
  | .vSel x0 => Sys2Proof.Machine.execVSel x0 s
  | .vKmov x0 => Sys2Proof.Machine.execVKmov x0 s
  | .vShfl x0 => Sys2Proof.Machine.execVShfl x0 s
  | .vBcast x0 => Sys2Proof.Machine.execVBcast x0 s
  | .vRot x0 => Sys2Proof.Machine.execVRot x0 s
  | .vVote x0 => Sys2Proof.Machine.execVVote x0 s
  | .vSred x0 => Sys2Proof.Machine.execVSred x0 s
  | .vScan x0 => Sys2Proof.Machine.execVScan x0 s
  | .vTos x0 => Sys2Proof.Machine.execVTos x0 s
  | .vFroms x0 => Sys2Proof.Machine.execVFroms x0 s
  | .vXtr x0 => Sys2Proof.Machine.execVXtr x0 s
  | .vIns x0 => Sys2Proof.Machine.execVIns x0 s
  | .reorder x0 => Sys2Proof.Machine.execReorder x0 s
  | .vLd x0 => Sys2Proof.Machine.execVLd x0 s
  | .vSt x0 => Sys2Proof.Machine.execVSt x0 s
  | .vAtom x0 => Sys2Proof.Machine.execVAtom x0 s
  | .vRed x0 => Sys2Proof.Machine.execVRed x0 s
  | .vCpa x0 => Sys2Proof.Machine.execVCpa x0 s
  | .vFpush x0 => Sys2Proof.Machine.execVFpush x0 s
  | .vFpop x0 => Sys2Proof.Machine.execVFpop x0 s
  | .mxPeek x0 => Sys2Proof.Machine.execMxPeek x0 s
  | .mxRd x0 => Sys2Proof.Machine.execMxRd x0 s
  | .mxWr x0 => Sys2Proof.Machine.execMxWr x0 s
  | .rqRay x0 => Sys2Proof.Machine.execRqRay x0 s
  | .rqBeam x0 => Sys2Proof.Machine.execRqBeam x0 s
  | .covSeg x0 => Sys2Proof.Machine.execCovSeg x0 s
  | .covBin x0 => Sys2Proof.Machine.execCovBin x0 s
  | .atlReq x0 => Sys2Proof.Machine.execAtlReq x0 s
  | .upcallPost x0 => Sys2Proof.Machine.execUpcallPost x0 s
  | .quadrantPick x0 x1 => Sys2Proof.Machine.execQuadrantPick x0 x1 s
  | .courseBegin x0 x1 => Sys2Proof.Machine.execCourseBegin x0 x1 s
  | .laneLongComplete x0 => Sys2Proof.Machine.execLaneLongComplete x0 s
  | .laneAccessFinish x0 => Sys2Proof.Machine.execLaneAccessFinish x0 s
  | .btePoll x0 => Sys2Proof.Machine.execBtePoll x0 s
  | .bteChunk x0 x1 x2 => Sys2Proof.Machine.execBteChunk x0 x1 x2 s
  | .mxKStep x0 => Sys2Proof.Machine.execMxKStep x0 s
  | .mxCbldComplete x0 => Sys2Proof.Machine.execMxCbldComplete x0 s
  | .mxClrComplete x0 => Sys2Proof.Machine.execMxClrComplete x0 s
  | .mxDrainComplete x0 => Sys2Proof.Machine.execMxDrainComplete x0 s
  | .deferredTrap x0 => Sys2Proof.Machine.execDeferredTrap x0 s
  | .rayLaneComplete x0 => Sys2Proof.Machine.execRayLaneComplete x0 s
  | .beamComplete x0 => Sys2Proof.Machine.execBeamComplete x0 s
  | .buildComplete x0 => Sys2Proof.Machine.execBuildComplete x0 s
  | .refitComplete x0 => Sys2Proof.Machine.execRefitComplete x0 s
  | .covOpComplete x0 => Sys2Proof.Machine.execCovOpComplete x0 s
  | .coilPlace => Sys2Proof.Machine.execCoilPlace s
  | .launchAccept x0 => Sys2Proof.Machine.execLaunchAccept x0 s
  | .coilSave x0 => Sys2Proof.Machine.execCoilSave x0 s
  | .coilRestore x0 => Sys2Proof.Machine.execCoilRestore x0 s
  | .watchdogInsnExpiry x0 => Sys2Proof.Machine.execWatchdogInsnExpiry x0 s
  | .watchdogTimeExpiry x0 => Sys2Proof.Machine.execWatchdogTimeExpiry x0 s
  | .scannerPoll x0 => Sys2Proof.Machine.execScannerPoll x0 s
  | .workerAssign => Sys2Proof.Machine.execWorkerAssign s
  | .waitPacketPoll x0 => Sys2Proof.Machine.execWaitPacketPoll x0 s
  | .nopPacket x0 => Sys2Proof.Machine.execNopPacket x0 s
  | .launch x0 => Sys2Proof.Machine.execLaunch x0 s
  | .indirect x0 => Sys2Proof.Machine.execIndirect x0 s
  | .predicate x0 => Sys2Proof.Machine.execPredicate x0 s
  | .loop x0 => Sys2Proof.Machine.execLoop x0 s
  | .waitPacket x0 => Sys2Proof.Machine.execWaitPacket x0 s
  | .signal x0 => Sys2Proof.Machine.execSignal x0 s
  | .fetchFence x0 => Sys2Proof.Machine.execFetchFence x0 s
  | .bankRoleChange x0 x1 => Sys2Proof.Machine.execBankRoleChange x0 x1 s
  | .plyRgnRetire x0 => Sys2Proof.Machine.execPlyRgnRetire x0 s
  | .pwrModeChange => Sys2Proof.Machine.execPwrModeChange s
  | .waitMemRecheck x0 => Sys2Proof.Machine.execWaitMemRecheck x0 s
  | .cpWaitRecheck x0 => Sys2Proof.Machine.execCpWaitRecheck x0 s
  | .bteDrainExpiry x0 => Sys2Proof.Machine.execBteDrainExpiry x0 s
  | .pickerFree => Sys2Proof.Machine.execPickerFree s
  | .twaitHintExpiry x0 => Sys2Proof.Machine.execTwaitHintExpiry x0 s
  | .moduleReset => Sys2Proof.Machine.execModuleReset s
  | .flr => Sys2Proof.Machine.execFlr s
  | .bootStageAdvance x0 x1 => Sys2Proof.Machine.execBootStageAdvance x0 x1 s
  | .hstRecoverGo => Sys2Proof.Machine.execHstRecoverGo s
  | .ping x0 => Sys2Proof.Machine.execPing x0 s
  | .mbxAlloc x0 => Sys2Proof.Machine.execMbxAlloc x0 s
  | .mbxFree x0 => Sys2Proof.Machine.execMbxFree x0 s
  | .queueOpen x0 => Sys2Proof.Machine.execQueueOpen x0 s
  | .queueClose x0 => Sys2Proof.Machine.execQueueClose x0 s
  | .mbxUnknownKind x0 => Sys2Proof.Machine.execMbxUnknownKind x0 s
  | .getVersion x0 => Sys2Proof.Machine.execGetVersion x0 s
  | .getCapabilities x0 => Sys2Proof.Machine.execGetCapabilities x0 s
  | .negotiateAlgorithms x0 => Sys2Proof.Machine.execNegotiateAlgorithms x0 s
  | .getDigests x0 => Sys2Proof.Machine.execGetDigests x0 s
  | .getCertificate x0 => Sys2Proof.Machine.execGetCertificate x0 s
  | .challenge x0 => Sys2Proof.Machine.execChallenge x0 s
  | .getMeasurements x0 => Sys2Proof.Machine.execGetMeasurements x0 s
  | .keyExchange x0 => Sys2Proof.Machine.execKeyExchange x0 s
  | .finish x0 => Sys2Proof.Machine.execFinish x0 s
  | .heartbeat x0 => Sys2Proof.Machine.execHeartbeat x0 s
  | .keyUpdate x0 => Sys2Proof.Machine.execKeyUpdate x0 s
  | .endSession x0 => Sys2Proof.Machine.execEndSession x0 s
  | .spdmUnsupportedRequest x0 => Sys2Proof.Machine.execSpdmUnsupportedRequest x0 s
  | .doeAbort => Sys2Proof.Machine.execDoeAbort s
  | .hostBar2Read x0 x1 => Sys2Proof.Machine.execHostBar2Read x0 x1 s
  | .hostBar2Write x0 x1 => Sys2Proof.Machine.execHostBar2Write x0 x1 s
  | .hostAtsInvalidate x0 => Sys2Proof.Machine.execHostAtsInvalidate x0 s
  | .hostWindowTimeout x0 => Sys2Proof.Machine.execHostWindowTimeout x0 s
  | .hostWindowCompletion x0 x1 x2 => Sys2Proof.Machine.execHostWindowCompletion x0 x1 x2 s
  | .pwrModeWrite x0 => Sys2Proof.Machine.execPwrModeWrite x0 s
  | .limiterLower x0 => Sys2Proof.Machine.execLimiterLower x0 s
  | .limiterRaise x0 => Sys2Proof.Machine.execLimiterRaise x0 s
  | .currentTrip => Sys2Proof.Machine.execCurrentTrip s
  | .thermalThrottle x0 => Sys2Proof.Machine.execThermalThrottle x0 s
  | .hbmHotRefresh x0 => Sys2Proof.Machine.execHbmHotRefresh x0 s
  | .thermalTrip => Sys2Proof.Machine.execThermalTrip s
  | .healthRefresh x0 => Sys2Proof.Machine.execHealthRefresh x0 s
  | .remoteRead x0 => Sys2Proof.Machine.execRemoteRead x0 s
  | .remoteWrite x0 => Sys2Proof.Machine.execRemoteWrite x0 s
  | .remoteAtomic x0 => Sys2Proof.Machine.execRemoteAtomic x0 s
  | .fabricResponse x0 x1 x2 x3 => Sys2Proof.Machine.execFabricResponse x0 x1 x2 x3 s
  | .backInvalidate x0 x1 => Sys2Proof.Machine.execBackInvalidate x0 x1 s
  | .biTimeout x0 x1 => Sys2Proof.Machine.execBiTimeout x0 x1 s
  | .fabricTimeout x0 => Sys2Proof.Machine.execFabricTimeout x0 s
  | .portNarrow x0 => Sys2Proof.Machine.execPortNarrow x0 s
  | .portDown x0 => Sys2Proof.Machine.execPortDown x0 s
  | .portRemap x0 => Sys2Proof.Machine.execPortRemap x0 s
  | .homePathLoss x0 => Sys2Proof.Machine.execHomePathLoss x0 s
  | .rdmaWriteArrival x0 => Sys2Proof.Machine.execRdmaWriteArrival x0 s
  | .rdmaReadArrival x0 => Sys2Proof.Machine.execRdmaReadArrival x0 s
  | .qpRetryLimit x0 x1 => Sys2Proof.Machine.execQpRetryLimit x0 x1 s
  | .congestionNotification x0 => Sys2Proof.Machine.execCongestionNotification x0 s
  | .qpRateRecover x0 => Sys2Proof.Machine.execQpRateRecover x0 s
  | .yokeMemoryAccess x0 => Sys2Proof.Machine.execYokeMemoryAccess x0 s
  | .yokUpcDone x0 => Sys2Proof.Machine.execYokUpcDone x0 s
  | .yokFltResume x0 x1 => Sys2Proof.Machine.execYokFltResume x0 x1 s
  | .yokSvnCommit x0 => Sys2Proof.Machine.execYokSvnCommit x0 s
  | .yokMeasExtend x0 x1 => Sys2Proof.Machine.execYokMeasExtend x0 x1 s
  | .yokRingEnable x0 x1 => Sys2Proof.Machine.execYokRingEnable x0 x1 s
  | .registerWrite x0 x1 x2 x3 => Sys2Proof.Machine.execRegisterWrite x0 x1 x2 x3 s
  | .registerReadClear x0 x1 => Sys2Proof.Machine.execRegisterReadClear x0 x1 s
  | .qrcOpen x0 => Sys2Proof.Machine.execQrcOpen x0 s
  | .qrcClose x0 => Sys2Proof.Machine.execQrcClose x0 s
  | .lockstepMismatch x0 => Sys2Proof.Machine.execLockstepMismatch x0 s
  | .timeSliceExpiry x0 => Sys2Proof.Machine.execTimeSliceExpiry x0 s
  | .coilResume => Sys2Proof.Machine.execCoilResume s
  | .coilKill => Sys2Proof.Machine.execCoilKill s
  | .urgencyUpdate x0 => Sys2Proof.Machine.execUrgencyUpdate x0 s
  | .pageWalk x0 x1 x2 => Sys2Proof.Machine.execPageWalk x0 x1 x2 s
  | .tlbInvPage x0 x1 => Sys2Proof.Machine.execTlbInvPage x0 x1 s
  | .tlbInvAsid x0 => Sys2Proof.Machine.execTlbInvAsid x0 s
  | .tlbInvAll => Sys2Proof.Machine.execTlbInvAll s
  | .bankRoleWrite x0 x1 => Sys2Proof.Machine.execBankRoleWrite x0 x1 s
  | .uncorrectableError x0 => Sys2Proof.Machine.execUncorrectableError x0 s
  | .ceThreshold x0 x1 => Sys2Proof.Machine.execCeThreshold x0 x1 s
  | .patrolScrub => Sys2Proof.Machine.execPatrolScrub s
  | .plyRgnDeclare x0 x1 => Sys2Proof.Machine.execPlyRgnDeclare x0 x1 s
  | .plySlotWaitRevoke => Sys2Proof.Machine.execPlySlotWaitRevoke s
  | .plyRevokeTimer => Sys2Proof.Machine.execPlyRevokeTimer s
  | .bteOpen x0 => Sys2Proof.Machine.execBteOpen x0 s
  | .bteClose x0 => Sys2Proof.Machine.execBteClose x0 s
  | .bteMove x0 x1 => Sys2Proof.Machine.execBteMove x0 x1 s
  | .fwxTrapRetry x0 => Sys2Proof.Machine.execFwxTrapRetry x0 s
  | .fwxTrapSkip x0 => Sys2Proof.Machine.execFwxTrapSkip x0 s
  | .fwxTrapRetryOthers x0 => Sys2Proof.Machine.execFwxTrapRetryOthers x0 s
  | .fwxTrapKill x0 => Sys2Proof.Machine.execFwxTrapKill x0 s
  | .dbgStop => Sys2Proof.Machine.execDbgStop s
  | .dbgResume => Sys2Proof.Machine.execDbgResume s
  | .dbgStep => Sys2Proof.Machine.execDbgStep s
  | .pcSample x0 => Sys2Proof.Machine.execPcSample x0 s
  | .traceLossRecover x0 => Sys2Proof.Machine.execTraceLossRecover x0 s
  | .traceBlockFlush x0 => Sys2Proof.Machine.execTraceBlockFlush x0 s
  | .preemptPriority => Sys2Proof.Machine.execPreemptPriority s
  | .mailboxPoll => Sys2Proof.Machine.execMailboxPoll s
  | .ualinkPortTraining x0 x1 => Sys2Proof.Machine.execUalinkPortTraining x0 x1 s
  | .configurationRequest x0 => Sys2Proof.Machine.execConfigurationRequest x0 s
  | .ideKmRequest x0 => Sys2Proof.Machine.execIdeKmRequest x0 s
  | .biAcknowledgement x0 x1 => Sys2Proof.Machine.execBiAcknowledgement x0 x1 s
  | .rdmaResponseArrival x0 => Sys2Proof.Machine.execRdmaResponseArrival x0 s

end Sys2Proof.Machine
end

