-- ==== Sys2Proof/Machine/Service.lean ====
section
/-! DEFINITION. Holver's answers to the upcalls whose services the spec numbers (R68; log 42, log 63). -/

namespace Sys2Proof.Machine

open Sys2Proof

/-- The ALLOC service: Holver chooses the address, or finds no memory; ARG2 bit 0 backs the pages at once with zeros (R68; log 63). -/
def State.serveAlloc (s : State) (u : UpcallReq) : Nat × Nat × State :=
  let size := u.arg0.toNat
  let align := u.arg1.toNat
  if size = 0 ∨ 2 ^ 40 < size ∨ align < 12 ∨ 30 < align ∨ 1 < u.arg2.toNat then (2, 0, s)
  else if bit (Config.holver 12 s.tick) 0 then (3, 0, s.draw)
  else
    let va := Config.holver 13 s.tick % 2 ^ (56 - align) * 2 ^ align
    let s1 := if u.arg2 = 1 then
        (upFrom 0 (ceilDiv size 4096)).foldl (fun t i => t.write (s.freePage i) (List.replicate 4096 0) false)
          (s.mapPages u.asid va size s.freePage)
      else s
    (0, va, { s1.draw with link := { s1.link with userAllocs := (u.asid, va, size) :: s1.link.userAllocs } })

/-- The FREE service (R68). -/
def State.serveFree (s : State) (u : UpcallReq) : Nat × Nat × State :=
  match s.link.userAllocs.find? (fun a => a.1 == u.asid && a.2.1 == u.arg0.toNat) with
  | none => (2, Config.holver 14 s.tick, s.draw)
  | some a => (0, 0, ({ s with link := { s.link with userAllocs := s.link.userAllocs.erase a } } : State).unmapRange u.asid a.2.1 a.2.2)

/-- The PRINT service: the text goes to the host, unless Holver cannot read the whole of it (R68, R70; log 42). -/
def State.servePrint (s : State) (u : UpcallReq) : Nat × Nat × State :=
  let n := u.arg1.toNat
  if n = 0 ∨ 4096 < n then (2, 0, s)
  else match s.userBytes u.asid u.arg0.toNat n with
    | none => (4, 0, s)
    | some l => (0, 0, s.logText u 18 l)

/-- STATUS and RESULT of a numbered service; other numbers below 0x0100 are unknown, and their RESULT is free (R68; log 42). -/
def State.service (s : State) (u : UpcallReq) : Nat × Nat × State :=
  match u.service with
  | 0 => (0, u.arg0.toNat, s)
  | 1 => s.serveAlloc u
  | 2 => s.serveFree u
  | 3 => s.servePrint u
  | _ => (1, Config.holver 14 s.tick, s.draw)

/-- Holver answers upcall `i`: RESULT and STATUS stand in its slot, for the DONE that follows (R66, R68). -/
def State.serve (s : State) (i : Nat) : State :=
  match Dict.find? s.upcalls i with
  | none => s
  | some u =>
    let (status, result, s1) := s.service u
    let s2 := (s1.write (s1.upcSlotAt i + 28) (toBytes 4 status) false).write (s1.upcSlotAt i + 32) (toBytes 8 result) false
    { s2 with upcalls := Dict.put s2.upcalls i { u with served := true } }

/-- The upcalls that Holver itself answers, when it may: services from 0x0100 are an application's (R68). -/
def State.holverEvents (s : State) : List (State → Out) :=
  (s.upcalls.filter (fun e => e.2.kind == 1 && decide (e.2.service < 0x100) && !e.2.served)).map (fun e => fun s => .next (s.serve e.1))

end Sys2Proof.Machine
end

