-- ==== Sys2Proof/Machine/Own.lean ====
section
/-! DEFINITION. What the machine may do at any step besides the work in hand: its timers that may run out, and the pair's
decisions (log 1). -/

namespace Sys2Proof.Machine

open Sys2Proof

/-- The pair's decisions while something waits for room (R130). -/
def State.pairEvents (s : State) : List (State → Out) :=
  if s.waiting.isEmpty then []
  else execPreemptPriority :: (if s.regF aPreempt 31 0 = 0 then []
    else (s.coils.filter (fun e => e.2.residency == .resident)).map (fun e => execTimeSliceExpiry e.1))

/-- Strands of a coil have made progress since the predictor last cleared it, or one is urgent (R117). -/
def Coil.moved (c : Coil) : Bool := c.strands.any (fun st => st.progress != 0 || st.urgent)

/-- A request outside that has not been answered within its time (R54, R143). -/
def timeoutOf (e : Nat × RemoteReq) : List (State → Out) :=
  if e.2.held || e.2.port == 253 then [] else if e.2.port == 255 then [execHostWindowTimeout e.1] else [execFabricTimeout e.1]

/-- Trace work of a Hamper: a block that has waited, and while the trace is on packets lost (R277, R281). -/
def State.traceEvents (s : State) (e : Nat × TraceState) : List (State → Out) :=
  (if e.2.block.isEmpty then [] else [execTraceBlockFlush e.1])
    ++ (if e.2.lost = 0 || !bit (s.regN aTrcCfg) 32 then [] else [execTraceLossRecover e.1])

/-- A STEP is complete: its path has completed its scalar instruction, and no course runs on its strand (R272). -/
def Coil.stepDone (c : Coil) : Bool :=
  c.issues && (match c.stepOnly with
    | some (i, p, true) => (match c.strands[i]? with
      | some st => st.running.isNone && (match st.path? p with
        | some q => q.park == .running && !(st.longs.any (fun e => e.2.path == p && e.2.pos == 255))
        | none => true)
      | none => true)
    | _ => false)

/-- A worker reads a word of its stream ahead, or reads it again later; the pair reads a word of a descriptor (R93, R99). -/
def aheadEvents (e : Nat × CmdQueue) : List (State → Out) :=
  (fun s => .next (s.fetchAhead e.1)) :: ((if e.2.ahead.isEmpty then [] else [fun s => .next (s.dropAhead e.1)])
    ++ (if e.2.launch.isNone then [] else [fun s => .next (s.descAhead e.1)]))

/-- Code words of a bolt are fetched ahead, or again (R288). -/
def State.codeEvents (s : State) (e : Nat × Bolt) : List (State → Out) :=
  (if s.turn.isNone then [fun s => .next (s.codeAhead e.1)] else [])
    ++ (if e.2.code.isEmpty then [] else [fun s => .next (s.codeDrop e.1)])

/-- A request over PCI Express waits for room among the 4,096 outstanding ones (R24). -/
def State.pcieEvents (s : State) : List (State → Out) :=
  if s.remotes.any (fun e => e.2.held && decide (254 ≤ e.2.port)) then [fun s => .next s.pcieRelease] else []

/-- While no path has the turn, a TLB may lose an entry (R155; log 87). -/
def State.tlbEvents (s : State) : List (State → Out) :=
  if s.turn.isNone && !s.tlb.isEmpty then
    [fun s => .next (s.draw.setTlb (s.tlb.eraseIdx (Config.choice s.tick % s.tlb.length)))]
  else []

/-- While no path has the turn, pieces of the pending writes of lane instructions may take effect (R120). -/
def State.earlyEvents (s : State) : List (State → Out) :=
  if s.turn.isNone then
    s.coils.flatMap (fun e => e.2.strands.flatMap (fun st =>
      (st.longs.filter (fun g => !g.2.held && g.2.pos != 255 && (!g.2.vWrites.isEmpty || !g.2.kWrites.isEmpty))).map (fun g =>
        fun (s : State) => .next (s.landEarly g.1))))
  else []

/-- While no path has the turn, package power is measured (R17). -/
def State.measureEvents (s : State) : List (State → Out) := if s.turn.isNone then [fun s => .next s.measurePackage] else []

/-- All that the machine may do by itself in a state, besides the work in hand. -/
def State.ownEvents (s : State) : List (State → Out) :=
  (if s.ply.olds.all s.ply.reachable then [] else [execPickerFree])
    ++ (if s.regF aPlyCfg 31 16 = 0 then [] else if s.plyFree < s.regF aPlyCfg 31 16 * 2 ^ 16 then [execPlyRevokeTimer] else [])
    ++ s.pairEvents
    ++ (s.coils.filter (fun e => e.2.moved)).map (fun e => execUrgencyUpdate e.1)
    ++ s.remotes.flatMap timeoutOf
    ++ s.queues.flatMap aheadEvents
    ++ s.bolts.flatMap s.codeEvents
    ++ s.measureEvents
    ++ s.tlbEvents
    ++ s.earlyEvents
    ++ s.holverEvents
    ++ s.buildEvents
    ++ s.pcieEvents
    ++ s.fabric.snoop.flatMap (fun e => e.2.awaiting.map (fun h => execBiTimeout e.1 h))
    ++ (s.fabric.held.filter (fun q => !s.portBusy q)).map execPortRemap
    ++ (s.fabric.rate.filter (fun e => e.2 != 0)).map (fun e => execQpRateRecover e.1)
    ++ s.debugUnit.trace.flatMap s.traceEvents
    ++ ((s.coils.filter (fun e => e.2.stepDone)).map (fun e => (fun (t : State) => .next (t.debugStopCoil e.1 (3, 0)))))
    ++ (if bit (s.regN aSmpCfg) 32 then [fun s => .next ((upFrom 0 s.hampers).foldl State.sampleHamper s)] else [])

/-- The agent that makes an access, and the line in which its order counts; 255 for no agent. A Yoke hart, and the host, keep one order; requests of
another device are ordered in each line (R53, R162, R183). -/
def agentOf : Instr → Nat × Nat
  | .yokeMemoryAccess a => (a.hart, 0)
  | .registerWrite hart pa _ _ => (if hstBase ≤ pa then 16 else hart, 0)
  | .registerReadClear pa _ => (if hstBase ≤ pa then 16 else 255, 0)
  | .hostBar2Read _ _ => (16, 0)
  | .hostBar2Write _ _ => (16, 0)
  | .remoteRead r => (256 + r.src, r.off / 128)
  | .remoteWrite r => (256 + r.src, r.off / 128)
  | .remoteAtomic r => (256 + r.src, r.off / 128)
  | _ => (255, 0)

/-- The pieces of work in hand that may come up: no earlier one is of the same agent. Their places are given. -/
def readyItems : List (Nat × Nat) → Nat → List Instr → List (Instr × Nat)
  | _, _, [] => []
  | seen, n, i :: r =>
    if (agentOf i).1 = 255 then (i, n) :: readyItems seen (n + 1) r
    else if seen.contains (agentOf i) then readyItems seen (n + 1) r
    else (i, n) :: readyItems (agentOf i :: seen) (n + 1) r

/-- A step that has come to write lines of which other devices hold copies has not taken place: the holders are sent back-invalidations, and it
comes up again (R50; log 94). -/
def unblocked (s : State) : Out → Out
  | .next t => .next (if t.blocked = [] then t else t.blocked.foldl (fun s line => s.recall (128 * line) 128) s)
  | o => o

end Sys2Proof.Machine
end

