-- ==== Sys2Proof/Machine/Step.lean ====
section
/-! DEFINITION. One step of the machine: a piece of work in hand, or the path that has the turn (log 1). -/

namespace Sys2Proof.Machine

open Sys2Proof

/-- The lane stream of the path that has the turn. -/
def stepLane (s : State) (x : Issuer) : Out :=
  match laneNext x with
  | .instr i => exec i s
  | .illegal r => .next (s.laneIllegal x r)
  | .idle => .next s

/-- The scalar stream of the path that has the turn (R285, R287). -/
def stepScalar (s : State) (x : Issuer) : Out :=
  if s.scalarOpen x then
    match s.fetchScalar x with
    | (.instr i, s1) => s1.breakOr x (exec i s1)
    | (.trap t, s1) => s1.breakOr x (.next (s1.fetchTrap x t))
    | (.fault va c l p, s1) => .next (s1.fetchFault x 0 va c l p)
    | (.later, s1) => .next s1
  else .next s

/-- The path that has the turn issues from one of its streams; without one, a quadrant picks (R114, R116). -/
def stepPath (s : State) : Out :=
  match s.turn with
  | none => exec (.quadrantPick (Config.choice s.tick % s.hampers) (Config.choice s.tick / s.hampers % 4)) s
  | some t =>
    match s.issuerAt t.id with
    | none => .next { s with turn := none }
    | some x => endTurn t s (if t.lane then stepLane s x else stepScalar s x)

/-- An event that must wait stays in hand, before what came after it (log 1). -/
def keepWaiting (i : Instr) : Out → Out
  | .next s => .next (if s.again then { s with agenda := i :: s.agenda, again := false } else s)
  | o => o

/-- The steps that are open besides that of the path with the turn: each piece of work in hand that no earlier access of its agent keeps back, and
each thing the machine may do by itself (R162; log 1). -/
def State.openSteps (s : State) : List (State → Out) :=
  (List.map (fun (e : Instr × Nat) (t : State) => keepWaiting e.1 (exec e.1 { t with agenda := t.agenda.eraseIdx e.2 }))
    (readyItems [] 0 s.agenda)) ++ s.ownEvents

/-- One step: one of the steps that are open, chosen freely, or the path that has the turn; none when every clock is stopped, until a
module reset (R23; log 1). -/
def step (s0 : State) : Host.Outcome State Fault Refusal :=
  let s := s0.tickOn
  if s.power.stopped then
    (if s.agenda.contains .moduleReset then exec .moduleReset { s with agenda := s.agenda.erase .moduleReset }
    else .fault .clocksStopped)
  else match s.openSteps with
    | [] => unblocked s (stepPath s)
    | l@(_ :: _) =>
      match l[Config.schedule s.tick % (l.length + 1)]? with
      | some f => unblocked s (f s)
      | none => unblocked s (stepPath s)

/-- An instruction of `nbits` bits `w` placed where the machine runs it next: a scalar one at the PC of a resident coil's strand, a lane
one as the first of its running course, before a trailer (log 22). -/
def State.withFetchWord (s : State) (nbits w : Nat) : State :=
  if nbits > 64 then s.probe (probeRole nbits w) true [BitVec.ofNat 96 w, 0xFF000000]
  else (s.poke 0x1000 (toBytes 8 (w % 2 ^ 64)) false).probe (probeRole nbits w) false []

end Sys2Proof.Machine
end

