-- ==== Sys2Proof/Safety.lean ====
section
/-! DEFINITION. What counts as a safe run, and the terms in which claims about one step are stated: when an instruction may execute
normally, and what stays as it was. -/

namespace Sys2Proof.Machine

open Sys2Proof

/-- A step of this state answers a next state: the machine neither stops nor meets an instruction without a meaning. -/
def State.Safe (s : State) : Prop := ∃ t, step s = .next t

/-- A scalar instruction of the path with the turn executes normally: no access of the path awaits an answer from outside, its role may
issue it, every register it names is reserved, nothing it uses is pending, and no register it consumes is poisoned (R103, R108, R263, R304,
R328-R330). -/
structure Ready (s : State) (x : Issuer) (n : Needs) : Prop where
  turn : s.issuer = some x
  quiet : ∀ e ∈ x.strand.longs, e.2.path = x.id.path → e.2.remote = [] ∧ e.2.pos ≠ 255
  role : n.roles &&& x.role ≠ 0
  reserved : ∀ r ∈ n.reads ++ n.moves ++ n.writes, r < x.desc.sregs
  named : n.unreserved x = false
  courses : n.courses = true → x.strand.hasCourses x.id.path = false
  masks : pendingK x n.masks = false
  values : s.pendingS x (n.reads ++ n.moves ++ n.writes) = false
  clean : ∀ r ∈ n.reads, x.sBad r = false

/-- From `s` to `t` nothing outside one coil changes, but for the expiry of that coil's instruction budget, which may come to hand (R137). -/
structure OnlyCoil (s t : State) (k : Nat) : Prop where
  rest : { t with coils := s.coils, agenda := s.agenda } = s
  agenda : t.agenda = s.agenda ∨ t.agenda = s.agenda ++ [.watchdogInsnExpiry k]
  others : ∀ j, j ≠ k → t.coil? j = s.coil? j

/-- From `x` to `y`, the same path later, nothing of the coil changes but that strand, INSN_USED, which counts the instruction (R137), and a
STEP that has had its instruction (R272). -/
structure OnlyStrand (x y : Issuer) : Prop where
  id : y.id = x.id
  bolt : y.bolt = x.bolt
  count : y.coil.insnUsed = x.coil.insnUsed + 1
  coil : { y.coil with strands := x.coil.strands, insnUsed := x.coil.insnUsed, stepOnly := x.coil.stepOnly } = x.coil
  others : ∀ j, j ≠ x.id.strand → y.coil.strands[j]? = x.coil.strands[j]?

/-- From `x` to `y` nothing of the strand changes but scalar registers and the PC and `scc` of that path; a breakpoint passed ends (R273). -/
structure OnlyScalars (x y : Issuer) : Prop where
  strand : { y.strand with root := x.strand.root, entries := x.strand.entries, sregs := x.strand.sregs, spoison := x.strand.spoison } = x.strand
  paths : ∀ p, p ≠ x.id.path → y.strand.path? p = x.strand.path? p
  path : { y.path with pc := x.path.pc, scc := x.path.scc, bpPass := x.path.bpPass } = x.path

/-- Scalar register `d` of the path now holds `v`, poisoned or not, and every other register of the strand what it held; s0 takes no write
and reads as zero (R123, R290). -/
structure SetsReg (x y : Issuer) (d : Nat) (v : W64) (bad : Bool) : Prop where
  value : d ≠ 0 → y.sAt d = v
  mark : d ≠ 0 → y.sBad d = bad
  zero : y.sAt 0 = 0
  others : ∀ key, (d = 0 ∨ key ≠ sKey x.id.path d) →
    Tab.get 0 y.strand.sregs key = Tab.get 0 x.strand.sregs key ∧ Tab.get false y.strand.spoison key = Tab.get false x.strand.spoison key

/-- The path stands at `pc` in `t` with one scalar register and `scc` written, and nothing else of its coil has changed. -/
def Here (t : State) (x : Issuer) (d : Nat) (v : W64) (bad : Bool) (c : Scc) (pc : W64) : Prop :=
  ∃ y, t.issuerAt x.id = some y ∧ OnlyStrand x y ∧ OnlyScalars x y ∧ SetsReg x y d v bad ∧ y.path.scc = c ∧ y.path.pc = pc

/-- The whole outcome of an instruction that writes one scalar register: `t` is `s` but for the PC, `scc` and that register. -/
structure Wrote (s t : State) (x : Issuer) (d : Nat) (v : W64) (bad : Bool) (c : Scc) (pc : W64) : Prop where
  state : OnlyCoil s t x.id.coil
  path : Here t x d v bad c pc

/-- A branch: the path goes on at `pc`, nothing else of its coil changes, and where its address space is not traced (R277) nothing at all. -/
def Branches (s t : State) (x : Issuer) (d : Nat) (v : W64) (pc : W64) : Prop :=
  Here t x d v false x.path.scc pc ∧ (s.traces x.asid = false → Wrote s t x d v false x.path.scc pc)

/-- The target of an SB instruction: PC + 4 × off21, off21 signed (R291). -/
def targetOf (x : Issuer) (off : BitVec 21) : W64 := x.path.pc + off.signExtend 64 * 4

/-- Bits [63:57] all equal bit [56] (R140). -/
def isCanonical (a : W64) : Prop := a.extractLsb' 56 8 = 0 ∨ a.extractLsb' 56 8 = 0xFF

/-- The table of R292, by cond. -/
def taken (cond : BitVec 5) (c : Scc) : Bool :=
  let z := c.getLsbD 0
  let n := c.getLsbD 1
  let cy := c.getLsbD 2
  let v := c.getLsbD 3
  [true, z, !z, n != v, n == v, z || (n != v), !z && (n == v), cy, !cy, cy || z, !cy && !z, n, !n, v, !v].getD cond.toNat false

/-- Everything that a path sees of its strand's registers is as it was; its PC may differ. -/
structure SameRegs (x y : Issuer) : Prop where
  strand : { y.strand with root := x.strand.root, entries := x.strand.entries } = x.strand
  paths : ∀ p, p ≠ x.id.path → y.strand.path? p = x.strand.path? p
  path : { y.path with pc := x.path.pc, bpPass := x.path.bpPass } = x.path

/-- The path goes on at `pc` with every register of its strand as it was. -/
def Passes (t : State) (x : Issuer) (pc : W64) : Prop :=
  ∃ y, t.issuerAt x.id = some y ∧ OnlyStrand x y ∧ SameRegs x y ∧ y.path.pc = pc

/-- A byte is dirty in the L1 of a Hamper; every byte of its line is (R148). -/
def State.dirtyAt (s : State) (h a : Nat) : Prop := ∃ b, s.l1At h (a / 512) = some b ∧ bit b.dirty (a % 512) = true
def State.lineDirty (s : State) (h a : Nat) : Prop := ∀ c, c / 128 = a / 128 → s.dirtyAt h c

/-- What the last of the Hamper's own stores left of a byte, or what the L2 holds. -/
def State.newest (s : State) (h a : Nat) : Byte :=
  match s.l1At h (a / 512) with
  | some b => if bit b.dirty (a % 512) then s.seen h a else s.byte a
  | none => s.byte a

/-- From `s` to `t` no byte has got a new value: bytes have only moved between the L2 and the L1 of one Hamper. What the L2 holds is what it held
or what the L1 held; what the Hamper reads is what it read or what the L2 held; the L1s of other Hampers are as they were (R148-R150). -/
structure Kept (s t : State) (h : Nat) : Prop where
  memory : ∀ a, t.byte a = s.byte a ∨ t.byte a = s.seen h a
  cached : ∀ a, t.seen h a = s.seen h a ∨ t.seen h a = s.byte a
  others : ∀ g, g ≠ h → ∀ sb, t.l1At g sb = s.l1At g sb

/-- Nothing but the L1 of one Hamper, device memory, its poison and the reservations on it differ. -/
structure OnlyL1 (s t : State) (h : Nat) : Prop where
  rest : { t with mem := s.mem, poison := s.poison, resv := s.resv, l1 := s.l1 } = s
  others : ∀ g, g ≠ h → ∀ sb, t.l1At g sb = s.l1At g sb

/-- The L1 of a Hamper after an acquire: lines that are wholly dirty stay, the dirty bytes of every other line are in the L2, and the Hamper reads
those lines as the L2 holds them (R150). -/
structure Acquired (s t : State) (h : Nat) : Prop where
  only : OnlyL1 s t h
  whole : ∀ a, s.lineDirty h a → t.byte a = s.byte a ∧ t.seen h a = s.seen h a
  gone : ∀ a, ¬ s.lineDirty h a → t.byte a = s.newest h a ∧ t.seen h a = t.byte a

/-- The L1 of a Hamper after a release: every dirty byte is in the L2, and the Hamper reads what it read (R150). -/
structure Released (s t : State) (h : Nat) : Prop where
  only : OnlyL1 s t h
  written : ∀ a, t.byte a = s.newest h a
  clean : ∀ a, ¬ t.dirtyAt h a
  same : ∀ a, t.seen h a = s.seen h a

/-- A Hamper reads the low bytes of `v`, lowest first, at the `n` addresses from `pa`: stored in its L1, or at the L2. No other byte has got a new
value. -/
structure Stored (s t : State) (h pa n : Nat) (v : W64) (atL2 : Bool) : Prop where
  here : ∀ i, i < n → t.seen h (pa + i) = (v >>> (8 * i)).setWidth 8
  deep : atL2 = true → ∀ i, i < n → t.byte (pa + i) = (v >>> (8 * i)).setWidth 8
  memory : ∀ a, (atL2 = true → a < pa ∨ pa + n ≤ a) → t.byte a = s.byte a ∨ t.byte a = s.seen h a
  cached : ∀ a, a < pa ∨ pa + n ≤ a → t.seen h a = s.seen h a ∨ t.seen h a = s.byte a
  others : ∀ g, g ≠ h → ∀ sb, t.l1At g sb = s.l1At g sb

/-- Where plain device memory is accessed: at the L2, or through the L1 of the path's Hamper. -/
def placeAt (x : Issuer) (atL2 : Bool) (pa : Nat) : Place := if atL2 then .mem pa else .l1 x.hamper pa

/-- Bytes as a number, lowest first (R2). -/
def numberOf (f : Nat → Byte) (pa : Nat) : Nat → W64
  | 0 => 0
  | n + 1 => (f pa).setWidth 64 ||| numberOf f (pa + 1) n <<< 8

/-- Bytes of device memory at the L2 as a number. -/
def State.littleEndian (s : State) (pa n : Nat) : W64 := numberOf s.byte pa n

/-- The outstanding-transaction table of the path's Hamper has room for some accesses (R152). -/
def OttRoom (s : State) (x : Issuer) (ps : List (Nat × Acc × Place)) : Prop := s.ottUsed x.hamper + s.ottEntries ps ≤ 512

/-- Bytes of device memory that no ply region and no ply store holds, aligned, with no copy of their line in another device. -/
structure Plain (s : State) (pa n : Nat) : Prop where
  aligned : pa % n = 0
  carve : s.inCarve pa = false
  region : s.inRegion pa = false
  alone : Dict.find? s.fabric.snoop (pa / 128) = none

/-- Scalar loads and stores with their widths in bytes (R335). -/
def loadRows : List ((BitVec 6 → BitVec 6 → BitVec 14 → Instr) × Nat) := [(.ldN8, 1), (.ldN16, 2), (.ldN32, 4), (.ldB64, 8)]
def storeRows : List ((BitVec 6 → BitVec 6 → BitVec 14 → Instr) × Nat) := [(.stB8, 1), (.stB16, 2), (.stB32, 4), (.stB64, 8)]

/-- The new value of `atom`: OP, the old value, the operand of sb, the comparand of sd (R380). -/
def atomValue (op : BitVec 3) (old b d : W64) : W64 :=
  match op.toNat with
  | 0 => old + b
  | 1 => old &&& b
  | 2 => old ||| b
  | 3 => old ^^^ b
  | 4 => b
  | 5 => if old = d then b else old
  | 6 => if b.slt old then b else old
  | _ => if old.slt b then b else old

/-- A form of two scalar sources, and its result as a rule gives it. -/
structure AluRow where
  instr : BitVec 6 → BitVec 6 → BitVec 6 → Instr
  result : W64 → W64 → W64

/-- The first of the positions 0 to 63 at which a bit is 1, else 64. -/
def firstBit (f : Nat → Bool) : W64 := BitVec.ofNat 64 (((List.range 64).find? f).getD 64)

/-- The table of R332, in its order, without the .f suffix. -/
def aluRows : List AluRow :=
  [ ⟨fun d a b => .add d a b false, fun a b => a + b⟩,
    ⟨fun d a b => .sub d a b false, fun a b => a - b⟩,
    ⟨fun d a b => .and d a b false, fun a b => a &&& b⟩,
    ⟨fun d a b => .or d a b false, fun a b => a ||| b⟩,
    ⟨fun d a b => .xor d a b false, fun a b => a ^^^ b⟩,
    ⟨fun d a b => .andn d a b false, fun a b => a &&& ~~~b⟩,
    ⟨fun d a b => .shl d a b false, fun a b => a <<< (b.toNat % 64)⟩,
    ⟨fun d a b => .shr d a b false, fun a b => a >>> (b.toNat % 64)⟩,
    ⟨fun d a b => .sra d a b false, fun a b => a.sshiftRight (b.toNat % 64)⟩,
    ⟨.minS, fun a b => if a.slt b then a else b⟩,
    ⟨.maxS, fun a b => if a.slt b then b else a⟩,
    ⟨.minN, fun a b => if a.ult b then a else b⟩,
    ⟨.maxN, fun a b => if a.ult b then b else a⟩,
    ⟨.sadd2, fun a b => a + b * 2⟩,
    ⟨.sadd4, fun a b => a + b * 4⟩,
    ⟨.sadd8, fun a b => a + b * 8⟩ ]

/-- The one-source forms of R332, whose sb field is 0. -/
def unaryRows : List ((BitVec 6 → BitVec 6 → Instr) × (W64 → W64)) :=
  [ (.sextS8, fun a => (a.setWidth 8).signExtend 64),
    (.sextS16, fun a => (a.setWidth 16).signExtend 64),
    (.sextS32, fun a => (a.setWidth 32).signExtend 64),
    (.zextN8, fun a => (a.setWidth 8).setWidth 64),
    (.zextN16, fun a => (a.setWidth 16).setWidth 64),
    (.zextN32, fun a => (a.setWidth 32).setWidth 64),
    (.popc, fun a => BitVec.ofNat 64 ((List.range 64).countP (fun i => a.getLsbD i))),
    (.clz, fun a => firstBit (fun i => a.getLsbD (63 - i))),
    (.ctz, fun a => firstBit (fun i => a.getLsbD i)) ]

/-- The table of R334 with its borderline cases. -/
def mulRows : List AluRow :=
  [ ⟨.mul, fun a b => a * b⟩,
    ⟨.mulhS, fun a b => (a.signExtend 128 * b.signExtend 128).extractLsb' 64 64⟩,
    ⟨.mulhN, fun a b => (a.setWidth 128 * b.setWidth 128).extractLsb' 64 64⟩,
    ⟨.mulhSn, fun a b => (a.signExtend 128 * b.setWidth 128).extractLsb' 64 64⟩,
    ⟨.divS, fun a b => if b = 0 then BitVec.allOnes 64 else a.sdiv b⟩,
    ⟨.divN, fun a b => if b = 0 then BitVec.allOnes 64 else a / b⟩,
    ⟨.remS, fun a b => if b = 0 then a else a.srem b⟩,
    ⟨.remN, fun a b => if b = 0 then a else a % b⟩ ]

/-- The forms of R333 with a 14-bit immediate. -/
def immRows : List ((BitVec 6 → BitVec 6 → BitVec 14 → Instr) × (W64 → BitVec 14 → W64)) :=
  [ (.addi, fun a i => a + i.signExtend 64),
    (.andi, fun a i => a &&& i.setWidth 64),
    (.ori, fun a i => a ||| i.setWidth 64),
    (.xori, fun a i => a ^^^ i.setWidth 64) ]

/-- The shifts of R333 by a 6-bit immediate. -/
def shiftRows : List ((BitVec 6 → BitVec 6 → BitVec 6 → Instr) × (W64 → Nat → W64)) :=
  [ (.shli, fun a n => a <<< n), (.shri, fun a n => a >>> n), (.srai, fun a n => a.sshiftRight n) ]

/-- A form with a .f suffix: its result, its C and its V (R331, R332). -/
structure FlagRow where
  instr : BitVec 6 → BitVec 6 → BitVec 6 → Instr
  result : W64 → W64 → W64
  carry : W64 → W64 → Bool := fun _ _ => false
  ovf : W64 → W64 → Bool := fun _ _ => false

/-- An integer is no signed 64-bit number. -/
def outside64 (z : Int) : Bool := decide (z < -2 ^ 63) || decide (2 ^ 63 ≤ z)

/-- The .f forms of R332, with `set_flags` of R331. -/
def flagRows : List FlagRow :=
  [ { instr := fun d a b => .add d a b true, result := fun a b => a + b
      carry := fun a b => decide (2 ^ 64 ≤ a.toNat + b.toNat), ovf := fun a b => outside64 (a.toInt + b.toInt) },
    { instr := fun d a b => .sub d a b true, result := fun a b => a - b
      carry := fun a b => a.ult b, ovf := fun a b => outside64 (a.toInt - b.toInt) },
    { instr := fun d a b => .and d a b true, result := fun a b => a &&& b },
    { instr := fun d a b => .or d a b true, result := fun a b => a ||| b },
    { instr := fun d a b => .xor d a b true, result := fun a b => a ^^^ b },
    { instr := fun d a b => .andn d a b true, result := fun a b => a &&& ~~~b },
    { instr := fun d a b => .shl d a b true, result := fun a b => a <<< (b.toNat % 64) },
    { instr := fun d a b => .shr d a b true, result := fun a b => a >>> (b.toNat % 64) },
    { instr := fun d a b => .sra d a b true, result := fun a b => a.sshiftRight (b.toNat % 64) } ]

/-- The table of R338. -/
def maskRows : List ((BitVec 4 → BitVec 4 → BitVec 4 → Instr) × (Mask → Mask → Mask)) :=
  [ (.kand, fun a b => a &&& b), (.kor, fun a b => a ||| b), (.kxor, fun a b => a ^^^ b), (.kandn, fun a b => a &&& ~~~b) ]
def maskUnaryRows : List ((BitVec 4 → BitVec 4 → Instr) × (Mask → Mask)) := [ (.knot, fun a => ~~~a), (.kmov, fun a => a) ]

/-- The forms of R339 that read a mask into a scalar register. -/
def maskReadRows : List ((BitVec 4 → BitVec 6 → Instr) × (Mask → W64)) :=
  [ (.ktos, fun m => m), (.kpopc, fun m => BitVec.ofNat 64 ((List.range 64).countP (fun i => m.getLsbD i))),
    (.kffs, fun m => firstBit (fun i => m.getLsbD i)) ]

/-- A mask of the path has been written: bits at or above W drop, and in `em` those of lanes that are not live; every other mask and every
other register is as it was (R107, R338). -/
structure SetsMask (x y : Issuer) (k : Nat) (v : Mask) : Prop where
  value : y.mask k = (v &&& BitVec.ofNat 64 (2 ^ x.w - 1)) &&& (if k = 0 then x.strand.live else BitVec.allOnes 64)
  others : ∀ j, j ≠ k → y.mask j = x.mask j
  strand : { y.strand with root := x.strand.root, entries := x.strand.entries, kregs := x.strand.kregs } = x.strand
  paths : ∀ p, p ≠ x.id.path → y.strand.path? p = x.strand.path? p
  path : { y.path with pc := x.path.pc, em := x.path.em, bpPass := x.path.bpPass } = x.path
  pc : y.path.pc = x.path.pc + 4

/-- A path has stopped at a trap: parked at the instruction with the record's place filled in, its PC and every register of its strand as they
were, and the record in hand for Holver (R259, R261). -/
structure StopsAt (s t : State) (x : Issuer) (info : TrapInfo) : Prop where
  path : ∃ y under, t.issuerAt x.id = some y ∧ y.path.park = .trap { info with splint := splintOf x.id.path } none under ∧ y.path.pc = x.path.pc ∧
    y.path.em = x.path.em ∧ y.path.scc = x.path.scc ∧
    { y.strand with root := x.strand.root, entries := x.strand.entries, txn := x.strand.txn } = x.strand
  record : ∃ l u, t.agenda = s.agenda ++ l ∧ .upcallPost u ∈ l ∧ u.kind = 3 ∧ u.waiter = some x.id ∧ u.arg0 = BitVec.ofNat 64 info.cause.code ∧
    u.trap = some { info with splint := splintOf x.id.path }
  memory : t.mem = s.mem

/-- Nothing outside the path stands in the way of its stopping: no gang latch of its coil waits, its bolt is not to be killed at a trap, no debugger
stops it at one, its address space is not traced. -/
structure MayStop (s : State) (x : Issuer) : Prop where
  here : s.issuerAt x.id = some x
  latches : x.coil.latches = []
  kill : x.desc.trapKill = false
  debug : bit (s.regN aDbgCfg) 0 = false
  traced : s.traces x.asid = false

/-- The values of `srd` (R345), those of the path, the strand and the coil in the order of the table. -/
def specialRows : List (BitVec 8 × (State → Issuer → W64)) :=
  [ (0x00, fun _ x => x.path.scc.setWidth 64),
    (0x01, fun _ x => x.path.seq ++ x.strand.cvt),
    (0x02, fun _ x => x.strand.fpf.setWidth 64),
    (0x03, fun _ x => x.strand.mxp),
    (0x04, fun _ x => x.strand.gang) ] ++
  (List.range 8).map (fun i => (BitVec.ofNat 8 (8 + i), fun _ x => Tab.get 0 x.strand.mregs i)) ++
  [ (0x10, fun _ x => BitVec.ofNat 64 x.coil.x),
    (0x11, fun _ x => BitVec.ofNat 64 x.coil.y),
    (0x12, fun _ x => BitVec.ofNat 64 x.coil.z),
    (0x13, fun _ x => BitVec.ofNat 64 x.id.strand),
    (0x14, fun _ x => BitVec.ofNat 64 x.bolt.desc.nstr),
    (0x15, fun _ x => BitVec.ofNat 64 x.bolt.desc.lanes),
    (0x16, fun _ x => BitVec.ofNat 64 x.coil.bolt),
    (0x17, fun _ x => BitVec.ofNat 64 x.hamper),
    (0x18, fun _ x => BitVec.ofNat 64 x.strand.slot),
    (0x19, fun _ x => BitVec.ofNat 64 x.id.path),
    (0x1A, fun _ x => x.strand.live),
    (0x1B, fun s _ => BitVec.ofNat 64 s.clock),
    (0x1C, fun _ x => BitVec.ofNat 64 x.coil.insnUsed),
    (0x1D, fun _ x => BitVec.ofNat 64 x.bolt.asid),
    (0x1E, fun s x => BitVec.ofNat 64 ((s.swin x.bolt.asid).getD 0)) ]

/-- Everything but barrier words of the coil, the progress of its strands and the path itself is as it was. -/
structure OnlyBarriers (x y : Issuer) (b : Nat) : Prop where
  coil : { y.coil with bars := x.coil.bars, barArmed := x.coil.barArmed, barArrived := x.coil.barArrived, strands := x.coil.strands
                       insnUsed := x.coil.insnUsed, stepOnly := x.coil.stepOnly } = x.coil
  others : ∀ j, j ≠ b → Tab.get 0 y.coil.bars j = Tab.get 0 x.coil.bars j ∧ y.coil.armed j = x.coil.armed j ∧
    Tab.get 0 y.coil.barArrived j = Tab.get 0 x.coil.barArrived j
  pc : y.path.pc = x.path.pc + 4

/-- Bits of a barrier word (R385). -/
def Coil.barState (c : Coil) (b : Nat) : Nat × Nat × Nat × Bool := (c.phase b, c.barExpect b, c.barCount b, c.armed b)

/-- A coil's hoop may be used (R111, R388): it is reserved and initialised, its bolt has a window, and the slot exists. -/
structure HoopReady (s : State) (x : Issuer) (h : BitVec 4) (i : Nat) : Prop where
  reserved : h.toNat < x.bolt.desc.hoops
  ready : Tab.get false x.coil.hoopInit h.toNat = true
  window : (s.swin x.bolt.asid).isSome
  slot : i ≤ bits (x.coil.hoop h.toNat) 31 28

/-- The address of a hoop's slot (R388). -/
def slotAddress (s : State) (x : Issuer) (h : BitVec 4) (i : Nat) : W64 :=
  let w := x.coil.hoop h.toNat
  BitVec.ofNat 64 ((s.swin x.bolt.asid).getD 0 + (if x.half = 1 then 0x100000 else 0) + bits w 18 0 + 64 * i * bits w 27 19)

/-- An engine has accepted an operation of context `ctx`: it has the next number of its context, which sd receives, its event is in hand, the
path goes on, and no byte of memory gets a new value (R178, R180, R390). -/
structure Accepts (s t : State) (x : Issuer) (ctx : Nat) (d : BitVec 6) (kind : OpKind) : Prop where
  op : ∃ o, Dict.find? t.ops s.nextOp = some o ∧ o.coil = x.id.coil ∧ o.ctx = ctx ∧ o.kind = kind ∧ o.half = x.half ∧
    o.number = Tab.get 0 x.coil.tlIssued ctx + 1 ∧ o.event s.nextOp ∈ t.agenda
  path : ∃ y, t.issuerAt x.id = some y ∧ y.path.pc = x.path.pc + 4 ∧ y.coil.insnUsed = x.coil.insnUsed + 1 ∧
    Tab.get 0 y.coil.tlIssued ctx = Tab.get 0 x.coil.tlIssued ctx + 1 ∧
    (∀ r, r < 64 → y.sAt r = if r ≠ 0 ∧ r = d.toNat then BitVec.ofNat 64 (Tab.get 0 x.coil.tlIssued ctx + 1) else x.sAt r)
  memory : t.mem = (s.releaseAt x 1).mem ∧ t.l1 = (s.releaseAt x 1).l1

/-- A result in sd and `scc`, the path behind its word, the other scalar registers as they were. -/
structure Reports (t : State) (x : Issuer) (d : BitVec 6) (v : W64) (c : Scc) : Prop where
  path : ∃ y, t.issuerAt x.id = some y ∧ y.path.pc = x.path.pc + 4 ∧ y.path.park = x.path.park ∧ y.path.scc = c ∧
    (∀ r, r < 64 → y.sAt r = if r ≠ 0 ∧ r = d.toNat then v else x.sAt r)

/-- A path that may issue a `ply` form of its strand: the root, with no split open and nothing parked (R197). -/
structure Alone (x : Issuer) : Prop where
  root : x.id.path = 15
  splits : x.strand.entries = []
  running : x.path.park = .running

/-- Z, N, C and V in the places of R345. -/
def zncv (z n c v : Bool) : Scc := BitVec.ofBool v ++ BitVec.ofBool c ++ BitVec.ofBool n ++ BitVec.ofBool z

/-- The next lane instruction of the path with the turn executes normally: its fields are defined, its role may issue it, the registers it names
are reserved, and no pending write or held register holds it up (R103, R108, R120, R121, R304). -/
structure LaneReady (s : State) (x : Issuer) (r : Running) (op : Nat) (o : Lane) (more : List Nat := []) : Prop where
  turn : s.issuer = some x
  running : x.strand.running = some r
  mine : r.course.path = x.id.path
  form : (laneForm op o).any (fun f => f.ok && f.roles &&& x.role != 0) = true
  lanes : ∀ v ∈ (laneUses op o more).1, (0xEF < v ∧ v ∉ more) ∨ v < x.desc.vregs
  scalars : ∀ n ∈ (laneUses op o more).2.2, n < x.desc.sregs
  free : laneStalls x r (laneUses op o more).1 (laneUses op o more).2.1 (laneUses op o more).2.2 = false
  held : ∀ v ∈ laneWrites op ((laneForm op o).getD {}) o, v ∉ s.heldRegs x.id.coil x.id.strand x.w

/-- A lane instruction as it issues. -/
def laneIn (x : Issuer) (r : Running) (o : Lane) : LaneIn := { x := x, r := r, o := o, act := activeOf x o }

/-- No active lane consumes poison through these operands (R263). -/
def LaneIn.clean (i : LaneIn) (specs : List Nat) : Prop := ∀ l ∈ i.lanes, ∀ p ∈ specs, i.bad p l = false

/-- The course stands behind its instruction; after a reissue, where it had come to (R260). -/
def Running.next (r : Running) : Running := { r with pos := r.after.getD (r.pos + 1), after := none }

/-- What holds after every lane instruction that has issued: the course stands behind it, the path keeps its PC and its `scc`, and other paths
and strands keep everything; `em` and SEQ are as given. -/
structure LaneStep (i : LaneIn) (y : Issuer) (em : Mask) (seq : W32) : Prop where
  strand : OnlyStrand i.x y
  course : y.strand.running = some i.r.next
  paths : ∀ p, p ≠ i.x.id.path → y.strand.path? p = i.x.strand.path? p
  path : { y.path with only := i.x.path.only } = { i.x.path with em := em, seq := seq }

/-- A short lane instruction has written its destination in its active lanes, and no other register (R302, R352, R353). -/
structure LaneWrote (s t : State) (i : LaneIn) (flags : FpFlags) (seq : W32) (good : Nat → W64 → Bool → Prop) : Prop where
  state : OnlyCoil s t i.x.id.coil
  path : ∃ y, t.issuerAt i.x.id = some y ∧ LaneStep i y i.x.path.em seq ∧ y.strand.fpf = i.x.strand.fpf ||| flags ∧
    { y.strand with root := i.x.strand.root, entries := i.x.strand.entries, vregs := i.x.strand.vregs, vpoison := i.x.strand.vpoison
                    fpf := i.x.strand.fpf, running := i.x.strand.running } = i.x.strand ∧
    (∀ l ∈ i.lanes, i.o.d.toNat ≤ 0xF7 →
      good l (Tab.get 0 y.strand.vregs (vKey i.o.d.toNat l)) (Tab.get false y.strand.vpoison (vKey i.o.d.toNat l))) ∧
    (∀ key, (∀ l ∈ i.lanes, i.o.d.toNat ≤ 0xF7 → key ≠ vKey i.o.d.toNat l) →
      Tab.get 0 y.strand.vregs key = Tab.get 0 i.x.strand.vregs key ∧ Tab.get false y.strand.vpoison key = Tab.get false i.x.strand.vpoison key)

/-- A lane instruction has written its active lanes' bits of a mask: `em` takes no lane that is not live (R358, R359). -/
structure LaneMasked (s t : State) (i : LaneIn) (flags : FpFlags) (k : Nat) (cond : Nat → Bool) : Prop where
  state : s.traces i.x.asid = false → OnlyCoil s t i.x.id.coil
  path : ∃ y, t.issuerAt i.x.id = some y ∧ LaneStep i y (if k = 0 then y.path.em else i.x.path.em) i.x.path.seq ∧
    y.strand.fpf = i.x.strand.fpf ||| flags ∧
    { y.strand with root := i.x.strand.root, entries := i.x.strand.entries, kregs := i.x.strand.kregs, fpf := i.x.strand.fpf
                    running := i.x.strand.running } = i.x.strand ∧
    (∀ l, l < i.x.w → l < 64 → (y.mask k).getLsbD l =
      if i.act.getLsbD l then cond l && (decide (k ≠ 0) || i.x.strand.live.getLsbD l) else (i.x.mask k).getLsbD l) ∧
    (∀ j, j ≠ k → y.mask j = i.x.mask j)

/-- A lane instruction has written a scalar register of its path; s0 takes no write (R368, R369). -/
structure LaneScalar (s t : State) (i : LaneIn) (flags : FpFlags) (d : Nat) (v : W64) (bad : Bool) : Prop where
  state : OnlyCoil s t i.x.id.coil
  path : ∃ y, t.issuerAt i.x.id = some y ∧ LaneStep i y i.x.path.em i.x.path.seq ∧ y.strand.fpf = i.x.strand.fpf ||| flags ∧
    { y.strand with root := i.x.strand.root, entries := i.x.strand.entries, sregs := i.x.strand.sregs, spoison := i.x.strand.spoison
                    fpf := i.x.strand.fpf, running := i.x.strand.running } = i.x.strand ∧ SetsReg i.x y d v bad

/-- A lane instruction has issued, with every register of its strand as it was but for the addresses that mode 2 advances (R374). -/
structure LanePassed (t : State) (i : LaneIn) (advanced : Bool) : Prop where
  path : ∃ y, t.issuerAt i.x.id = some y ∧ LaneStep i y i.x.path.em i.x.path.seq ∧
    { y.strand with root := i.x.strand.root, entries := i.x.strand.entries, vregs := i.x.strand.vregs, vpoison := i.x.strand.vpoison
                    longs := i.x.strand.longs, flight := i.x.strand.flight, running := i.x.strand.running } = i.x.strand ∧
    (∀ key, (advanced = true → ∀ l ∈ i.lanes, key ≠ vKey i.o.a.toNat l) → Tab.get 0 y.strand.vregs key = Tab.get 0 i.x.strand.vregs key ∧
      Tab.get false y.strand.vpoison key = Tab.get false i.x.strand.vpoison key) ∧
    (advanced = true → ∀ l ∈ i.lanes, ∀ m b n,
      m = bits i.o.imm.toNat 17 16 → b = Tab.get 0 i.x.strand.mregs (2 * m) → n = Tab.get 0 i.x.strand.mregs (2 * m + 1) →
      Tab.get 0 y.strand.vregs (vKey i.o.a.toNat l) =
        if n = 0 then i.a l + (i.o.imm.setWidth 16).signExtend 64 else b + (i.a l + (i.o.imm.setWidth 16).signExtend 64 - b) % n)

/-- A long lane instruction has issued: its writes wait under its number, and its completion is in hand (R120). -/
structure LanePending (t : State) (i : LaneIn) (op : Nat) (flags : FpFlags) (good : Nat → W64 → Bool → Prop) : Prop where
  path : ∃ y g, t.issuerAt i.x.id = some y ∧ Dict.find? y.strand.longs op = some g ∧ g.path = i.x.id.path ∧
    g.courseNumber = i.r.course.number ∧ g.pos = i.r.pos ∧ g.la = i.o.la.toNat ∧ g.remote = [] ∧ g.fails = [] ∧ g.held = false ∧
    g.ended = false ∧ g.flags = flags ∧
    (i.o.d.toNat ≤ 0xF7 → ∀ l ∈ i.lanes, ∃ v bad, (vKey i.o.d.toNat l, v, bad) ∈ g.vWrites ∧ good l v bad) ∧
    (∀ e ∈ g.vWrites, ∃ l ∈ i.lanes, e.1 = vKey i.o.d.toNat l ∧ good l e.2.1 e.2.2)
  event : .laneLongComplete op ∈ t.agenda

/-- An elementwise instruction: its opcode, the operands it consumes, and the result of one element with its flags. -/
structure LaneRow where
  instr : Lane → Instr
  op : Nat
  srcs : Lane → List Nat
  result : Lane → Nat → Nat → Nat → Nat × FpFlags

/-- Every element of a word is the result on the elements of A, B and C (R296). -/
def LaneIn.elementsAre (i : LaneIn) (f : Nat → Nat → Nat → Nat × FpFlags) (l : Nat) (v : W64) (bad : Bool) : Prop :=
  bad = false ∧ ∀ j, j < i.n → elem i.e j v = (f (elem i.e j (i.a l)) (elem i.e j (i.b l)) (elem i.e j (i.c l))).1 % 2 ^ i.e

/-- The flags of every element of every active lane together (R353). -/
def LaneIn.flagsOf (i : LaneIn) (f : Nat → Nat → Nat → Nat × FpFlags) : FpFlags :=
  i.lanes.foldl (fun g l => (upFrom 0 i.n).foldl (fun g j => g ||| (f (elem i.e j (i.a l)) (elem i.e j (i.b l)) (elem i.e j (i.c l))).2) g) 0

def srcsA (o : Lane) : List Nat := [o.a.toNat]
def srcsAB (o : Lane) : List Nat := [o.a.toNat, o.b.toNat]
def srcsABC (o : Lane) : List Nat := [o.a.toNat, o.b.toNat, o.c.toNat]

/-- Number of values of an element. -/
def laneSize (o : Lane) : Nat := 2 ^ tyWidth o.ty.toNat

/-- An exact integer modulo 2^e. -/
def laneLow (o : Lane) (z : Int) : Nat × FpFlags := ((z % (laneSize o : Int)).toNat, 0)

/-- An element by the signedness of TYPE (R311). -/
def laneInt (o : Lane) (x : Nat) : Int := ival o.ty.toNat x

/-- The short tables of R356 and R357. -/
def laneIntRows : List LaneRow :=
  [ ⟨.vAdd, 0x01, srcsAB, fun o a b _ => laneLow o (a + b)⟩,
    ⟨.vSub, 0x02, srcsAB, fun o a b _ => laneLow o (a - b)⟩,
    ⟨.vMul, 0x03, srcsAB, fun o a b _ => laneLow o (a * b)⟩,
    ⟨.vMulh, 0x04, srcsAB, fun o a b _ => laneLow o (laneInt o a * laneInt o b / (laneSize o : Int))⟩,
    ⟨.vMad, 0x05, srcsABC, fun o a b c => laneLow o (a * b + c)⟩,
    ⟨.vMin, 0x06, srcsAB, fun o a b _ => laneLow o (min (laneInt o a) (laneInt o b))⟩,
    ⟨.vMax, 0x07, srcsAB, fun o a b _ => laneLow o (max (laneInt o a) (laneInt o b))⟩,
    ⟨.vAbs, 0x08, srcsA, fun o a _ _ => laneLow o (laneInt o a).natAbs⟩,
    ⟨.vNeg, 0x09, srcsA, fun o a _ _ => laneLow o (-a)⟩,
    ⟨.vAdds, 0x0A, srcsAB, fun o a b _ => laneLow o (max (tyMin o.ty.toNat) (min (tyMax o.ty.toNat) (laneInt o a + laneInt o b)))⟩,
    ⟨.vSubs, 0x0B, srcsAB, fun o a b _ => laneLow o (max (tyMin o.ty.toNat) (min (tyMax o.ty.toNat) (laneInt o a - laneInt o b)))⟩,
    ⟨.vSad, 0x0E, srcsABC, fun o a b c => laneLow o ((laneInt o a - laneInt o b).natAbs + c)⟩,
    ⟨.vAnd, 0x10, srcsAB, fun _ a b _ => (a &&& b, 0)⟩,
    ⟨.vOr, 0x11, srcsAB, fun _ a b _ => (a ||| b, 0)⟩,
    ⟨.vXor, 0x12, srcsAB, fun _ a b _ => (a ^^^ b, 0)⟩,
    ⟨.vNot, 0x13, srcsA, fun o a _ _ => (laneSize o - 1 - a, 0)⟩,
    ⟨.vShl, 0x14, srcsAB, fun o a b _ => laneLow o (a * 2 ^ (b % tyWidth o.ty.toNat))⟩,
    ⟨.vShr, 0x15, srcsAB, fun o a b _ => laneLow o (laneInt o a / 2 ^ (b % tyWidth o.ty.toNat))⟩,
    ⟨.vBfx, 0x16, srcsA, fun o a _ _ =>
      let len := bits o.imm.toNat 14 8
      let field := a / 2 ^ bits o.imm.toNat 5 0 % 2 ^ len
      laneLow o (if tySigned o.ty.toNat then sval len field else field)⟩,
    ⟨.vBfi, 0x17, srcsAB, fun o a b _ =>
      let pos := bits o.imm.toNat 5 0
      let len := bits o.imm.toNat 14 8
      laneLow o (a - (a / 2 ^ pos % 2 ^ len : Nat) * 2 ^ pos + (b % 2 ^ len : Nat) * 2 ^ pos)⟩,
    ⟨.vPopc, 0x18, srcsA, fun o a _ _ => ((List.range (tyWidth o.ty.toNat)).countP (fun k => a.testBit k), 0)⟩,
    ⟨.vClz, 0x19, srcsA, fun o a _ _ =>
      let e := tyWidth o.ty.toNat
      (((List.range e).find? (fun k => a.testBit (e - 1 - k))).getD e, 0)⟩ ]

/-- `v.div` and `v.rem`, which are long (R356). -/
def laneDivRows : List LaneRow :=
  [ ⟨.vDiv, 0x0C, srcsAB, fun o a b _ => if b = 0 then (laneSize o - 1, 0) else laneLow o ((laneInt o a).tdiv (laneInt o b))⟩,
    ⟨.vRem, 0x0D, srcsAB, fun o a b _ => if b = 0 then (a, 0) else laneLow o ((laneInt o a).tmod (laneInt o b))⟩ ]

/-- The format of an instruction's TYPE. -/
def laneFmt (o : Lane) : Fmt := fmtOf o.ty.toNat

/-- The table of R361, on the operations of the number formats. -/
def laneFloatRows : List LaneRow :=
  [ ⟨.vFadd, 0x20, srcsAB, fun o a b _ => (laneFmt o).add o.sub.toNat a b⟩,
    ⟨.vFsub, 0x21, srcsAB, fun o a b _ => (laneFmt o).sub o.sub.toNat a b⟩,
    ⟨.vFmul, 0x22, srcsAB, fun o a b _ => (laneFmt o).mul o.sub.toNat a b⟩,
    ⟨.vFma, 0x23, srcsABC, fun o a b c => (laneFmt o).fma o.sub.toNat a b c⟩,
    ⟨.vFmin, 0x24, srcsAB, fun o a b _ => (laneFmt o).fmin a b⟩,
    ⟨.vFmax, 0x25, srcsAB, fun o a b _ => (laneFmt o).fmax a b⟩,
    ⟨.vFabs, 0x26, srcsA, fun o a _ _ => (laneFmt o).withSign a false⟩,
    ⟨.vFneg, 0x27, srcsA, fun o a _ _ => (laneFmt o).withSign a (!bit a ((laneFmt o).w - 1))⟩,
    ⟨.vFsgn, 0x28, srcsAB, fun o a b _ => (laneFmt o).withSign a (signOf o.sub.toNat (bit a ((laneFmt o).w - 1)) (bit b ((laneFmt o).w - 1)))⟩,
    ⟨.vFint, 0x29, srcsA, fun o a _ _ => (laneFmt o).fint o.sub.toNat (o.mod == 1) a⟩,
    ⟨.vFscl, 0x2A, srcsAB, fun o a b _ => (laneFmt o).fscl a b⟩,
    ⟨.vFcls, 0x2B, srcsA, fun o a _ _ => ((laneFmt o).fcls a, 0)⟩ ]

/-- The long table of R362. -/
def laneFnRows : List LaneRow :=
  [ ⟨.vFdiv, 0x2C, srcsAB, fun o a b _ => (laneFmt o).div o.sub.toNat a b⟩,
    ⟨.vFsqrt, 0x2D, srcsA, fun o a _ _ => (laneFmt o).sqrt o.sub.toNat a⟩,
    ⟨.vFrcp, 0x2E, srcsA, fun o a _ _ => (laneFmt o).rcp a⟩,
    ⟨.vFrsq, 0x2F, srcsA, fun o a _ _ => (laneFmt o).rsq a⟩,
    ⟨.vFexp2, 0x30, srcsA, fun o a _ _ => (laneFmt o).exp2 a⟩,
    ⟨.vFlog2, 0x31, srcsA, fun o a _ _ => (laneFmt o).log2 a⟩,
    ⟨.vFsin, 0x32, srcsA, fun o a _ _ => (laneFmt o).fsin a⟩,
    ⟨.vFcos, 0x33, srcsA, fun o a _ _ => (laneFmt o).fcos a⟩ ]

/-- A compare: its opcode, its condition on two elements with the flags. -/
structure CompareRow where
  instr : Lane → Instr
  op : Nat
  cond : Lane → Nat → Nat → Bool × FpFlags

/-- The conditions of R360, by SUBOP. -/
def intCondition (sub : Nat) (a b : Int) : Bool :=
  [decide (a = b), decide (a ≠ b), decide (a < b), decide (a ≤ b), decide (a > b), decide (a ≥ b)].getD sub false

def compareRows : List CompareRow :=
  [ ⟨.vCmp, 0x1A, fun o a b => (intCondition o.sub.toNat (laneInt o a) (laneInt o b), 0)⟩,
    ⟨.vTest, 0x1B, fun o a b => (if o.sub = 0 then decide (a &&& b ≠ 0) else decide (a &&& b = 0), 0)⟩,
    ⟨.vFcmp, 0x40, fun o a b => (laneFmt o).fcmp o.sub.toNat a b⟩ ]

/-- The elements that decide a lane's bit: element IDX alone, or all of them (R358). -/
def LaneIn.deciding (i : LaneIn) : List Nat := if bits i.o.mod.toNat 4 3 = 0 then [bits i.o.mod.toNat 2 0] else upFrom 0 i.n

/-- The bit of a lane by RED (R358). -/
def LaneIn.decides (i : LaneIn) (f : Nat → Nat → Bool × FpFlags) (l : Nat) : Bool :=
  if bits i.o.mod.toNat 4 3 = 2 then decide (∀ j ∈ i.deciding, (f (elem i.e j (i.a l)) (elem i.e j (i.b l))).1 = true)
  else decide (∃ j ∈ i.deciding, (f (elem i.e j (i.a l)) (elem i.e j (i.b l))).1 = true)

/-- The flags of the comparisons made. -/
def LaneIn.compareFlags (i : LaneIn) (f : Nat → Nat → Bool × FpFlags) : FpFlags :=
  i.lanes.foldl (fun g l => g ||| i.deciding.foldl (fun h j => h ||| (f (elem i.e j (i.a l)) (elem i.e j (i.b l))).2) 0) 0

/-- The accesses of an instruction are all allowed and reach places inside the device; the judgement leaves `s1`. The table of the Hamper has room
for them, and no answer that the path's order puts before them is missing: before a release, `late`, none at all (R152, R163, R165). -/
structure Allowed (s s1 : State) (x : Issuer) (ps : List (Nat × Acc × Place)) (late : Bool := false) (entries : Option Nat := none)
    (view : View := x.view) : Prop where
  room : s1.ottUsed x.hamper + entries.getD (s1.ottEntries ps) ≤ 512
  order : orderWaits x late = false
  judged : s.judgeAll x.who (ps.map (fun p => (p.1, p.2.1))) = (ps.map (fun p => (p.1, p.2.1, .ok p.2.2)), s1)
  near : ∀ p ∈ ps, p.2.2.isRemote = false ∧ s1.refuses p.2.2 p.2.1.kind = false
  valid : meetsRevoked s1 view ps = false

/-- One access in each active lane. -/
def LaneIn.accesses (i : LaneIn) (acc : Nat → Acc) (place : Nat → Place) : List (Nat × Acc × Place) := i.lanes.map (fun l => (l, acc l, place l))

/-- No two active lanes act on a common byte. -/
def LaneIn.apart (i : LaneIn) (pa : Nat → Nat) (n : Nat) : Prop :=
  ∀ l ∈ i.lanes, ∀ m ∈ i.lanes, l ≠ m → pa l + n ≤ pa m ∨ pa m + n ≤ pa l

/-- Words of device memory that the active lanes have changed, in the L1 of their Hamper or at the L2: the bytes of lane `l` at `pa l` are those
given where no other lane acts on them, and no byte outside them has got a new value. -/
structure LaneStored (s t : State) (i : LaneIn) (pa : Nat → Nat) (n : Nat) (v : Nat → W64) (atL2 : Bool) : Prop where
  stored : i.apart pa n → ∀ l ∈ i.lanes, ∀ j, j < n → (atL2 = true → t.byte (pa l + j) = (v l >>> (8 * j)).setWidth 8) ∧
    (atL2 = false → t.seen i.x.hamper (pa l + j) = (v l >>> (8 * j)).setWidth 8)
  memory : ∀ a, (∀ l ∈ i.lanes, a < pa l ∨ pa l + n ≤ a) → t.byte a = s.byte a ∨ t.byte a = s.seen i.x.hamper a
  cached : ∀ a, (∀ l ∈ i.lanes, a < pa l ∨ pa l + n ≤ a) → t.seen i.x.hamper a = s.seen i.x.hamper a ∨ t.seen i.x.hamper a = s.byte a
  others : ∀ g, g ≠ i.x.hamper → ∀ sb, t.l1At g sb = s.l1At g sb

/-- A conversion: where it reads and where it writes its first element, and whether the other elements of D stay (R364). -/
structure CvtRow where
  instr : Lane → Instr
  op : Nat
  source : Nat → Nat
  target : Nat → Nat
  keeps : Bool

/-- The table of R364; the argument is p × n. -/
def cvtRows : List CvtRow :=
  [ ⟨.vCvt, 0x48, fun _ => 0, fun _ => 0, false⟩,
    ⟨.vPack, 0x49, fun _ => 0, fun k => k, true⟩,
    ⟨.vUnpack, 0x4A, fun k => k, fun _ => 0, false⟩ ]

/-- The destination word of a conversion: elements from `to0` hold what the conversion gives, the others 0 or what they held. -/
def LaneIn.converted (i : LaneIn) (n to0 : Nat) (keeps : Bool) (f : Nat → Nat → Cvt) (l : Nat) (v : W64) (bad : Bool) : Prop :=
  bad = (keeps && i.bad i.o.d.toNat l) ∧ ∀ j, j < i.n → elem i.e j v =
    if to0 ≤ j ∧ j < to0 + n then (f l (j - to0)).v % 2 ^ i.e else if keeps then elem i.e j (i.dOld l) else 0

/-- The flags of a conversion, and whether an element of it drew (R323, R353). -/
def LaneIn.cvtFlags (i : LaneIn) (n : Nat) (f : Nat → Nat → Cvt) : FpFlags :=
  i.lanes.foldl (fun g l => (upFrom 0 n).foldl (fun g j => g ||| (f l j).f) g) 0
def LaneIn.cvtDrew (i : LaneIn) (n : Nat) (f : Nat → Nat → Cvt) : Bool := i.lanes.any (fun l => (upFrom 0 n).any (fun j => (f l j).drew))

/-- SEQ after an instruction that may have drawn (R323). -/
def LaneIn.seqAfter (i : LaneIn) (drew : Bool) : W32 := if drew then i.x.path.seq + 1 else i.x.path.seq

/-- The elements of active lanes at the positions below element `j` of lane `l`, in ascending order (R369). -/
def LaneIn.before (i : LaneIn) (l j : Nat) : List Nat :=
  (i.lanes.filter (fun m => decide (m < l))).flatMap (fun m => (upFrom 0 i.n).map (fun k => elem i.e k (i.a m)))
    ++ (upFrom 0 j).map (fun k => elem i.e k (i.a l))

/-- An engine has accepted an operation of a lane instruction, and the course goes on with every register as it was (R178, R410). -/
structure LaneAccepts (s t : State) (i : LaneIn) (op ctx : Nat) (kind : OpKind) : Prop where
  op : ∃ o, Dict.find? t.ops op = some o ∧ o.coil = i.x.id.coil ∧ o.strand = i.x.id.strand ∧ o.ctx = ctx ∧ o.kind = kind ∧ o.half = i.x.half ∧
    o.event op ∈ t.agenda
  path : ∃ y, t.issuerAt i.x.id = some y ∧ y.strand.running = some i.r.next ∧ y.strand.vregs = i.x.strand.vregs ∧
    y.strand.sregs = i.x.strand.sregs ∧ y.strand.kregs = i.x.strand.kregs ∧ y.path.pc = i.x.path.pc ∧ y.path.em = i.x.path.em ∧
    y.coil.insnUsed = i.x.coil.insnUsed + 1 ∧ Tab.get 0 y.coil.tlIssued ctx = Tab.get 0 i.x.coil.tlIssued ctx + (if ctx ≤ 2 then 1 else 0)
  memory : Kept s t i.x.hamper

/-- The device-to-host ring has room, and no message waits for it (R28). -/
structure MailReady (s : State) : Prop where
  empty : s.link.mail = []
  room : (s.regF aMbxIdx2 31 0 + 2 ^ 32 - s.regF aMbxIdx2 63 32) % 2 ^ 32 < 1024

/-- A message has gone out on the device-to-host ring: the slot at the write index holds it, and the index has moved (R28). -/
structure Mailed (s t : State) (slot : List Byte) : Prop where
  slot : Tab.getRun Config.blank t.link.mailbox (0x40000 + 256 * (s.regF aMbxIdx2 31 0 % 1024)) 256 = slot
  index : t.regF aMbxIdx2 31 0 = (s.regF aMbxIdx2 31 0 + 1) % 2 ^ 32
  done : t.link.mail = []

/-- The reply to a request has gone out: its KIND with bit 15 set, the request's SEQ, a STATUS, and a body (R28, R70). -/
def Replied (s t : State) (r : MbxReq) (status : Nat) (body : List Byte) : Prop :=
  Mailed s t (mailSlot ((r.kind + 0x8000) % 2 ^ 16) r.seq.toNat status body)

/-- A response of the SPDM responder has gone out, over the transport of the request, with a code (R35; log 64). -/
def Answered (s t : State) (r : SpdmReq) (code : Nat) : Prop :=
  ∃ p : List Byte, t.outbox = .spdm r.mctp code p :: s.outbox ∧ p = r.payload.take 1 ++ toBytes 1 code ++ p.drop ((r.payload.take 1).length + 1)

/-- An SPDM request that a connection's state admits: the instruction, when it is admitted, the code of its response, the connection after. -/
structure SpdmRow where
  instr : SpdmReq → Instr
  admitted : SpdmConn → SpdmReq → Prop
  code : Nat
  after : SpdmConn → SpdmReq → SpdmConn := fun c _ => c

/-- A session of a request is in a connection, secured or not yet. -/
def SpdmConn.holds (c : SpdmConn) (r : SpdmReq) (finished : Bool) : Prop := ∃ n, r.session = some n ∧ (n, finished) ∈ c.sessions

/-- Bytes of device memory that an agent outside the coils reads and writes as they stand: none in a ply region or in the carve-out, none of a
line with a copy in another device. -/
def PlainRun (s : State) (pa n : Nat) : Prop :=
  ∀ a, pa ≤ a → a < pa + n → s.inCarve a = false ∧ s.inRegion a = false ∧ Dict.find? s.fabric.snoop (a / 128) = none

/-- The bytes from `pa` are those of a list, and every other byte is as it was. -/
def Holds (s t : State) (pa : Nat) (l : List Byte) : Prop :=
  (∀ i, i < l.length → some (t.byte (pa + i)) = l[i]?) ∧ (∀ a, a < pa ∨ pa + l.length ≤ a → t.byte a = s.byte a)

/-- One step of the limiter down: 1/32 of the ceiling, never below 1/32 of it, in 2^20ths (R19). -/
def lowered (rate : Nat) : Nat := if rate ≤ 2 ^ 15 then rate else max (2 ^ 15) (rate - 2 ^ 15)

/-- The bytes of device memory from `pa` on. -/
def State.run (s : State) (pa n : Nat) : List Byte := (List.range n).map (fun i => s.byte (pa + i))

/-- A request of an engine has been answered: it is gone, and the answer to its one part waits for the engine. -/
structure EngineAnswered (s t : State) (id op : Nat) (r : RemoteReq) (p : RemotePart) (l : List Byte) (bad : Bool) (cause : Option Cause) : Prop where
  gone : Dict.find? t.remotes id = none
  here : t.arrived = { reader := .engine op, kind := r.kind, va := p.va.toNat, size := p.len, bytes := l, poisoned := bad, cause := cause } :: s.arrived
  memory : t.mem = s.mem

/-- An engine's request of one part that reads whole is outstanding on a port. -/
structure EngineAsks (s : State) (id op : Nat) (r : RemoteReq) (p : RemotePart) : Prop where
  there : Dict.find? s.remotes id = some r
  reader : r.reader = some (.engine op)
  parts : r.parts = [p]
  whole : p.pos = 0
  kind : r.kind = .read
  out : r.held = false
  kept : r.gone = false

/-- Some translations are gone, and whatever an L1 held dirty of their pages has been written back; nothing else changes but a register (R156). -/
structure Invalidated (s t : State) (gone : TlbEntry → Prop) : Prop where
  rest : { t with tlb := s.tlb, regs := s.regs, mem := s.mem, poison := s.poison, resv := s.resv, l1 := s.l1 } = s
  tlb : ∀ e, e ∈ t.tlb ↔ e ∈ s.tlb ∧ ¬ gone e
  written : ∀ e ∈ s.tlb, gone e → ∀ b ∈ t.l1, e.pbase < 512 * b.base + 512 → 512 * b.base < e.pbase + e.size → b.dirty = 0
  same : (∀ b ∈ s.l1, b.dirty = 0) → t.mem = s.mem

/-- A holder's copy of a line is gone from the snoop filter, and the entry with its last holder (R50, R51). -/
structure HolderLeft (s t : State) (line holder : Nat) (e : Snoop) : Prop where
  entry : Dict.find? t.fabric.snoop line =
    if e.holders.erase holder = [] then none else some { e with holders := e.holders.erase holder, awaiting := e.awaiting.erase holder }
  others : ∀ k, k ≠ line → Dict.find? t.fabric.snoop k = Dict.find? s.fabric.snoop k

/-- A Yoke hart's access that goes to device memory, to one line of plain bytes (R61, R62, R450). -/
structure YokeHere (s : State) (a : YokeAccess) : Prop where
  free : s.commandPending a.hart a.pa = false
  order : s.yokeWaits a = false
  window : s.winOff a.asid a.va.toNat = none
  peer : inPeerWin a.va.toNat = false
  regs : inRegSpace a.pa = false
  host : inHostWin a.pa = false
  here : a.pa + a.size ≤ s.memBytes
  line : a.pa % 128 + a.size ≤ 128
  plain : PlainRun s a.pa a.size

/-- A trap that a path stands at under an upcall index, on a coil that is resident (R262). -/
structure TrapWaits (s : State) (x : Issuer) (index : W32) (info : TrapInfo) : Prop where
  known : Dict.find? s.traps index.toNat = some x.id
  path : s.issuerAt x.id = some x
  park : x.path.park = .trap info (some index.toNat) none
  standing : ∀ e, x.path.standing = some e → e.2 ≠ some index.toNat

/-- A cause that concerns several paths (R262). -/
def ofSeveral (c : Cause) : Prop := 6 ≤ c.code ∧ c.code ≤ 9

/-- A trapped path goes on at `pc`, its next lane issue restricted as given; STATUS reads 0 (R261, R262). -/
structure TrapAnswered (t : State) (x : Issuer) (index : W32) (pc : W64) (only : Option Mask) : Prop where
  path : ∃ y, t.issuerAt x.id = some y ∧ y.path = { x.path with park := .running, pc := pc, only := only } ∧ y.strand.sregs = x.strand.sregs ∧
    y.strand.vregs = x.strand.vregs ∧ y.strand.running = x.strand.running
  status : t.regF aTrapCmd 41 40 = 0
  gone : Dict.find? t.traps index.toNat = none

/-- The packet at which a queue stands has begun, with its words (R76, R93). -/
def State.began (s : State) (q : Nat) (words : List Nat) : State := s.updQueue q (fun c => { c with begun := true, words := words })

/-- The worker of a queue stands at a whole packet of an OP, with a record `c`; reading the packet's words leaves `s1` (R83, R84). -/
structure PacketAt (s s1 : State) (q op : Nat) (c : CmdQueue) (words : List Nat) : Prop where
  queue : s.queue? q = some c
  worker : c.worker = true
  idle : c.launch = none ∧ c.skip = 0 ∧ c.mirrorDue = false ∧ c.begun = false
  begins : s.mayBegin q c = true
  header : bits (words.getD 0 0) 7 0 = op ∧ bits (words.getD 0 0) 15 12 = 0 ∧ bits (words.getD 0 0) 11 8 = words.length
  length : 1 ≤ words.length ∧ words.length ≤ 8 ∧ (op ≠ 0 → packetLen op = some words.length)
  enclosed : words.length ≤ levelLeft c.frames
  read : ∃ s0, s.queueRead q (s.wordVa q c.frames 0) false [packetEvent q op] = (some (words.getD 0 0), s0) ∧ words.length ≤ s0.wordsLeft q c.frames ∧
    s0.queueReads q false [packetEvent q op] ((upFrom 1 (words.length - 1)).map (s0.wordVa q c.frames)) = (some (words.drop 1), s1)
  record : s1.queue? q = some c

/-- A strand counts in the predictor's comparison of progress (R117). -/
structure Predicted (st : Strand) : Prop where
  live : st.ended = false
  upcall : ∀ i d, st.root.park ≠ .upcall i d
  fault : ∀ w deny denied n a, st.root.park ≠ .fault w deny denied n a

/-- A parked path goes on behind its instruction with one register and `scc` written (R137: nothing is counted). -/
def Resumed (t : State) (x : Issuer) (d : BitVec 6) (v : W64) (c : Scc) : Prop :=
  ∃ y, t.issuerAt x.id = some y ∧ y.path = { x.path with park := .running, pc := x.path.pc + 4, scc := c } ∧ y.coil.insnUsed = x.coil.insnUsed ∧
    ∀ r, r < 64 → y.sAt r = if r ≠ 0 ∧ r = d.toNat then v else x.sAt r

/-- A coil of one bolt that is not co-resident stands on its Hampers, with no debugger at it. -/
structure Resident (s : State) (k : Nat) (c : Coil) (b : Bolt) : Prop where
  coil : s.coilBolt? k = some (c, b)
  here : c.residency = .resident
  free : c.debugStop = false
  alone : b.desc.cores = false

/-- The DBG_CMD register orders one coil, which it names, and the coil is the only one of its bolt to be ordered (R269, R270). -/
structure DebugNames (s : State) (k : Nat) (c : Coil) (b : Bolt) : Prop where
  one : bit (s.regN aDbgCmd) 8 = false
  named : s.coilNamed (s.regN aDbgSelBolt) (s.regN aDbgSelPos) = some (k, c)
  coil : s.coilBolt? k = some (c, b)
  alone : b.desc.cores = false

/-- An entry of the snapshot table is the one that R206 revokes: no other entry in use that is not revoked has as low a stamp. -/
structure Oldest (s : State) (i : Nat) (e : SnapEntry) : Prop where
  there : Dict.find? s.ply.snaps i = some e
  live : e.revoked = false
  least : ∀ a ∈ s.ply.snaps, a.2.revoked = false → a.1 = i ∨ e.stamp < a.2.stamp

/-- An entry of the snapshot table has been revoked, and counted (R206, R207). -/
structure RevokedEntry (s t : State) (i : Nat) (e : SnapEntry) : Prop where
  entry : Dict.find? t.ply.snaps i = some { e with revoked := true }
  count : t.regF aPlySnaps 63 32 = min (s.regF aPlySnaps 63 32 + 1) 0xFFFFFFFF
  error : bit (t.regN aPlyErr) 2 = true
  memory : t.mem = s.mem

/-- An engine can go on with an operation of a resident coil: nothing that it waits for is outstanding, and no older operation stands in its
way (R131, R212, R214). -/
structure EngineRuns (s : State) (op : Nat) (o : EngineOp) (c : Coil) (b : Bolt) : Prop where
  there : Dict.find? s.ops op = some o
  coil : s.coilBolt? o.coil = some (c, b)
  resident : c.residency = .resident
  lives : c.liveStrands ≠ []
  free : o.faulted = false
  quiet : s.awaits (.engine op) = false
  clear : s.opBlocked op o = false

/-- An operation has left its engine; its coil is `c1`, and where every older number has completed, its timeline shows its number (R178, R179). -/
structure OpDone (t : State) (op : Nat) (o : EngineOp) (c c1 : Coil) : Prop where
  gone : Dict.find? t.ops op = none
  coil : t.coil? o.coil = some c1
  count : o.ctx ≤ 2 → c.tlDone = [] → o.number = Tab.get 0 c.tlCount o.ctx + 1 → Tab.get 0 c1.tlCount o.ctx = o.number

/-- An operation has ended early with a cause: its number completes, and its paths are to trap (R214, R392). -/
structure OpEnds (t : State) (op : Nat) (o : EngineOp) (c : Coil) (cause : Cause) : Prop where
  done : ∃ c1, OpDone t op o c c1
  traps : ∀ m ∈ o.members, ∃ d, .deferredTrap d ∈ t.agenda ∧ d.path.coil = o.coil ∧ d.path.strand = m.1 ∧ d.info.cause = cause

/-- Byte `k` of row `r` of operand rows of 48 bytes that were read in pieces of 16 (R209, R213). -/
def rowByte (data : List (List Byte × Bool)) (r k : Nat) : Byte := (((data.drop (3 * r)).take 3).flatMap Prod.fst).getD k 0

/-- An operand byte as an integer: signed for format 8, else unsigned (R315). -/
def byteValue (fmt : Nat) (x : Byte) : Int := if fmt = 8 then x.toInt else x.toNat

/-- The pieces of 16 bytes in which the rows of a K-step are read (R213). -/
def rowReads (base stride : W64) (rows step : Nat) : List Acc :=
  (upFrom 0 rows).flatMap (fun r => pieces 16 .read 4 (base.toNat + r * stride.toNat + 48 * step) 48)

/-- What follows a poll of a queue: packets that have not begun are tried, and an open queue comes up again. -/
def State.pollEnd (s : State) (q : Nat) : State :=
  let s1 := s.startRing q
  let live := s1.bteState q == 1 || (match Dict.find? s1.bte q with | some b => b.packets.any (fun p => !p.started) || b.due != [] | none => false)
  if live && !s1.agenda.contains (.btePoll q) then s1.push [.btePoll q] else s1

/-- A chunk of a packet that has begun comes up, with nothing of it outstanding. -/
structure ChunkUp (s : State) (q n k : Nat) (p : BtePacket) (b : BteQueue) : Prop where
  packet : s.packet? q n = some p
  queue : Dict.find? s.bte q = some b
  begun : p.started = true
  open' : bit p.done k = false
  inside : k < p.chunks
  quiet : s.awaits (.chunk q n k) = false
  fresh : p.results = []
  free : p.held = false
  stays : s.packetWaits q p = false

/-- A step comes to a stream of the path that has the turn: the clocks run, and none of the other open steps is chosen (log 1). -/
structure PathTurn (s s1 : State) (x : Issuer) (tn : Turn) : Prop where
  time : s.tickOn = s1
  runs : s1.power.stopped = false
  chosen : s1.openSteps[Config.schedule s1.tick % (s1.openSteps.length + 1)]? = none
  turn : s1.turn = some tn
  mine : tn.id = x.id
  here : s1.issuerAt x.id = some x

/-- The code word of four bytes at a virtual address: the address is canonical, in no window, and executable, and its bytes are plain bytes of
device memory without poison, whose number is `w`, none of them fetched ahead (R2, R287, R288). `t` is `s` after the translation. -/
structure CodeWord (s t : State) (x : Issuer) (va w : Nat) : Prop where
  canon : isCanonical (BitVec.ofNat 64 va)
  peer : inPeerWin va = false
  window : s.winOff x.asid va = none
  bytes : ∃ pa, s.translate (.hamper x.hamper) x.asid va .execute = (.ok pa, t) ∧ inRegSpace pa = false ∧ inHostWin pa = false ∧ PlainRun t pa 4 ∧
    t.codeHeld x.coil.bolt pa = none ∧
    t.memPoison pa 4 = false ∧ ofBytes (t.run pa 4) = w

/-- A path's answers to fetches that went outside the device are used up; nothing else changes. -/
def State.fetched (s : State) (x : Issuer) : State := { s with arrived := s.arrived.filter (fun a => a.reader != .path x.id 0) }

/-- The registers whose maps give a Reset value other than 0, but for the counts of units in force and the port numbers (R12, R45). -/
def resetRows : List (Nat × Nat) :=
  [ (aUpcCfg, 6), (aFltCfg, 6), (aQrcCfg, 8 * 2 ^ 20 + 250), (aBteCfg, 50 * 2 ^ 48 + 8 * 2 ^ 24 + 250 * 2 ^ 12), (aSmpCfg, 8 * 2 ^ 16 + 6),
    (aTrcCfg, 12), (aLogCfg, 6), (aPwrState, 1700 * 2 ^ 11 + 1700), (aPwrThrottle, 32 * 2 ^ 8 + 32), (aHltEol, 3 * 2 ^ 16 + 0xFFFF),
    (aFabCfg, 4 * 2 ^ 10 + 36) ]

end Sys2Proof.Machine
end

