-- ==== Sys2Proof/Certificates/Slice0/Obligations.lean ====
section
/-! DEFINITION. The statements for the provers. -/

open Sys2Proof Sys2Proof.Machine

/-- R332, R290, R330: the forms of two registers complete with their result in sd, s0 takes no write, `scc` stays, the PC moves behind the word, and
nothing else changes. R332: the forms of one register. R334: products, quotients and remainders, with division by zero and the overflow of -2^63 by
-1, and their template; other values of fn are undefined. -/
def Obligations.AluResults : Prop :=
  (∀ row ∈ aluRows, ∀ (s : State) (x : Issuer) (d a b : BitVec 6),
     Ready s x { reads := [a.toNat, b.toNat], writes := [d.toNat] } →
     ∃ t, exec (row.instr d a b) s = .next t ∧ Wrote s t x d.toNat (row.result (x.s a) (x.s b)) false x.path.scc (x.path.pc + 4)) ∧
  (∀ row ∈ unaryRows, ∀ (s : State) (x : Issuer) (d a : BitVec 6),
     Ready s x { reads := [a.toNat], writes := [d.toNat] } →
     ∃ t, exec (row.1 d a) s = .next t ∧ Wrote s t x d.toNat (row.2 (x.s a)) false x.path.scc (x.path.pc + 4)) ∧
  (∀ row ∈ mulRows, ∀ (s : State) (x : Issuer) (d a b : BitVec 6),
     Ready s x { reads := [a.toNat, b.toNat], writes := [d.toNat] } →
     ∃ t, exec (row.instr d a b) s = .next t ∧ Wrote s t x d.toNat (row.result (x.s a) (x.s b)) false x.path.scc (x.path.pc + 4)) ∧
  (∀ (d a b : BitVec 6) (n x : Nat), n < 8 → decodeScalar (0x08000000 + d.toNat * 2 ^ 20 + a.toNat * 2 ^ 14 + b.toNat * 2 ^ 8 + n) x =
     (mulRows[n]?).map (fun row => row.instr d a b)) ∧
  (∀ w x : Nat, bits w 31 26 = 2 → 8 ≤ bits w 7 0 → decodeScalar w x = none)

/-- R331, R332: a .f form also sets `scc`. -/
def Obligations.FlagForms : Prop :=
  ∀ row ∈ flagRows, ∀ (s : State) (x : Issuer) (d a b : BitVec 6),
    Ready s x { reads := [a.toNat, b.toNat], writes := [d.toNat] } →
    ∃ t, exec (row.instr d a b) s = .next t ∧
      Wrote s t x d.toNat (row.result (x.s a) (x.s b)) false
        (zncv (row.result (x.s a) (x.s b) == 0) (row.result (x.s a) (x.s b)).msb (row.carry (x.s a) (x.s b)) (row.ovf (x.s a) (x.s b)))
        (x.path.pc + 4)

/-- R333, R293: the forms with an immediate, and `cmpi`, which sets `scc` as `sub.f` does. R293: `li`, `lih` and `addx` take two words, and leave
`scc`. -/
def Obligations.ImmediateForms : Prop :=
  ((∀ row ∈ immRows, ∀ (s : State) (x : Issuer) (d a : BitVec 6) (imm : BitVec 14),
     Ready s x { reads := [a.toNat], writes := [d.toNat] } →
     ∃ t, exec (row.1 d a imm) s = .next t ∧ Wrote s t x d.toNat (row.2 (x.s a) imm) false x.path.scc (x.path.pc + 4)) ∧
   (∀ row ∈ shiftRows, ∀ (s : State) (x : Issuer) (d a n : BitVec 6),
     Ready s x { reads := [a.toNat], writes := [d.toNat] } →
     ∃ t, exec (row.1 d a n) s = .next t ∧ Wrote s t x d.toNat (row.2 (x.s a) n.toNat) false x.path.scc (x.path.pc + 4)) ∧
   (∀ (s : State) (x : Issuer) (a : BitVec 6) (imm : BitVec 14),
     Ready s x { reads := [a.toNat] } →
     ∃ t, exec (.cmpi a imm) s = .next t ∧
       Wrote s t x 0 0 false (zncv (x.s a == imm.signExtend 64) (x.s a - imm.signExtend 64).msb ((x.s a).ult (imm.signExtend 64))
         (outside64 ((x.s a).toInt - imm.toInt))) (x.path.pc + 4))) ∧
  ((∀ (s : State) (x : Issuer) (d : BitVec 6) (imm : W32), Ready s x { writes := [d.toNat] } →
     ∃ t, exec (.li d imm) s = .next t ∧ Wrote s t x d.toNat (imm.signExtend 64) false x.path.scc (x.path.pc + 8)) ∧
   (∀ (s : State) (x : Issuer) (d : BitVec 6) (imm : W32), Ready s x { reads := [d.toNat], writes := [d.toNat] } →
     ∃ t, exec (.lih d imm) s = .next t ∧
       Wrote s t x d.toNat (imm ++ (x.s d).setWidth 32 : W64) false x.path.scc (x.path.pc + 8)) ∧
   (∀ (s : State) (x : Issuer) (d a : BitVec 6) (imm : W32), Ready s x { reads := [a.toNat], writes := [d.toNat] } →
     ∃ t, exec (.addx d a imm) s = .next t ∧ Wrote s t x d.toNat (x.s a + imm.signExtend 64) false x.path.scc (x.path.pc + 8)))

/-- R335, R330: a load of 1, 2, 4 or 8 bytes from a place inside the device. Its address is sa + sext(imm14); sd takes what the path's view of the
place holds, with its poison, and the L1 keeps the line. R2, R160, R335: outside ply regions a view of the L2 holds the bytes of device memory, lowest
first, and their poison; through an L1 it holds what that L1 gives. -/
def Obligations.ScalarLoads : Prop :=
  (∀ row ∈ loadRows, ∀ (s s1 : State) (x : Issuer) (d a : BitVec 6) (imm : BitVec 14) (p : Place),
     let acc : Acc := { kind := .read, va := (x.s a + imm.signExtend 64).toNat, size := row.2 }
     Ready s x { reads := [a.toNat], writes := [d.toNat], courses := true } →
     s.judge x.who acc = (.ok p, s1) → p.isRemote = false → s1.refuses p .read = false → meetsRevoked s1 x.view [(0, acc, p)] = false →
     OttRoom s1 x [(0, acc, p)] →
     ∃ t s2, exec (row.1 d a imm) s = .next t ∧ s2 = s1.ordered x.hamper false false [(0, acc, p)] ∧
       Wrote (s2.afterLoad p row.2) t x d.toNat
         (BitVec.ofNat 64 (ofBytes (s2.load x.view (some x.coil) p row.2).1)) (s2.load x.view (some x.coil) p row.2).2
         x.path.scc (x.path.pc + 4)) ∧
  (∀ (s : State) (v : View) (c : Option Coil) (pa n : Nat), n ≤ 8 → s.inCarve pa = false → s.inRegion pa = false →
     BitVec.ofNat 64 (ofBytes (s.load v c (.mem pa) n).1) = s.littleEndian pa n ∧ (s.load v c (.mem pa) n).2 = s.memPoison pa n) ∧
  (∀ (s : State) (v : View) (c : Option Coil) (h pa n : Nat), n ≤ 8 →
     BitVec.ofNat 64 (ofBytes (s.load v c (.l1 h pa) n).1) = numberOf (s.seen h) pa n ∧
       ((s.load v c (.l1 h pa) n).2 = true ↔ ∃ k, k < n ∧ s.seenBad h (pa + k) = true))

/-- R335, R149: a store writes the low bytes of sd at sa + sext(imm14), here to device memory outside ply regions, into the L1 of its Hamper, and no
other byte gets a new value; every register stays, and the PC moves on. R102, R330, R335: a store into the scratchpad window writes the bank's bytes, and no byte of device memory. -/
def Obligations.ScalarStores : Prop :=
  (∀ row ∈ storeRows, ∀ (s s1 : State) (x : Issuer) (d a : BitVec 6) (imm : BitVec 14) (pa : Nat),
     Ready s x { reads := [a.toNat], moves := [d.toNat], courses := true } →
     let acc : Acc := { kind := .write, va := (x.s a + imm.signExtend 64).toNat, size := row.2 }
     s.judge x.who acc = (.ok (.l1 x.hamper pa), s1) → Plain s1 pa row.2 → OttRoom s1 x [(0, acc, .l1 x.hamper pa)] →
     ∃ t, exec (row.1 d a imm) s = .next t ∧ Stored s1 t x.hamper pa row.2 (x.s d) false ∧ Passes t x (x.path.pc + 4)) ∧
  (∀ row ∈ storeRows, ∀ (s s1 : State) (x : Issuer) (d a : BitVec 6) (imm : BitVec 14) (key : Nat),
     Ready s x { reads := [a.toNat], moves := [d.toNat], courses := true } →
     s.judge x.who { kind := .write, va := (x.s a + imm.signExtend 64).toNat, size := row.2 } = (.ok (.scr key), s1) → s1.ottUsed x.hamper ≤ 512 →
     ∃ t, exec (row.1 d a imm) s = .next t ∧ t.mem = s1.mem ∧ t.l1 = s1.l1 ∧
       (∀ i, i < row.2 → Tab.get Config.blank t.sram (key + i) = ((x.s d) >>> (8 * i)).setWidth 8) ∧
       (∀ i, i < key ∨ key + row.2 ≤ i → Tab.get Config.blank t.sram i = Tab.get Config.blank s1.sram i) ∧
       Passes t x (x.path.pc + 4))

/-- R150, R378, R380: `atom` on device memory outside ply regions that holds no poison: sd takes the old value, the 8 bytes the new one, and no other
byte gets a new value. In an unpaired coil the scopes .str and .coil act on what the L1 gives, and leave it there; every other atomic acts at the L2, on
what the Hamper stored there last, if it did. -/
def Obligations.ScalarAtomics : Prop :=
  ∀ (s s1 : State) (x : Issuer) (d a b : BitVec 6) (op sc : BitVec 3) (ord : BitVec 2) (pa : Nat),
    let deep := decide (2 ≤ sc.toNat) || x.desc.pair
    let acc : Acc := { kind := .atomic, va := (x.s a).toNat, size := 8, pcieAtomic := decide (op = 0 ∨ op = 4 ∨ op = 5), l2 := deep }
    let p := placeAt x deep pa
    let old := numberOf (if deep then s1.newest x.hamper else s1.seen x.hamper) pa 8
    Ready s x { reads := [a.toNat, b.toNat] ++ (if op = 5 then [d.toNat] else []), writes := [d.toNat], courses := true } →
    s.judge x.who acc = (.ok p, s1) → Plain s1 pa 8 → OttRoom s1 x [(0, acc, p)] →
    (∀ acq rel, ((s1.ordered x.hamper acq rel [(0, acc, p)]).load x.view (some x.coil) p 8).2 = false) →
    ∃ t, exec (.atom d a b op sc ord) s = .next t ∧ Stored s1 t x.hamper pa 8 (atomValue op old (x.s b) (x.s d)) deep ∧
      Here t x d.toNat old false x.path.scc (x.path.pc + 4)

/-- R291, R292, R336: `b`, `bz`, `bnz` and `call` with a canonical target. R337: `jalr`, of template 0x5400_0000, goes to sa + sext(imm14) with bits
[1:0] clear, the target taken before sd is written. -/
def Obligations.Branching : Prop :=
  ((∀ (s : State) (x : Issuer) (c : BitVec 5) (off : BitVec 21), Ready s x {} → isCanonical (targetOf x off) →
     ∃ t, exec (.b c off) s = .next t ∧
       Branches s t x 0 0 (if taken c x.path.scc then targetOf x off else x.path.pc + 4)) ∧
   (∀ (s : State) (x : Issuer) (k : BitVec 4) (off : BitVec 21), Ready s x { masks := [k.toNat], courses := true } → isCanonical (targetOf x off) →
     (∃ t, exec (.bz k off) s = .next t ∧ Branches s t x 0 0 (if x.mask k.toNat = 0 then targetOf x off else x.path.pc + 4)) ∧
     (∃ t, exec (.bnz k off) s = .next t ∧ Branches s t x 0 0 (if x.mask k.toNat = 0 then x.path.pc + 4 else targetOf x off))) ∧
   (∀ (s : State) (x : Issuer) (off : BitVec 21), Ready s x { writes := [63] } → isCanonical (targetOf x off) →
     ∃ t, exec (.call off) s = .next t ∧ Branches s t x 63 (x.path.pc + 4) (targetOf x off))) ∧
  (∀ (s : State) (x : Issuer) (d a : BitVec 6) (imm : BitVec 14), Ready s x { reads := [a.toNat], writes := [d.toNat] } →
     ∃ t, exec (.jalr d a imm) s = .next t ∧
       Branches s t x d.toNat (x.path.pc + 4) ((x.s a + imm.signExtend 64) &&& 0xFFFFFFFFFFFFFFFC)) ∧
  (∀ (d a : BitVec 6) (imm : BitVec 14) (x : Nat),
     decodeScalar (0x54000000 + d.toNat * 2 ^ 20 + a.toNat * 2 ^ 14 + imm.toNat) x = some (.jalr d a imm))

/-- R336, R259: a branch to a target that is not canonical traps `ADDR_NONCANONICAL` where it stands, and writes no register. R256, R259, R349:
`trap n` traps with `TRAP_INSN` at itself; the record holds its word, and so n. -/
def Obligations.ScalarTraps : Prop :=
  (∀ (s : State) (x : Issuer) (c : BitVec 5) (off : BitVec 21), Ready s x {} → MayStop s x → ¬ isCanonical (targetOf x off) →
     ∃ t, exec (.b c off) s = .next t ∧
       StopsAt s t x { cause := .addrNoncanonical, ipc := x.path.pc, spc := x.path.pc, insn := insnWords (.b c off) }) ∧
  (∀ (s : State) (x : Issuer) (n : BitVec 6), Ready s x {} → MayStop s x →
     ∃ t, exec (.trap n) s = .next t ∧
       StopsAt s t x { cause := .trapInsn, ipc := x.path.pc, spc := x.path.pc, insn := BitVec.ofNat 96 (0x68000002 + 256 * n.toNat) })

/-- R338, R339: mask logic and `kfroms`. R339: masks read into scalar registers, and `ktest`. -/
def Obligations.MaskForms : Prop :=
  ((∀ row ∈ maskRows, ∀ (s : State) (x : Issuer) (d a b : BitVec 4),
     Ready s x { masks := [d.toNat, a.toNat, b.toNat], courses := true } →
     ∃ t y, exec (row.1 d a b) s = .next t ∧ t.issuerAt x.id = some y ∧ OnlyStrand x y ∧
       SetsMask x y d.toNat (row.2 (x.mask a.toNat) (x.mask b.toNat)) ∧ (s.traces x.asid = false → OnlyCoil s t x.id.coil)) ∧
   (∀ row ∈ maskUnaryRows, ∀ (s : State) (x : Issuer) (d a : BitVec 4),
     Ready s x { masks := [d.toNat, a.toNat, a.toNat], courses := true } →
     ∃ t y, exec (row.1 d a) s = .next t ∧ t.issuerAt x.id = some y ∧ OnlyStrand x y ∧ SetsMask x y d.toNat (row.2 (x.mask a.toNat)) ∧
       (s.traces x.asid = false → OnlyCoil s t x.id.coil)) ∧
   (∀ (s : State) (x : Issuer) (d : BitVec 4) (n : BitVec 6),
     Ready s x { reads := [n.toNat], masks := [d.toNat], courses := true } →
     ∃ t y, exec (.kfroms d n) s = .next t ∧ t.issuerAt x.id = some y ∧ OnlyStrand x y ∧ SetsMask x y d.toNat (x.s n) ∧
       (s.traces x.asid = false → OnlyCoil s t x.id.coil))) ∧
  ((∀ row ∈ maskReadRows, ∀ (s : State) (x : Issuer) (k : BitVec 4) (n : BitVec 6),
     Ready s x { writes := [n.toNat], masks := [k.toNat], courses := true } →
     ∃ t, exec (row.1 k n) s = .next t ∧ Wrote s t x n.toNat (row.2 (x.mask k.toNat)) false x.path.scc (x.path.pc + 4)) ∧
   (∀ (s : State) (x : Issuer) (a b : BitVec 4), Ready s x { masks := [a.toNat, b.toNat], courses := true } →
     ∃ t, exec (.ktest a b) s = .next t ∧
       Wrote s t x 0 0 false (zncv (x.mask a.toNat &&& x.mask b.toNat == 0) false false false) (x.path.pc + 4)))

/-- R122, R341: `split` on no lane does nothing; on every lane it branches; else the lowest free entry takes the lanes of the mask, the target and
copies of `scc`, SEQ and s48 to s63, and the path goes on with the others; with no entry free it waits. -/
def Obligations.Splitting : Prop :=
  ∀ (s : State) (x : Issuer) (k : BitVec 4) (off : BitVec 21),
    let n := x.mask k.toNat &&& x.path.em
    let m := x.path.em &&& ~~~(x.mask k.toNat)
    Ready s x { masks := [k.toNat, 0], courses := true } → x.desc.splits ≠ 0 → isCanonical (targetOf x off) →
    (n = 0 → ∃ t, exec (.split k off) s = .next t ∧ Wrote s t x 0 0 false x.path.scc (x.path.pc + 4)) ∧
    (n ≠ 0 → m = 0 → ∃ t, exec (.split k off) s = .next t ∧ Branches s t x 0 0 (targetOf x off)) ∧
    (n ≠ 0 → m ≠ 0 → ∀ e, e < x.desc.splits → e < 8 → x.strand.path? e = none → (∀ j, j < e → x.strand.path? j ≠ none) →
      ∃ t y q, exec (.split k off) s = .next t ∧ t.issuerAt x.id = some y ∧ y.path.em = m ∧ y.path.splitSince = true ∧ y.path.pc = x.path.pc + 4 ∧
        y.path.scc = x.path.scc ∧ y.strand.path? e = some q ∧ q.pc = targetOf x off ∧ q.em = n ∧ q.scc = x.path.scc ∧ q.seq = x.path.seq ∧
        q.parent = x.id.path ∧ q.splitSince = false ∧
        (∀ r, r < 64 → y.strand.getS e r = x.sAt r ∧ y.sAt r = x.sAt r)) ∧
    (n ≠ 0 → m ≠ 0 → x.desc.splits ≤ 8 → (∀ e, e < x.desc.splits → x.strand.path? e ≠ none) → x.strand.ended = false →
      (∀ p ∈ x.strand.livePaths, p ≠ x.id.path → ∃ q, x.strand.path? p = some q ∧ q.park = .running) →
      ∃ t y, exec (.split k off) s = .next t ∧ t.issuerAt x.id = some y ∧ y.path.park = .splitWait (x.mask k.toNat) (targetOf x off) ∧
        y.path.pc = x.path.pc ∧ y.path.em = x.path.em ∧ y.strand.entries.length = x.strand.entries.length ∧ y.strand.sregs = x.strand.sregs)

/-- R124: a `join` by a root path with no live children acts as a jump to its label. R126, R348: `end` of a splint that has no live children takes
its lanes from the live-lane mask and frees its entry; `end` of the last path of a strand ends the strand. -/
def Obligations.JoinsAndEnds : Prop :=
  (∀ (s : State) (x : Issuer) (off : BitVec 21), Ready s x { masks := [0], courses := true } → x.id.path = 15 → x.strand.entries = [] →
     isCanonical (targetOf x off) →
     ∃ t y, exec (.join off) s = .next t ∧ t.issuerAt x.id = some y ∧ y.path.pc = targetOf x off ∧ y.path.park = .running ∧
       y.path.splitSince = false ∧ y.path.em = x.path.em ∧ y.strand.sregs = x.strand.sregs) ∧
  ((∀ (s : State) (x : Issuer), Ready s x { masks := [0], courses := true } → x.id.path < 8 →
     x.strand.ended = false → x.strand.root.park = .running → (x.strand.entries.map Prod.fst).Nodup →
     (∀ e ∈ x.strand.entries, e.1 < 8 ∧ e.2.parent ≠ x.id.path ∧ (e.1 ≠ x.id.path → e.2.park = .running)) →
     ∃ t st, exec .endPath s = .next t ∧ t.strand? x.id.coil x.id.strand = some st ∧ st.path? x.id.path = none ∧
       st.live = x.strand.live &&& ~~~x.path.em ∧ st.sregs = x.strand.sregs) ∧
   (∀ (s : State) (x : Issuer), Ready s x { masks := [0], courses := true } → x.id.path = 15 → x.strand.entries = [] →
     ∃ t, exec .endPath s = .next t ∧ ∀ c st, t.coil? x.id.coil = some c → c.strands[x.id.strand]? = some st → st.ended = true ∧ st.live = 0))

/-- R347, R381: `nop`, the word 0x6800_0000, does nothing but count; a fence with nothing of its strand outstanding releases, acquires or does both at its
scope, and goes on. R342, R344: a wait whose condition holds acquires at its scope and goes on;
one whose condition does not hold parks its path where it stands. R129, R389: `twait` on a counter, a timeline or nothing: with a hint of 0 it tests
once and goes on with the predicate in sd and Z; a condition that does not hold parks it where a hint is given. -/
def Obligations.FencesAndWaits : Prop :=
  ((∀ (s : State) (x : Issuer), Ready s x {} → ∃ t, exec .nop s = .next t ∧ Wrote s t x 0 0 false x.path.scc (x.path.pc + 4)) ∧
   (∀ x : Nat, decodeScalar 0x68000000 x = some .nop) ∧
   (∀ (s : State) (x : Issuer) (sc : BitVec 3) (q : BitVec 2), Ready s x { courses := true } → x.strand.longs = [] →
     (∀ e ∈ s.copies, ¬ (e.2.p.coil = x.id.coil ∧ e.2.p.strand = x.id.strand)) →
     let s1 := if q = 0 then s else s.releaseAt x sc.toNat
     ∃ t, exec (.fence sc q) s = .next t ∧
       Wrote (if q = 1 then s1 else s1.acquireAt x sc.toNat) t x 0 0 false x.path.scc (x.path.pc + 4))) ∧
  ((∀ (s : State) (x : Issuer) (a : BitVec 6) (c : BitVec 4), Ready s x { reads := [a.toNat] } →
     (x.strand.inFlight c.toNat ≤ (x.s a).toNat % 2 ^ 16 →
       ∃ t, exec (.waitPath a c) s = .next t ∧ Wrote s t x 0 0 false x.path.scc (x.path.pc + 4)) ∧
     ((x.s a).toNat % 2 ^ 16 < x.strand.inFlight c.toNat → ∃ t y, exec (.waitPath a c) s = .next t ∧ t.issuerAt x.id = some y ∧
       y.path.park = .waitPath c.toNat ((x.s a).toNat % 2 ^ 16) ∧ y.path.pc = x.path.pc)) ∧
   (∀ row ∈ ([(.waitMx, 0), (.waitTrv, 1), (.waitCov, 2)] : List ((BitVec 6 → BitVec 3 → Instr) × Nat)),
     ∀ (s : State) (x : Issuer) (a : BitVec 6) (sc : BitVec 3), Ready s x { reads := [a.toNat] } →
     ((x.s a).toNat ≤ Tab.get 0 x.coil.tlCount row.2 →
       ∃ t, exec (row.1 a sc) s = .next t ∧ Wrote (s.acquireAt x sc.toNat) t x 0 0 false x.path.scc (x.path.pc + 4)) ∧
     (Tab.get 0 x.coil.tlCount row.2 < (x.s a).toNat → ∃ t y, exec (row.1 a sc) s = .next t ∧ t.issuerAt x.id = some y ∧
       y.path.park = .waitTimeline row.2 (x.s a) sc ∧ y.path.pc = x.path.pc)) ∧
   (∀ (s s1 : State) (x : Issuer) (a b : BitVec 6) (sc : BitVec 3) (p : Place),
     let acc : Acc := { kind := .read, va := (x.s b).toNat, size := 8, l2 := x.acts sc.toNat }
     let s2 := s1.ordered x.hamper false false [(0, acc, p)]
     Ready s x { reads := [a.toNat, b.toNat], courses := true } → s.judge x.who acc = (.ok p, s1) → p.isRemote = false →
     s2.refuses p .read = false →
     (s2.load .current (some x.coil) p 8).2 = false → (x.s a).toNat ≤ ofBytes (s2.load .current (some x.coil) p 8).1 →
     ofBytes (s2.load .current (some x.coil) p 8).1 < 2 ^ 64 →
     ∃ t, exec (.waitMem a b sc) s = .next t ∧
       Wrote ((s2.afterLoad p 8).acquireAt x (p.scope sc.toNat)) t x 0 0 false x.path.scc (x.path.pc + 4))) ∧
  (∀ (s : State) (x : Issuer) (d a b : BitVec 6) (c : BitVec 4),
     let v := x.s b
     let holds : Bool := if c.toNat = 0 then false else if c.toNat ≤ 7 then decide (x.strand.inFlight (c.toNat - 1) ≤ v.toNat % 2 ^ 16)
       else decide (v.toNat ≤ Tab.get 0 x.coil.tlCount (c.toNat - 9))
     c.toNat ≠ 8 → c.toNat ≤ 11 → Ready s x { reads := if c.toNat = 0 then [a.toNat] else [a.toNat, b.toNat], writes := [d.toNat] } →
     (holds = true → ∃ t, exec (.twait d a b c) s = .next t ∧
       Wrote (if 9 ≤ c.toNat then s.acquireAt x 2 else s) t x d.toNat 1 false 0 (x.path.pc + 4)) ∧
     (holds = false → (x.s a).toNat % 2 ^ 32 = 0 → ∃ t, exec (.twait d a b c) s = .next t ∧
       Wrote s t x d.toNat (if c = 0 then 1 else 0) false (if c = 0 then 0 else 1) (x.path.pc + 4)) ∧
     (holds = false → (x.s a).toNat % 2 ^ 32 ≠ 0 → ∃ t y, exec (.twait d a b c) s = .next t ∧ t.issuerAt x.id = some y ∧
       y.path.park = .twait c false v none d ∧ y.path.pc = x.path.pc ∧ .twaitHintExpiry x.id ∈ t.agenda))

/-- R345: `srd` reads every special register of the table. R345, R321: `swr` writes `scc`, `cvtmode` with SEQ, `fpflags`, `gang`, whose bits [63:39]
stay 0 (R109), and the modulo registers; a write to any other register has no effect. -/
def Obligations.SpecialRegisters : Prop :=
  (∀ row ∈ specialRows, ∀ (s : State) (x : Issuer) (d : BitVec 6),
     Ready s x { writes := [d.toNat], courses := row.1 == 2 || row.1 == 0x13 || row.1 == 0x1A } →
     (row.1 = 2 → ∀ e ∈ x.strand.longs, e.2.path ≠ x.id.path) →
     ∃ t, exec (.srd d row.1) s = .next t ∧ Wrote s t x d.toNat (row.2 s x) false x.path.scc (x.path.pc + 4)) ∧
  ((∀ (s : State) (x : Issuer) (a : BitVec 6), Ready s x { reads := [a.toNat], courses := true } →
     ∃ t, exec (.swr a 0) s = .next t ∧ Wrote s t x 0 0 false ((x.s a).setWidth 4) (x.path.pc + 4)) ∧
   (∀ (s : State) (x : Issuer) (a : BitVec 6) (n : BitVec 8), n ≠ 0 → Ready s x { reads := [a.toNat] } →
     ∃ t y, exec (.swr a n) s = .next t ∧ OnlyCoil s t x.id.coil ∧ t.issuerAt x.id = some y ∧ OnlyStrand x y ∧
       y.path.pc = x.path.pc + 4 ∧ y.path.scc = x.path.scc ∧ y.path.em = x.path.em ∧
       y.strand.cvt = (if n = 1 then (x.s a).setWidth 32 else x.strand.cvt) ∧
       y.path.seq = (if n = 1 then (x.s a).extractLsb' 32 32 else x.path.seq) ∧
       y.strand.fpf = (if n = 2 then (x.s a).setWidth 5 else x.strand.fpf) ∧
       y.strand.gang = (if n = 4 then x.s a &&& 0x7FFFFFFFFF else x.strand.gang) ∧
       (∀ i, Tab.get 0 y.strand.mregs i = if i < 8 ∧ n.toNat = 8 + i then x.s a else Tab.get 0 x.strand.mregs i) ∧
       { y.strand with root := x.strand.root, entries := x.strand.entries, cvt := x.strand.cvt, fpf := x.strand.fpf, gang := x.strand.gang
                       mregs := x.strand.mregs } = x.strand))

/-- R119, R340: with room in the queue of four, `crs` appends the course at LCODE plus its offset with the captured parameters. R119-R121, R297,
R300, R301: a course begins when its words are read and pass their checks; a pending operation's writes take effect at its completion; the trailer
ends the course, its temporaries, and raises P. -/
def Obligations.Courses : Prop :=
  (∀ (s : State) (x : Issuer) (a : BitVec 6) (n : BitVec 4) (off : W32), Ready s x { reads := upFrom a.toNat n.toNat } →
     x.strand.queue.length + (if x.strand.running = none then 0 else 1) < 4 →
     ∃ t y c, exec (.crs a n off) s = .next t ∧ t.issuerAt x.id = some y ∧ OnlyStrand x y ∧ y.strand.queue = x.strand.queue ++ [c] ∧
       c.addr = x.desc.lcode + off.setWidth 64 ∧ c.path = x.id.path ∧ c.params.length = 4 ∧
       (∀ j, j < 4 → c.params[j]? = some (if j < n.toNat then x.sAt (a.toNat + j) else 0)) ∧
       y.path.pc = x.path.pc + 8 ∧ y.strand.sregs = x.strand.sregs ∧ y.strand.running = x.strand.running ∧
       (s.traces x.asid = false → OnlyCoil s t x.id.coil)) ∧
  ((∀ (s s1 : State) (k n : Nat) (st : Strand) (c : Course) (rest : List Course) (x : Issuer) (l : List W96),
     s.strand? k n = some st → st.running = none → st.queue = c :: rest → s.issuerAt { coil := k, strand := n, path := c.path } = some x →
     lanesFree x = true → st.emPending c.path = false → (x.path.bpCourse = true ∨ s.breakpoint x.asid 1 c.addr = none) →
     s.readCourse x c.addr.toNat 0 25 = (.words l, s1) → courseCause x.desc l = none →
     ∃ t st1, exec (.courseBegin k n) s = .next t ∧ (∀ st2, s1.strand? k n = some st2 → t.strand? k n = some st1 ∧
       st1.running = some { course := c, words := l, pos := 0, after := none } ∧ st1.queue = rest ∧ st1.vregs = st2.vregs ∧ st1.sregs = st2.sregs)) ∧
   (∀ (s : State) (op k n : Nat) (g : LongOp) (c : Coil) (b : Bolt) (st : Strand), s.longOf op = some (k, n, g) → g.remote = [] → g.held = false →
     g.fails = [] → g.pos ≠ 255 → s.coilBolt? k = some (c, b) → c.liveStrands ≠ [] → s.strand? k n = some st → (g.vWrites.map Prod.fst).Nodup →
     s.holdsBack k n b.desc.lanes g.vWrites = false →
     ∃ t st1, exec (.laneLongComplete op) s = .next t ∧ t.strand? k n = some st1 ∧ Dict.find? st1.longs op = none ∧ st1.fpf = st.fpf ||| g.flags ∧
       (∀ e ∈ g.vWrites, Tab.get 0 st1.vregs e.1 = e.2.1 ∧ Tab.get false st1.vpoison e.1 = e.2.2) ∧
       (∀ key, key ∉ g.vWrites.map Prod.fst → Tab.get 0 st1.vregs key = Tab.get 0 st.vregs key) ∧
       (s.traces b.asid = false → t.mem = (s.acquireOf { coil := k, strand := n, path := g.path } g.acq).mem)) ∧
   (∀ (s : State) (x : Issuer) (r : Running) (n : BitVec 4) (kind : Byte) (yield : Bool) (slots : W64), s.issuer = some x →
     x.strand.running = some r → (∀ e ∈ x.strand.longs, e.2.remote = [] ∧ e.2.fails = []) →
     ∃ t y, exec (.courseTrailer n kind yield slots) s = .next t ∧ { t with coils := s.coils, rotations := s.rotations } = s ∧
       (∀ q, Tab.get Rotation.start t.rotations q = (let r := Tab.get Rotation.start s.rotations q
         if yield = true ∧ q = 4 * x.hamper + x.strand.slot % 4 then { r with again := true } else r)) ∧
       t.issuerAt x.id = some y ∧ y.strand.running = none ∧ y.strand.progress = x.strand.progress + 1 ∧ y.path = x.path ∧
       y.strand.sregs = x.strand.sregs ∧ y.strand.kregs = x.strand.kregs ∧
       (∀ v l, l < 64 → Tab.get 0 y.strand.vregs (vKey v l) = if 0xF0 ≤ v ∧ v < 0xF8 then 0 else Tab.get 0 x.strand.vregs (vKey v l))))

/-- R64, R346: `upcall` releases at .dev, puts a record of kind 1 with s[sa] to s[sa + 3] in hand and parks its path; with the ring off it traps. -/
def Obligations.UpcallInstruction : Prop :=
  ∀ (s : State) (x : Issuer) (d a : BitVec 6) (service : W16), Ready s x { reads := upFrom a.toNat 4, writes := [d.toNat], courses := true } →
    (bit (s.regN aUpcCfg) 5 = true → x.strand.longs = [] → (∀ e ∈ s.copies, ¬ (e.2.p.coil = x.id.coil ∧ e.2.p.strand = x.id.strand)) →
      ∃ t y u l, exec (.upcall d a service) s = .next t ∧ t.issuerAt x.id = some y ∧ OnlyStrand x y ∧ y.path.park = .upcall none d ∧
        y.path.pc = x.path.pc ∧ t.agenda = s.agenda ++ .upcallPost u :: l ∧ u.kind = 1 ∧ u.service = service.toNat ∧ u.arg0 = x.sAt a.toNat ∧
        u.arg1 = x.sAt (a.toNat + 1) ∧ u.arg2 = x.sAt (a.toNat + 2) ∧ u.arg3 = x.sAt (a.toNat + 3) ∧ u.waiter = some x.id ∧
        t.mem = (s.l1Release x.hamper).mem ∧ t.l1 = (s.l1Release x.hamper).l1) ∧
    (bit (s.regN aUpcCfg) 5 = false → MayStop s x →
      ∃ t, exec (.upcall d a service) s = .next t ∧
        StopsAt s t x { cause := .upcallDisabled, ipc := x.path.pc, spc := x.path.pc, insn := insnWords (.upcall d a service) })

/-- R385-R387: the five barrier forms on a reserved word of a bolt with a scratchpad window. R111, R112, R388: the hoop forms on a hoop that may be
used; `hoop.init` with a layout that fits. -/
def Obligations.BarriersAndHoops : Prop :=
  (∀ (s : State) (x : Issuer) (a d : BitVec 6) (b : BitVec 4), b.toNat < x.desc.bars → (s.swin x.asid).isSome → x.coil.barCount b.toNat < 64 →
     (Ready s x { reads := [a.toNat], courses := true } → x.coil.armed b.toNat = false →
       ∃ t y, exec (.barInit a b) s = .next t ∧ t.issuerAt x.id = some y ∧ OnlyBarriers x y b.toNat ∧
         y.coil.barState b.toNat = (x.coil.phase b.toNat, if 64 < (x.s a).toNat % 128 then 0 else (x.s a).toNat % 128, 0, true) ∧
         Tab.get 0 y.coil.barArrived b.toNat = 0) ∧
     (Ready s x { courses := true } → x.coil.barCount b.toNat = 0 →
       ∃ t y, exec (.barDrop b) s = .next t ∧ t.issuerAt x.id = some y ∧ OnlyBarriers x y b.toNat ∧ y.coil.armed b.toNat = false ∧
         Tab.get 0 y.coil.bars b.toNat = Tab.get 0 x.coil.bars b.toNat) ∧
     (Ready s x { writes := [d.toNat], courses := true } → x.coil.armed b.toNat = true → (Tab.get 0 x.coil.barArrived b.toNat).getLsbD x.id.strand = false →
       x.id.strand < 64 →
       (x.coil.barCount b.toNat + 1 < x.coil.barNeed b.toNat →
         ∃ t y, exec (.barArrive d b) s = .next t ∧ t.issuerAt x.id = some y ∧ OnlyBarriers x y b.toNat ∧
           (d ≠ 0 → y.s d = BitVec.ofNat 64 (x.coil.phase b.toNat)) ∧
           y.coil.barState b.toNat = (x.coil.phase b.toNat, x.coil.barExpect b.toNat, x.coil.barCount b.toNat + 1, true) ∧
           Tab.get 0 y.coil.barArrived b.toNat = Tab.get 0 x.coil.barArrived b.toNat ||| BitVec.ofNat 64 (2 ^ x.id.strand)) ∧
       (x.coil.barNeed b.toNat = x.coil.barCount b.toNat + 1 →
         ∃ t y, exec (.barSync d b) s = .next t ∧ t.issuerAt x.id = some y ∧ OnlyBarriers x y b.toNat ∧
           (d ≠ 0 → y.s d = BitVec.ofNat 64 (x.coil.phase b.toNat)) ∧
           y.coil.barState b.toNat = ((x.coil.phase b.toNat + 1) % 2 ^ 32, x.coil.barExpect b.toNat, 0, true) ∧
           Tab.get 0 y.coil.barArrived b.toNat = 0)) ∧
     (Ready s x { reads := [a.toNat] } → x.coil.armed b.toNat = true →
       (x.coil.phase b.toNat ≠ (x.s a).toNat % 2 ^ 32 → ∃ t, exec (.barWait a b) s = .next t ∧ Wrote (s.acquireAt x 1) t x 0 0 false x.path.scc (x.path.pc + 4)) ∧
       (x.coil.phase b.toNat = (x.s a).toNat % 2 ^ 32 → ∃ t y, exec (.barWait a b) s = .next t ∧ t.issuerAt x.id = some y ∧
         y.path.park = .barrier b.toNat ((x.s a).setWidth 32) ∧ y.path.pc = x.path.pc))) ∧
  ((∀ (s : State) (x : Issuer) (a : BitVec 6) (h : BitVec 4),
     let w := (x.s a).toNat % 2 ^ 32
     Ready s x { reads := [a.toNat] } → h.toNat < x.desc.hoops → (s.swin x.asid).isSome → 1 ≤ bits w 27 19 → bits w 27 19 ≤ 480 →
     bits w 18 0 % 64 = 0 → bits w 18 0 + 64 * bits w 27 19 * (bits w 31 28 + 1) ≤ x.desc.scratch * 1024 →
     ∃ t y, exec (.hoopInit a h) s = .next t ∧ t.issuerAt x.id = some y ∧ y.coil.hoop h.toNat = w ∧
       Tab.get false y.coil.hoopInit h.toNat = true ∧ y.path.pc = x.path.pc + 4) ∧
   (∀ (s : State) (x : Issuer) (d a b : BitVec 6) (h : BitVec 4),
     let i := (x.s a).toNat % 16
     let w := x.coil.hoop h.toNat
     Ready s x { reads := [a.toNat, b.toNat], writes := [d.toNat] } → HoopReady s x h i →
     (bit w (32 + i) = bit (x.s b).toNat 0 →
       ∃ t, exec (.hoopWfill d a b h) s = .next t ∧ Wrote (s.acquireAt x 1) t x d.toNat (slotAddress s x h i) false x.path.scc (x.path.pc + 4)) ∧
     (bit w (48 + i) ≠ bit (x.s b).toNat 0 →
       ∃ t, exec (.hoopWtake d a b h) s = .next t ∧ Wrote (s.acquireAt x 1) t x d.toNat (slotAddress s x h i) false x.path.scc (x.path.pc + 4))) ∧
   (∀ (s : State) (x : Issuer) (a : BitVec 6) (h : BitVec 4),
     let i := (x.s a).toNat % 16
     Ready s x { reads := [a.toNat], courses := true } → HoopReady s x h i →
     (∃ t y, exec (.hoopFilled a h) s = .next t ∧ t.issuerAt x.id = some y ∧ y.path.pc = x.path.pc + 4 ∧
       Tab.get 0 y.coil.hoops h.toNat = Tab.get 0 x.coil.hoops h.toNat ^^^ (1 <<< (48 + i))) ∧
     (∃ t y, exec (.hoopTaken a h) s = .next t ∧ t.issuerAt x.id = some y ∧ y.path.pc = x.path.pc + 4 ∧
       Tab.get 0 y.coil.hoops h.toNat = Tab.get 0 x.coil.hoops h.toNat ^^^ (1 <<< (32 + i)))) ∧
   (∀ (s : State) (x : Issuer) (d : BitVec 6) (h : BitVec 4), Ready s x { writes := [d.toNat] } → HoopReady s x h 0 →
     ∃ t, exec (.hoopRd d h) s = .next t ∧ Wrote s t x d.toNat (Tab.get 0 x.coil.hoops h.toNat) false x.path.scc (x.path.pc + 4)))

/-- R390, R393, R395-R400: the matrix forms whose operands pass their checks, with room in the intake, are accepted as operations of the matrix
context. -/
def Obligations.MatrixForms : Prop :=
  (∀ (s : State) (x : Issuer) (d a b : BitVec 6) (l : Bool) (f : BitVec 4),
    let p := shapeOfWord (x.s b)
    Ready s x { reads := upFrom a.toNat 4 ++ [b.toNat], writes := [d.toNat], courses := true, roles := 2 } → s.intakeFull x.hamper = false →
    mmaCause s x f.toNat l false (x.s a) (x.sAt (a.toNat + 1)) (x.sAt (a.toNat + 2)) (x.sAt (a.toNat + 3)) (x.s b) = none →
    ∃ t, exec (.mxMma d a b l f) s = .next t ∧
      Accepts s t x 0 d (.mma f.toNat l false [shareOf x.id.strand (x.s a) (x.sAt (a.toNat + 1)) p] (x.sAt (a.toNat + 2)) (x.sAt (a.toNat + 3))
        p.n p.ksteps p.vsb p.bsb p.cbb x.id.strand 0)) ∧
  (∀ (s : State) (x : Issuer) (d a : BitVec 6) (sl : BitVec 3),
    let r := rangesOf (x.s a).toNat 32
    Ready s x { reads := [a.toNat], writes := [d.toNat], courses := true, roles := 2, unreserved := fun x => decide (x.desc.cbslot ≤ sl.toNat) } →
    s.intakeFull x.hamper = false → (x.s a).toNat % 32 = 0 → meetsPeer r = false → meetsHole r = false →
    s.meetsScratch x.asid x.desc x.half r = false →
    ∃ t, exec (.mxCbld d a sl) s = .next t ∧ Accepts s t x 0 d (.cbld sl.toNat (x.s a))) ∧
  (∀ (s : State) (x : Issuer) (d : BitVec 6) (tile : BitVec 4),
    Ready s x { writes := [d.toNat], courses := true, roles := 2, unreserved := fun x => decide (x.desc.acc ≤ tile.toNat) } →
    s.intakeFull x.hamper = false →
    ∃ t, exec (.mxClr d tile) s = .next t ∧ Accepts s t x 0 d (.clr tile.toNat)) ∧
  (∀ (s : State) (x : Issuer) (d a b : BitVec 6) (dropEn resEn : Bool),
    Ready s x { reads := upFrom a.toNat 8 ++ [b.toNat], writes := [d.toNat], courses := true, roles := 2 } → s.intakeFull x.hamper = false →
    drainCause s x ((upFrom a.toNat 8).map x.sAt) (x.s b) resEn = none →
    ∃ t, exec (.mxDrain d a b dropEn resEn) s = .next t ∧
      Accepts s t x 0 d (.drain ((upFrom a.toNat 8).map x.sAt) (x.s b) resEn dropEn x.strand.cvt 0 0))

/-- R110, R397, R398: `mx.gang` parks a member while others are missing, and is accepted once, with one share for each member, when the last one
comes. -/
def Obligations.Gangs : Prop :=
  ∀ (s : State) (x : Issuer) (d a b : BitVec 6) (l : Bool) (f : BitVec 4),
    let g := x.strand.gang
    let set := maskOf (gangMembers g)
    let me : GangArrival :=
      { strand := x.id.strand, d := d, gang := g, fmt := f.toNat, scl := l, a := x.s a, sa := x.sAt (a.toNat + 1), b := x.sAt (a.toNat + 2)
        sb := x.sAt (a.toNat + 3), shape := x.s b, word := (insnWords (.mxGang d a b l f)).setWidth 32, pc := x.path.pc }
    Ready s x { reads := upFrom a.toNat 4 ++ [b.toNat], writes := [d.toNat], courses := true, roles := 2 } →
    mmaCause s x f.toNat l true me.a me.sa me.b me.sb me.shape = none → (∀ m ∈ gangMembers g, ∀ st, x.coil.strands[m]? = some st → st.gangAbsent = false) →
    (x.coil.latches.find? (fun e => e.1 == set) = none → 1 < (gangMembers g).length →
      ∃ t y, exec (.mxGang d a b l f) s = .next t ∧ t.issuerAt x.id = some y ∧ y.path.park = .gang set ∧ y.path.pc = x.path.pc ∧
        (set, [me]) ∈ y.coil.latches) ∧
    (∀ others, x.coil.latches.find? (fun e => e.1 == set) = some (set, others) → others.length + 1 = (gangMembers g).length →
      (∀ o ∈ others, o.strand ≠ x.id.strand) → gangDiffers x.desc (others ++ [me]) = false → s.intakeFull x.hamper = false →
      ∃ t, exec (.mxGang d a b l f) s = .next t ∧ Accepts s t x 0 d (gangKind (others ++ [me]) me))

/-- R408, R411, R414, R416: `cp.test` and `cp.wait` read a completion record of device memory, DONE with an acquire of their scope, `cp.wait` parking until every chunk
of the mask is done; `cp.cancel` marks an accepted packet that is not complete, and leaves any other of the accepted ones. R412, R413: `cp.push` to a queue of its
address space whose header and slot lie in device memory releases, claims the slot that WR names, writes the packet with its own CCTX and LAP, and no
other byte, and gives the number of the packet. -/
def Obligations.CopyForms : Prop :=
  ((∀ (s : State) (x : Issuer) (d a b : BitVec 6) (sc : BitVec 3) (pa : Nat),
     let mask := x.s b
     let deep := decide (2 ≤ sc.toNat) || (decide (sc = 1) && x.desc.pair)
     let newest := if deep then s.newest x.hamper else s.seen x.hamper
     let done := numberOf newest pa 8
     let err := numberOf newest (pa + 8) 8
     let accD : Acc := { kind := .read, va := (x.s a).toNat, size := 8, align := 32, l2 := deep }
     let accE : Acc := { kind := .read, va := (x.s a + 8).toNat, size := 8 }
     let ps : List (Nat × Acc × Place) := [(0, accD, placeAt x deep pa), (0, accE, .l1 x.hamper (pa + 8))]
     let s2 := s.ordered x.hamper false false ps
     let ends (t : State) : Prop :=
       Reports t x d (done &&& mask) (zncv (done &&& mask == mask) false (err &&& mask != 0) false) ∧ Kept s t x.hamper
     Ready s x { reads := [a.toNat, b.toNat], writes := [d.toNat], courses := true } → mask ≠ 0 → pa % 32 = 0 → OttRoom s x ps →
     s.judge x.who accD = (.ok (placeAt x deep pa), s) → s.judge x.who accE = (.ok (.l1 x.hamper (pa + 8)), s) →
     Plain s pa 8 → Plain s (pa + 8) 8 → (s2.load x.view (some x.coil) (placeAt x deep pa) 8).2 = false →
     ((s2.afterLoad (placeAt x deep pa) 8).load x.view (some x.coil) (.l1 x.hamper (pa + 8)) 8).2 = false →
     (∃ t, exec (.cpTest d a b sc) s = .next t ∧ ends t) ∧
     (done &&& mask = mask → ∃ t, exec (.cpWait d a b sc) s = .next t ∧ ends t) ∧
     (done &&& mask ≠ mask → ∃ t y, exec (.cpWait d a b sc) s = .next t ∧ t.issuerAt x.id = some y ∧ Kept s t x.hamper ∧
       y.path.park = .cpWait (x.s a) mask d sc ∧ y.path.pc = x.path.pc ∧ .cpWaitRecheck x.id ∈ t.agenda)) ∧
   (∀ (s : State) (x : Issuer) (d a b : BitVec 6) (q : BteQueue),
     let n := (x.s b).toNat
     Ready s x { reads := [a.toNat, b.toNat], writes := [d.toNat], courses := true, roles := 1 } → s.bteRefusal x (x.s a) = none →
     Dict.find? s.bte (x.s a).toNat = some q → n ≤ s.bteAcc (x.s a).toNat →
     (q.packets.find? (fun p => p.number == n) = none → ∃ t, exec (.cpCancel d a b) s = .next t ∧ Reports t x d 0 1 ∧
       Dict.find? t.bte (x.s a).toNat = some q) ∧
     (∀ p, q.packets.find? (fun p => p.number == n) = some p → p.complete = false → s.bteTl (x.s a).toNat < n →
       ∃ t q1, exec (.cpCancel d a b) s = .next t ∧ Reports t x d 1 1 ∧ Dict.find? t.bte (x.s a).toNat = some q1 ∧ n ∈ q1.cancels))) ∧
  (∀ (s : State) (x : Issuer) (d a b : BitVec 6) (q : BteQueue) (hp sp : Nat),
     let n := (x.s a).toNat
     let u := s.bteUhdr n
     let i := (numberOf (s.newest x.hamper) hp 4).toNat
     let va := s.bteRing n + 64 * (i % 2 ^ s.bteLog2 n)
     let s1 := s.ordered x.hamper false true [(0, pushAcc u, .mem hp)]
     Ready s x { reads := a.toNat :: upFrom b.toNat 8, writes := [d.toNat], courses := true, roles := 1 } → s.bteRefusal x (x.s a) = none →
     Dict.find? s.bte n = some q → (∀ e ∈ s.arrived, e.reader ≠ .path x.id 4) → x.strand.longs = [] → s.copies = [] →
     (i + 2 ^ 32 - (numberOf (s.newest x.hamper) (hp + 4) 4).toNat) % 2 ^ 32 < 2 ^ s.bteLog2 n →
     s.judge x.who (pushAcc u) = (.ok (.mem hp), s) → (∀ j, j < 8 → s1.judge x.who (pushAcc (va + 8 * j)) = (.ok (.mem (sp + 8 * j)), s1)) →
     OttRoom s x [(0, pushAcc u, .mem hp)] → OttRoom s1 x ((upFrom 0 8).map (fun j => (0, pushAcc (va + 8 * j), .mem (sp + 8 * j)))) →
     Plain s hp 8 → (∀ j, j < 8 → Plain s1 (sp + 8 * j) 8) → s1.memPoison hp 8 = false → (sp + 64 ≤ hp ∨ hp + 8 ≤ sp) →
     ∃ t, exec (.cpPush d a b) s = .next t ∧ Reports t x d (BitVec.ofNat 64 (q.accAtOpen + i + 1)) 1 ∧
       (∀ j, j < 64 → t.byte (sp + j) = (pushBytes x b i (s.bteLog2 n)).getD j 0) ∧ t.peekN hp 4 = (i + 1) % 2 ^ 32 ∧
       (∀ c, (c < sp ∨ sp + 64 ≤ c) → (c < hp ∨ hp + 4 ≤ c) → t.byte c = s.newest x.hamper c))

/-- R408, R420, R423: a build, a refit and the tile forms of the coverage unit that no check stops are accepted, with Z set alone. R408: the checks
come before the refusal: a build whose N is out of its range is refused with code 1, Z, N, C and V clear, and no other effect. -/
def Obligations.QueryAndCoverageForms : Prop :=
  ((∀ row ∈ ([(.rqBuild, .build), (.rqRefit, .refit)] : List ((BitVec 6 → BitVec 6 → Instr) × (W64 → W64 → Nat → Nat → Nat → OpKind))),
     ∀ (s : State) (x : Issuer) (d a : BitVec 6),
     let tri := x.s a
     let out := x.sAt (a.toNat + 1)
     let n := (x.sAt (a.toNat + 2)).toNat
     let ids := (x.sAt (a.toNat + 3)).toNat
     let r := rangesOf tri.toNat (36 * n) ++ rangesOf out.toNat (192 * n)
     Ready s x { reads := upFrom a.toNat 4, writes := [d.toNat], courses := true, roles := 4 } → tri.toNat % 4 = 0 → out.toNat % 128 = 0 →
     1 ≤ n → n ≤ 2 ^ 24 → ids < 2 ^ 56 → meetsHole r = false → meetsPeer r = false → s.meetsWindow x.asid r = false →
     ∃ t y, exec (row.1 d a) s = .next t ∧ Accepts s t x 1 d (row.2 tri out n (ids % 2 ^ 32) (ids / 2 ^ 32)) ∧
       t.issuerAt x.id = some y ∧ y.path.scc = 1) ∧
   (∀ (s : State) (x : Issuer) (d a : BitVec 6) (r : BitVec 2),
     let rows := upFrom 0 (8 * 2 ^ bits (x.s a).toNat 24 23)
     Ready s x { reads := [a.toNat], writes := [d.toNat], courses := true, roles := 4 } → s.tileBad x (x.s a) = false →
     (∃ t y, exec (.covTile d a) s = .next t ∧ Accepts s t x 2 d (.covTile (x.s a) rows) ∧ t.issuerAt x.id = some y ∧ y.path.scc = 1) ∧
     (∃ t y, exec (.covTileClr d a) s = .next t ∧ Accepts s t x 2 d (.covTile (x.s a) rows) ∧ t.issuerAt x.id = some y ∧ y.path.scc = 1) ∧
     (∃ t y, exec (.covResolve d a r) s = .next t ∧ Accepts s t x 2 d (.covResolve (x.s a) r.toNat rows) ∧ t.issuerAt x.id = some y ∧
       y.path.scc = 1))) ∧
  (∀ (s : State) (x : Issuer) (d a : BitVec 6), Ready s x { reads := upFrom a.toNat 4, writes := [d.toNat], courses := true, roles := 4 } →
     (x.s a).toNat % 4 = 0 → (x.sAt (a.toNat + 1)).toNat % 128 = 0 → ((x.sAt (a.toNat + 2)).toNat = 0 ∨ 2 ^ 24 < (x.sAt (a.toNat + 2)).toNat) →
     ∃ t, exec (.rqBuild d a) s = .next t ∧ Wrote s t x d.toNat 1 false 0 (x.path.pc + 4))

/-- R190, R193, R194, R196, R200, R201, R428-R430: the strand forms of `ply`: opening at a new snapshot, with an acquire, the commit of a transaction that
wrote nothing, with a release, the abort, handles, stamps and the clock. R197, R200, R201, R428, R429: the coil forms in a coil whose one live strand arrives: the
rendezvous ends at once. -/
def Obligations.PlyForms : Prop :=
  ((∀ (s : State) (x : Issuer) (d a : BitVec 6), Ready s x { writes := [d.toNat], courses := true } → Alone x → x.strand.txn = none → x.coil.openTxn = none →
     s.takeSnap ≠ none →
     ∃ t y tx, exec (.plyBegin d a 0) s = .next t ∧ Reports t x d 0 1 ∧ t.issuerAt x.id = some y ∧ y.strand.txn = some tx ∧
       tx.snap.stamp = s.ply.pub ∧ tx.aborted = none ∧ t.mem = (s.acquireAt x 2).mem) ∧
   (∀ (s : State) (x : Issuer) (d : BitVec 6) (tx : Txn), Ready s x { writes := [d.toNat], courses := true } → Alone x → x.strand.txn = some tx →
     tx.aborted = none → x.strand.longs = [] → s.copies = [] →
     (s.revoked tx.snap = false → s.writeSet tx.tag = [] → ∃ t y, exec (.plyCommit d) s = .next t ∧ Reports t x d 0 1 ∧
       t.issuerAt x.id = some y ∧ y.strand.txn = none ∧ t.mem = (s.l1Release x.hamper).mem) ∧
     (s.revoked tx.snap = true → ∃ t y, exec (.plyCommit d) s = .next t ∧ Reports t x d 3 4 ∧ t.issuerAt x.id = some y ∧ y.strand.txn = none ∧
       t.mem = (s.l1Release x.hamper).mem) ∧
     (∃ t y, exec (.plyAbort d) s = .next t ∧ Reports t x d 4 0 ∧ t.issuerAt x.id = some y ∧ y.strand.txn = none ∧
       t.ply.tents = s.ply.tents.filter (fun p => p.tag != tx.tag) ∧ t.mem = s.mem)) ∧
   (∀ (s s1 : State) (x : Issuer) (d : BitVec 6) (n : Snap), Ready s x { writes := [d.toNat], courses := true } → x.coil.handles.length < 8 →
     s.takeSnap = some (n, s1) →
     ∃ t y, exec (.plySnap d) s = .next t ∧ Reports t x d n.handle 1 ∧ t.issuerAt x.id = some y ∧ y.coil.handles = x.coil.handles ++ [n]) ∧
   (∀ (s : State) (x : Issuer) (a : BitVec 6) (n : Snap), Ready s x { reads := [a.toNat], courses := true } → x.coil.heldHandle (x.s a) = some n →
     ∃ t y, exec (.plyDrop a) s = .next t ∧ Reports t x 0 0 1 ∧ t.issuerAt x.id = some y ∧ y.coil.handles = x.coil.handles.erase n) ∧
   (∀ (s : State) (x : Issuer) (d a : BitVec 6) (n : Snap), Ready s x { writes := [d.toNat], courses := true } → x.bolt.snap = some n →
     ∃ t, exec (.plyStamp d a 1) s = .next t ∧ Reports t x d (BitVec.ofNat 64 n.stamp) (if s.revoked n then 0 else 1)) ∧
   (∀ (s : State) (x : Issuer) (d : BitVec 6), Ready s x { writes := [d.toNat], courses := true } →
     ∃ t, exec (.plyClock d) s = .next t ∧ Wrote s t x d.toNat (BitVec.ofNat 64 s.ply.pub) false 1 (x.path.pc + 4))) ∧
  (∀ (s : State) (x : Issuer) (d a : BitVec 6), Ready s x { writes := [d.toNat], courses := true } → Alone x → x.coil.liveStrands = [x.id.strand] →
     x.id.strand < 64 →
     (x.coil.openTxn = none → (∀ st ∈ x.coil.strands, st.txn = none) → s.takeSnap ≠ none →
       ∃ t y tx, exec (.plyBeginCoil d a 0) s = .next t ∧ Reports t x d 0 1 ∧ t.issuerAt x.id = some y ∧ y.coil.txn = some tx ∧
         tx.snap.stamp = s.ply.pub ∧ tx.aborted = none) ∧
     (∀ tx, x.coil.openTxn = some tx → tx.aborted = none → x.coil.plyReported.getLsbD x.id.strand = false →
       (x.strand.longs = [] → s.copies = [] → s.revoked tx.snap = false → s.writeSet tx.tag = [] →
         ∃ t y, exec (.plyCommitCoil d) s = .next t ∧ Reports t x d 0 1 ∧ t.issuerAt x.id = some y ∧ y.coil.txn = none) ∧
       (∃ t y, exec (.plyAbortCoil d) s = .next t ∧ Reports t x d 4 0 ∧ t.issuerAt x.id = some y ∧
         y.coil.txn = some { tx with aborted := some 4 } ∧ y.coil.plyReported.getLsbD x.id.strand = true)))

/-- R356, R357, R352, R353: the short integer and logic forms give each element of each active lane its result, raise no flag, and change no other
register. -/
def Obligations.LaneIntegers : Prop :=
  (∀ row ∈ laneIntRows, ∀ (s : State) (x : Issuer) (r : Running) (o : Lane),
    let i := laneIn x r o
    LaneReady s x r row.op o → i.clean (row.srcs o) →
    ∃ t, exec (row.instr o) s = .next t ∧ LaneWrote s t i 0 x.path.seq (i.elementsAre (row.result o))) ∧
  (∀ (s : State) (x : Issuer) (r : Running) (o : Lane),
    let i := laneIn x r o
    let product (l k : Nat) : Int := laneInt o (elem 8 k (i.a l)) * laneInt o (elem 8 k (i.b l))
    LaneReady s x r 0x0F o → i.clean (srcsABC o) →
    ∃ t, exec (.vDot4 o) s = .next t ∧ LaneWrote s t i 0 x.path.seq (fun l v bad => bad = false ∧ ∀ w, w < 2 →
      (elem 32 w v : Int) = (elem 32 w (i.c l) + product l (4 * w) + product l (4 * w + 1) + product l (4 * w + 2) + product l (4 * w + 3)) % 2 ^ 32))

/-- R361, R317, R319: the short floating forms give each element what the operation of its format gives, and merge its flags. -/
def Obligations.LaneFloats : Prop :=
  ∀ row ∈ laneFloatRows, ∀ (s : State) (x : Issuer) (r : Running) (o : Lane),
    let i := laneIn x r o
    LaneReady s x r row.op o → i.clean (row.srcs o) →
    ∃ t, exec (row.instr o) s = .next t ∧ LaneWrote s t i (i.flagsOf (row.result o)) x.path.seq (i.elementsAre (row.result o))

/-- R120, R356, R362: `v.div`, `v.rem` and the long floating forms leave their results pending, with every register as it was. -/
def Obligations.LaneLongs : Prop :=
  ∀ row ∈ laneDivRows ++ laneFnRows, ∀ (s : State) (x : Issuer) (r : Running) (o : Lane),
    let i := laneIn x r o
    LaneReady s x r row.op o → i.clean (row.srcs o) →
    ∃ t, exec (row.instr o) s = .next t ∧ LanePassed t i false ∧ t.mem = s.mem ∧
      LanePending t i s.nextOp (i.flagsOf (row.result o)) (i.elementsAre (row.result o))

/-- R358-R360, R363: a compare writes one bit for each active lane, by RED and IDX. -/
def Obligations.LaneCompares : Prop :=
  ∀ row ∈ compareRows, ∀ (s : State) (x : Issuer) (r : Running) (o : Lane),
    let i := laneIn x r o
    LaneReady s x r row.op o → i.clean (srcsAB o) →
    ∃ t, exec (row.instr o) s = .next t ∧ LaneMasked s t i (i.compareFlags (row.cond o)) (kSpec o.d.toNat) (i.decides (row.cond o))

/-- R364, R365, R321-R323: conversions, packs and unpacks, and block scaling. -/
def Obligations.LaneConversions : Prop :=
  (∀ row ∈ cvtRows, ∀ (s : State) (x : Issuer) (r : Running) (o : Lane),
    let i := laneIn x r o
    let src := srcTy o
    let n := cvtCount (tyWidth src) i.e
    let k := o.sub.toNat * n
    let f (l j : Nat) : Cvt := convertElem x.strand.cvt src i.ty (elem (tyWidth src) (row.source k + j) (i.val src o.a.toNat l))
      (i.draw l (row.target k + j))
    LaneReady s x r row.op o → i.clean (srcsA o) →
    ∃ t, exec (row.instr o) s = .next t ∧
      LaneWrote s t i (i.cvtFlags n f) (i.seqAfter (i.cvtDrew n f)) (i.converted n (row.target k) row.keeps f)) ∧
  (∀ (s : State) (x : Issuer) (r : Running) (o : Lane),
    let i := laneIn x r o
    let src := srcTy o
    let n := cvtCount (tyWidth src) i.e
    let down := bit o.mod.toNat 4
    let from0 := if down then 0 else o.sub.toNat * n
    let to0 := if down then o.sub.toNat * n else 0
    let f (l j : Nat) : Cvt := scaleElem x.strand.cvt src i.ty down (elem (tyWidth src) (from0 + j) (i.val src o.a.toNat l))
      (elem 8 (bits o.imm.toNat 2 0) (i.b l)) (i.draw l (to0 + j))
    LaneReady s x r 0x4B o → i.clean (srcsAB o) →
    ∃ t, exec (.vBscl o) s = .next t ∧ LaneWrote s t i (i.cvtFlags n f) (i.seqAfter (i.cvtDrew n f)) (i.converted n to0 down f))

/-- R354, R366, R367: moves and selects, and the forms across lanes and elements; they carry poison with the word and consume none, but for the
index of `v.shfl`. -/
def Obligations.LaneMoves : Prop :=
  ∀ (s : State) (x : Issuer) (r : Running) (o : Lane),
    let i := laneIn x r o
    let w2 := o.imm.toNat
    (LaneReady s x r 0x58 o → ∃ t, exec (.vMov o) s = .next t ∧ LaneWrote s t i 0 x.path.seq (fun l v bad =>
      (v, bad) = if o.sub = 1 then ((Tab.get 0 x.strand.tids l).setWidth 64, false) else (i.a l, i.bad o.a.toNat l))) ∧
    (LaneReady s x r 0x59 o → ∃ t, exec (.vSel o) s = .next t ∧ LaneWrote s t i 0 x.path.seq (fun l v bad =>
      (v, bad) = if (x.mask (kSpec o.c.toNat)).getLsbD l then (i.a l, i.bad o.a.toNat l) else (i.b l, i.bad o.b.toNat l))) ∧
    (LaneReady s x r 0x5A o → o.sub ≠ 1 → ∃ t, exec (.vKmov o) s = .next t ∧ LaneWrote s t i 0 x.path.seq (fun _ v bad =>
      (v, bad) = (x.mask (kSpec o.a.toNat) &&& laneAll x.w, false))) ∧
    (LaneReady s x r 0x5A o → o.sub = 1 → i.clean (srcsA o) → ∃ t, exec (.vKmov o) s = .next t ∧
      LaneMasked s t i 0 (kSpec o.d.toNat) (fun l => (i.a l).getLsbD 0)) ∧
    (LaneReady s x r 0x60 o → i.clean [o.b.toNat] → ∃ t, exec (.vShfl o) s = .next t ∧ LaneWrote s t i 0 x.path.seq (fun l v bad =>
      (∀ k, k < i.n → elem i.e k v = let p := elem i.e k (i.b l); if p < x.w * i.n then elem i.e (p % i.n) (i.a (p / i.n)) else 0) ∧
      (bad = true ↔ ∃ k, k < i.n ∧ elem i.e k (i.b l) < x.w * i.n ∧ i.bad o.a.toNat (elem i.e k (i.b l) / i.n) = true))) ∧
    (LaneReady s x r 0x61 o → bits w2 5 0 < x.w → ∃ t, exec (.vBcast o) s = .next t ∧ LaneWrote s t i 0 x.path.seq (fun _ v bad =>
      (∀ k, k < i.n → elem i.e k v = elem i.e (bits w2 13 8) (i.a (bits w2 5 0))) ∧ bad = i.bad o.a.toNat (bits w2 5 0))) ∧
    (LaneReady s x r 0x62 o → bits w2 6 0 < x.w → ∃ t, exec (.vRot o) s = .next t ∧ LaneWrote s t i 0 x.path.seq (fun l v bad =>
      let k := bits w2 6 0
      (v, bad) = if o.sub = 0 then (i.a ((l + k) % x.w), i.bad o.a.toNat ((l + k) % x.w))
        else if o.sub = 1 then (if l + k < x.w then (i.a (l + k), i.bad o.a.toNat (l + k)) else (0, false))
        else (if k ≤ l then (i.a (l - k), i.bad o.a.toNat (l - k)) else (0, false)))) ∧
    (LaneReady s x r 0x68 o → ∃ t, exec (.vXtr o) s = .next t ∧ LaneWrote s t i 0 x.path.seq (fun l v bad =>
      bad = i.bad o.a.toNat l ∧
      v.toInt = if tySigned i.ty then laneInt o (elem i.e w2 (i.a l)) else ((BitVec.ofNat 64 (elem i.e w2 (i.a l))).toInt))) ∧
    (LaneReady s x r 0x69 o → ∃ t, exec (.vIns o) s = .next t ∧ LaneWrote s t i 0 x.path.seq (fun l v bad =>
      (∀ k, k < i.n → elem i.e k v = if k = w2 then elem i.e 0 (i.a l) else elem i.e k (i.dOld l)) ∧
      bad = (i.bad o.a.toNat l || (decide (1 < i.n) && i.bad o.d.toNat l))))

/-- R368, R369: votes, reductions, scans and the transfers between lanes and scalar registers. -/
def Obligations.LaneReductions : Prop :=
  ∀ (s : State) (x : Issuer) (r : Running) (o : Lane),
    let i := laneIn x r o
    (LaneReady s x r 0x63 o → i.clean (srcsA o) → ∃ t b, exec (.vVote o) s = .next t ∧
      (∀ l, l < 64 → BitVec.getLsbD b l = decide (l ∈ i.lanes ∧ i.a l ≠ 0)) ∧
      LaneScalar s t i 0 o.d.toNat
        (match o.sub.toNat with
          | 0 => b
          | 1 => if b = 0 then 0 else 1
          | 2 => if ∀ l ∈ i.lanes, i.a l ≠ 0 then 1 else 0
          | _ => BitVec.ofNat 64 (i.lanes.countP (fun l => i.a l != 0))) false) ∧
    (LaneReady s x r 0x64 o → i.clean (srcsA o) → ∃ t, exec (.vSred o) s = .next t ∧
      let present := (upFrom 0 x.w).flatMap (fun l => (upFrom 0 i.n).map (fun j => if i.act.getLsbD l then some (elem i.e j (i.a l)) else none))
      let res := reduceTree (redOp i.ty o.sub.toNat) 10 present
      let v := res.1.getD (redIdentity i.ty o.sub.toNat)
      LaneScalar s t i res.2 o.d.toNat (if tySigned i.ty then BitVec.ofInt 64 (laneInt o v) else BitVec.ofNat 64 v) false) ∧
    (LaneReady s x r 0x65 o → i.clean (srcsA o) → ∃ t, exec (.vScan o) s = .next t ∧ LaneWrote s t i 0 x.path.seq (fun l v bad =>
      bad = false ∧ ∀ j, j < i.n → elem i.e j v =
        ((i.before l j ++ (if o.mod = 1 then [] else [elem i.e j (i.a l)])).foldl (redInt i.ty o.sub.toNat) (redIdentity i.ty o.sub.toNat)) % 2 ^ i.e)) ∧
    (LaneReady s x r 0x66 o → bits o.imm.toNat 5 0 < x.w → ∃ t, exec (.vTos o) s = .next t ∧
      LaneScalar s t i 0 (if i.act = 0 then 0 else o.d.toNat) (i.a (bits o.imm.toNat 5 0)) (i.bad o.a.toNat (bits o.imm.toNat 5 0))) ∧
    (LaneReady s x r 0x67 o → x.sBad o.a.toNat = false → ∃ t, exec (.vFroms o) s = .next t ∧ LaneWrote s t i 0 x.path.seq (fun _ v bad =>
      bad = false ∧ ∀ j, j < i.n → elem i.e j v = elem i.e 0 (x.sAt o.a.toNat))) ∧
    (LaneReady s x r 0x70 o → r.pos + 2 = r.words.length → x.strand.entries = [] → x.path.em = x.strand.live →
      (∀ (q : Nat) (st : Strand), x.coil.strands[q]? = some st → st.txn = none) →
      ∃ t y, exec (.reorder o) s = .next t ∧ t.issuerAt x.id = some y ∧ y.path.park = .reorder ∧ y.path.pc = x.path.pc ∧
        y.strand.running = some r ∧ y.strand.vregs = x.strand.vregs ∧ y.strand.kregs = x.strand.kregs)

/-- R150, R373-R376: `v.ld` and `v.st` on places inside the device. A load leaves each active lane's value pending, extended by its TYPE, after what
its acquire does; a store gives each lane's address C's low bytes, in the L1 of its Hamper or, where it releases at a scope that acts on the L1, at the
L2, and gives no other byte a new value; mode 2 advances A (R374). -/
def Obligations.LaneLoadsAndStores : Prop :=
  (∀ (s s1 : State) (x : Issuer) (r : Running) (o : Lane) (place : Nat → Place),
    let i := laneIn x r o
    let n := accSize o
    let ps := i.accesses (fun l => { kind := .read, va := (laneEa i l).toNat, size := n, l2 := laneAcq x o }) place
    let s2 := s1.ordered x.hamper (x.actsFor (laneAcqScope o) ps) false ps
    LaneReady s x r 0x80 o → i.clean (addrSpecs o) → Allowed s s1 x ps →
    ∃ t, exec (.vLd o) s = .next t ∧ LanePassed t i (bits o.sub.toNat 1 0 == 2) ∧ Kept s1 t x.hamper ∧
      LanePending t i s1.nextOp 0 (fun l v bad =>
        v = extend i.ty n (ofBytes (s2.load x.view (some x.coil) (place l) n).1) ∧ bad = (s2.load x.view (some x.coil) (place l) n).2)) ∧
  (∀ (s s1 : State) (x : Issuer) (r : Running) (o : Lane) (pa : Nat → Nat),
    let i := laneIn x r o
    let n := accSize o
    LaneReady s x r 0x90 o → i.clean (addrSpecs o) →
    Allowed s s1 x (i.accesses (fun l => { kind := .write, va := (laneEa i l).toNat, size := n, l2 := laneRel x o })
      (fun l => placeAt x (laneRel x o) (pa l))) (laneLate o) →
    (∀ l ∈ i.lanes, Plain s1 (pa l) n) →
    ∃ t, exec (.vSt o) s = .next t ∧ LaneStored s1 t i pa n i.c (laneRel x o) ∧ LanePassed t i (bits o.sub.toNat 1 0 == 2))

/-- R150, R377, R379, R380: `v.atom` and `v.red` on device memory that holds no poison, at the L2 or, for the narrow scopes of an unpaired coil, in the L1
of their Hamper: each lane's word takes the new value, and `v.atom` leaves the old values pending. -/
def Obligations.LaneAtomics : Prop :=
  ∀ (s s1 : State) (x : Issuer) (r : Running) (o : Lane) (pa : Nat → Nat),
    let i := laneIn x r o
    let n := tyWidth i.ty / 8
    let op := laneAtomOp o.sub.toNat
    let deep := x.atL2 (scopeOf o.mod.toNat)
    let old (l : Nat) : Nat := (numberOf (if deep then s1.newest x.hamper else s1.seen x.hamper) (pa l) n).toNat
    let new (l : Nat) : W64 := BitVec.ofNat 64 (atomicNew op i.ty (old l) (elem i.e 0 (i.c l)) (elem i.e 0 (i.dOld l))).1
    i.clean ([o.a.toNat, o.c.toNat] ++ (if op = .cas then [o.d.toNat] else [])) →
    Allowed s s1 x (i.accesses (fun l =>
      { kind := .atomic, va := (i.a l + o.imm.signExtend 64).toNat, size := n, pcieAtomic := pcieHas op n, l2 := deep })
      (fun l => placeAt x deep (pa l))) (laneLate o) →
    (∀ l ∈ i.lanes, Plain s1 (pa l) n ∧ ∀ c, c / 128 = pa l / 128 → s1.memPoison c 1 = false ∧ s1.seenBad x.hamper c = false) →
    (LaneReady s x r 0xA0 o → ∃ t f, exec (.vAtom o) s = .next t ∧ LaneStored s1 t i pa n new deep ∧ LanePassed t i false ∧
      LanePending t i s1.nextOp f (fun l v bad => bad = false ∧ (i.apart pa n → v = extend i.ty n (old l)))) ∧
    (LaneReady s x r 0xA1 o → (x.desc.rflags = 0 ∨ o.sub.toNat ≤ 7) → ∃ t, exec (.vRed o) s = .next t ∧ LaneStored s1 t i pa n new deep ∧
      LanePassed t i false)

/-- R382-R384: `v.cpa` holds each lane's bytes for the bank and goes on; LANE_ACCESS_FINISH writes them; `v.fpush` and `v.fpop` act on a FIFO bank
that the address space may use, in lane order. -/
def Obligations.LaneCopiesAndFifos : Prop :=
  (∀ (s s1 : State) (x : Issuer) (r : Running) (o : Lane) (place : Nat → Acc → Place),
    let i := laneIn x r o
    let src (l : Nat) : Nat := (i.a l + o.imm.signExtend 64).toNat
    let count (l : Nat) : Nat := min 32 (i.c l).toNat
    LaneReady s x r 0xB0 o → i.clean (srcsABC o) → (∀ l ∈ i.lanes, cpaDest s i (i.b l).toNat = none) →
    (∀ l ∈ i.lanes, ∀ k, k < 4 → s.winOff x.asid (src l + 8 * k) = none) →
    let ps := i.lanes.flatMap (fun l => (cpaSource (src l) (count l)).map (fun a => (l, a, place l a)))
    Allowed s s1 x ps false (some i.lanes.length) .current →
    ∃ t, exec (.vCpa o) s = .next t ∧ LanePassed t i false ∧ Kept s1 t x.hamper ∧ ∀ l ∈ i.lanes, ∃ op c, Dict.find? t.copies op = some c ∧
      .laneAccessFinish op ∈ t.agenda ∧ c.p = x.id ∧ c.lane = l ∧ c.dst = i.b l ∧
      c.bytes = cpaBytes (count l) ((cpaSource (src l) (count l)).map (fun a =>
        ((s1.ordered x.hamper false false ps).load .current (some x.coil) (place l a) a.size).1))) ∧
  (∀ (s : State) (op off key : Nat) (m : CpaLane) (c : Coil) (b : Bolt), Dict.find? s.copies op = some m → s.coilBolt? m.p.coil = some (c, b) →
    c.liveStrands ≠ [] → m.bytes.length = 32 → s.winOff b.asid m.dst.toNat = some off →
    (∀ k, k < 4 → winPlace c b.desc (b.desc.halfOf m.p.strand) (off + 8 * k) 8 = some (.scr (key + 8 * k))) →
    ∃ t, exec (.laneAccessFinish op) s = .next t ∧ Dict.find? t.copies op = none ∧ t.mem = s.mem ∧
      (∀ k, k < 32 → some (Tab.get Config.blank t.sram (key + k)) = m.bytes[k]?) ∧
      (∀ k, k < key ∨ key + 32 ≤ k → Tab.get Config.blank t.sram k = Tab.get Config.blank s.sram k)) ∧
  (∀ (s : State) (x : Issuer) (r : Running) (o : Lane),
    let i := laneIn x r o
    let bank := bits o.imm.toNat 4 0
    fifoOk s x bank = true →
    (LaneReady s x r 0xB1 o → (s.fifo x bank).length + i.lanes.length ≤ 2048 → orderWaits x (laneLate o) = false →
      ∃ t, exec (.vFpush o) s = .next t ∧ LanePassed t i false ∧ Kept s t x.hamper ∧ t.fifo x bank = s.fifo x bank ++ i.lanes.map (fun l => (i.a l, i.bad o.a.toNat l))) ∧
    (LaneReady s x r 0xB2 o → i.lanes.length ≤ (s.fifo x bank).length → orderWaits x false = false → ∃ t, exec (.vFpop o) s = .next t ∧ LanePassed t i false ∧
      Kept s t x.hamper ∧ t.fifo x bank = (s.fifo x bank).drop i.lanes.length ∧
      LanePending t i s.nextOp 0 (fun l v bad => ∃ k : Nat, i.lanes[k]? = some l ∧ (s.fifo x bank)[k]? = some (v, bad))))

/-- R215, R404, R405: the tile forms read and write the words of a tile that no earlier operation of their strand's engine still acts on. -/
def Obligations.TileAccess : Prop :=
  ∀ (s : State) (x : Issuer) (r : Running) (o : Lane),
    let i := laneIn x r o
    let word (tile l h : Nat) : Nat := accKey x.half tile (bits o.imm.toNat 5 0 + l) (2 * bits o.imm.toNat 12 8 + h)
    let value (l : Nat) : W64 := if o.sub = 1 then (Tab.get 0 x.coil.accStat (16 * x.half + o.a.toNat)).setWidth 64
      else (Tab.get 0 x.coil.acc (word o.a.toNat l 1) ++ Tab.get 0 x.coil.acc (word o.a.toNat l 0) : W64)
    (∀ row ∈ ([(.mxPeek, 0xC0, true), (.mxRd, 0xC1, false)] : List ((Lane → Instr) × Nat × Bool)),
      LaneReady s x r row.2.1 o → o.a.toNat < x.desc.acc → (o.sub = 0 → rowsOk i = true) → s.tileBusy x o.a.toNat row.2.2 = false →
      ∃ t, exec (row.1 o) s = .next t ∧ LanePassed t i false ∧ t.mem = s.mem ∧ LanePending t i s.nextOp 0 (fun l v _ => v = value l)) ∧
    (LaneReady s x r 0xC2 o → o.d.toNat < x.desc.acc → rowsOk i = true → s.tileBusy x o.d.toNat false = false →
      ∃ t y, exec (.mxWr o) s = .next t ∧ OnlyCoil s t x.id.coil ∧ t.issuerAt x.id = some y ∧ y.strand.running = some r.next ∧
        y.strand.vregs = x.strand.vregs ∧
        (∀ l ∈ i.lanes, (Tab.get 0 y.coil.acc (word o.d.toNat l 1) ++ Tab.get 0 y.coil.acc (word o.d.toNat l 0) : W64) = i.a l) ∧
        (∀ key, (∀ l ∈ i.lanes, key ≠ word o.d.toNat l 0 ∧ key ≠ word o.d.toNat l 1) → Tab.get 0 y.coil.acc key = Tab.get 0 x.coil.acc key))

/-- R410, R418, R419, R424, R425: the query and coverage forms of the lane stream are accepted by their engines: one operation for each active lane
of `rq.ray`, one for the others. -/
def Obligations.LaneEngineForms : Prop :=
  (∀ (s : State) (x : Issuer) (r : Running) (o : Lane),
    let i := laneIn x r o
    let a := o.a.toNat
    let half (k l : Nat) (hi : Bool) : W32 := ((i.val i.ty (a + k) l) >>> (if hi then 32 else 0)).setWidth 32
    LaneReady s x r 0xC8 o [a + 1, a + 2, a + 3, o.d.toNat + 1] → i.clean [a, a + 1, a + 2, a + 3, o.b.toNat] →
    ∃ t, exec (.rqRay o) s = .next t ∧ LanePassed t i false ∧ t.mem = s.mem ∧ ∀ l ∈ i.lanes, ∃ op e, Dict.find? t.ops op = some e ∧
      .rayLaneComplete op ∈ t.agenda ∧ e.coil = x.id.coil ∧ e.strand = x.id.strand ∧ e.kind = .ray l o.d.toNat
        [half 0 l false, half 0 l true, half 1 l false] (half 1 l true) [half 2 l false, half 2 l true, half 3 l false] (half 3 l true) (i.b l)
        (bits o.mod.toNat 2 0)) ∧
  (∀ (s s1 : State) (x : Issuer) (r : Running) (o : Lane) (l : Nat) (place : Nat → Place),
    let i := laneIn x r o
    let at_ (k : Nat) : Nat := ((i.b l).toNat + 8 * k) % 2 ^ 64
    LaneReady s x r 0xC9 o → i.lanes.head? = some l → i.clean (srcsABC o) →
    (∀ k, k < 1024 → ∀ c, (s.judge x.who
      { kind := .write, va := ((i.c l).toNat + 8 * k) % 2 ^ 64, size := 8, align := if k = 0 then 32 else 8 }).1 ≠ .cause c) →
    Allowed s s1 x ((upFrom 0 8).map (fun k => (l, { kind := .read, va := at_ k, size := 8, align := if k = 0 then 64 else 8 }, place k))) →
    (∀ k, k < 8 → ∃ pa, place k = .l1 x.hamper pa ∧ Plain s1 pa 8) → (∀ k, k < 8 → (s1.load x.view (some x.coil) (place k) 8).2 = false) →
    ∃ t, exec (.rqBeam o) s = .next t ∧ LaneAccepts s1 t i s1.nextOp 3
      (.beam (i.a l) ((upFrom 0 8).flatMap (fun k => (s1.load x.view (some x.coil) (place k) 8).1)) (i.c l) l)) ∧
  (∀ (s : State) (x : Issuer) (r : Running) (o : Lane) (l : Nat),
    let i := laneIn x r o
    let origin (v : W64) : Int × Int := (4096 * (v.extractLsb' 0 32).toInt, 4096 * (v.extractLsb' 32 32).toInt)
    let cells (m : Nat) : List (Nat × Nat × Int) := match i.segment m with
      | some pts => segmentCells (pts.map (fun p => (p.1 - (origin (i.c l)).1, p.2 - (origin (i.c l)).2))) (tileW (i.b l)) (tileH (i.b l))
      | none => []
    LaneReady s x r 0xCC o (segmentRegs i) → i.lanes.head? = some l → i.clean (segmentRegs i) → i.bad o.b.toNat l = false →
    i.bad o.c.toNat l = false → s.tileBad x (i.b l) = false →
    ∃ t, exec (.covSeg o) s = .next t ∧ LaneAccepts s t i s.nextOp 2 (.covSeg (i.b l) (i.lanes.flatMap cells)) ∧
      (o.d ≠ 0 → ∃ y g, t.issuerAt x.id = some y ∧ Dict.find? y.strand.longs (s.nextOp + 1) = some g ∧
        g.kWrites = [(o.d.toNat, i.act, maskOf (i.lanes.filter (fun m => (i.segment m).isNone)))] ∧ .laneLongComplete (s.nextOp + 1) ∈ t.agenda)) ∧
  (∀ (s : State) (x : Issuer) (r : Running) (o : Lane),
    let i := laneIn x r o
    LaneReady s x r 0xCD o (segmentRegs i) → o.d ≠ 0 → i.lanes ≠ [] → i.clean (segmentRegs i ++ [o.b.toNat, o.c.toNat]) →
    (∀ l ∈ i.lanes, binCauses s i l = []) → orderWaits x false = false → s.ottUsed x.hamper ≤ 512 →
    ∃ t kind y g, exec (.covBin o) s = .next t ∧ LaneAccepts s t i (s.nextOp + 1) 2 kind ∧ t.issuerAt x.id = some y ∧
      Dict.find? y.strand.longs s.nextOp = some g ∧ g.held = true ∧ g.kWrites.map (fun k => (k.1, k.2.1)) = [(o.d.toNat, i.act), (o.d.toNat + 1, i.act)])

/-- R255, R426: `atl.req` of one active lane: a block of the atlas whose bit was clear is requested once: its bit is set, its entry goes to the FIFO
bank, and its lane's bit of the mask is to be 1; where the bit was set already, nothing is put in the FIFO. -/
def Obligations.AtlasRequest : Prop :=
  ∀ (s s1 s2 : State) (x : Issuer) (r : Running) (o : Lane) (l dp bp : Nat),
    let i := laneIn x r o
    let bank := bits o.imm.toNat 4 0
    let word (k : Nat) : Acc := { kind := .read, va := ((i.b l).toNat + 8 * k) % 2 ^ 64, size := 8, align := if k = 0 then 32 else 8 }
    let field (off n : Nat) : Nat := (numberOf (s1.seen x.hamper) (dp + off) n).toNat
    let bx := (i.a l).toNat % 2 ^ 32
    let by_ := (i.a l).toNat / 2 ^ 32
    let block := by_ * field 8 2 + bx
    let va := (field 0 8 + 8 * (block / 64)) % 2 ^ 64
    let acc : Acc := { kind := .atomic, va := va, size := 8, l2 := true }
    let old := numberOf (s2.newest x.hamper) bp 8
    LaneReady s x r 0xD0 o → o.d ≠ 0 → i.lanes = [l] → i.clean [o.a.toNat, o.b.toNat] → fifoOk s x bank = true → fifoOk s1 x bank = true →
    (s1.fifo x bank).length < 2048 →
    Allowed s s1 x ((upFrom 0 4).map (fun k => (l, word k, .l1 x.hamper (dp + 8 * k)))) → (∀ k, k < 4 → Plain s1 (dp + 8 * k) 8) →
    (∀ k, k < 32 → s1.seenBad x.hamper (dp + k) = false) → dp % 32 = 0 → field 14 8 = 0 → field 22 8 = 0 → field 24 8 = 0 → bx < field 8 2 → by_ < field 10 2 →
    s2 = (upFrom 0 4).foldl (fun s k => s.l1Touch x.hamper (dp + 8 * k) 8) s1 →
    s1.winOff x.asid va = none → Allowed s2 s2 x [(l, acc, .mem bp)] → Plain s1 bp 8 →
    ((s2.ordered x.hamper false false [(l, acc, .mem bp)]).load x.view (some x.coil) (.mem bp) 8).2 = false →
    ∃ t y g, exec (.atlReq o) s = .next t ∧ LanePassed t i false ∧ Stored s1 t x.hamper bp 8 (old ||| BitVec.twoPow 64 (block % 64)) true ∧
      t.fifo x bank = s1.fifo x bank ++ (if old.getLsbD (block % 64) then [] else [(BitVec.ofNat 64 (block % 2 ^ 32 + field 12 2 * 2 ^ 32), false)]) ∧
      t.issuerAt x.id = some y ∧ Dict.find? y.strand.longs s1.nextOp = some g ∧
      g.kWrites = [(o.d.toNat, i.act, if old.getLsbD (block % 64) then 0 else maskOf [l])]

/-- R15, R21, R29: a module reset leaves every register at its Reset value but for the health registers and the counts, which lose what was to
retire; an FLR keeps the counts and the base addresses; both end every bolt, clear the measurement registers and begin boot at its first stage. The
fuses and the flash stay. -/
def Obligations.Resets : Prop :=
  (∀ s : State, ∃ t, exec .moduleReset s = .next t ∧ t.coils = [] ∧ t.bolts = [] ∧ t.queues = [] ∧ t.power.stopped = false ∧ t.link.meas = [] ∧
    t.stage = 0 ∧ t.link.fuseSvn = s.link.fuseSvn ∧ t.link.keyHash = s.link.keyHash ∧ t.link.flash = s.link.flash ∧
    (∀ a, a ∉ healthSlots → a ≠ aModUnits → a ≠ aModMem → t.reg a = regReset a) ∧
    (∀ a ∈ healthSlots, (∀ h, h < 192 → a ≠ aHltDrift h) → t.reg a = s.reg a) ∧
    (s.power.retireCreels = [] → t.hampers = s.hampers ∧ ∀ h, h < s.hampers → h < 192 → t.reg (aHltDrift h) = s.reg (aHltDrift h)) ∧
    t.regF aModMem 8 0 = s.regF aModMem 8 0 - s.power.retireChannels.length ∧ t.regF aModMem 31 16 = 2 * t.regF aModMem 8 0 ∧
    t.regF aModUnits 31 31 = 0) ∧
  (∀ s : State, ∃ t, exec .flr s = .next t ∧ t.coils = [] ∧ t.bolts = [] ∧ t.queues = [] ∧ t.link.meas = [] ∧ t.stage = 0 ∧
    t.reg aModUnits = s.reg aModUnits ∧ t.reg aModMem = s.reg aModMem ∧ t.power.retireCreels = s.power.retireCreels ∧
    t.power.retireChannels = s.power.retireChannels ∧ (∀ a ∈ healthSlots, t.reg a = s.reg a) ∧ t.link.bars = s.link.bars ∧
    t.link.fuseSvn = s.link.fuseSvn ∧ t.outbox = .doeAbort :: s.outbox ∧
    (∀ a, a ∉ healthSlots → a ≠ aModUnits → a ≠ aModMem → t.reg a = regReset a))

/-- R25, R30, R32-R34, R82: boot halts on a failed self-test, a failed training and a second mismatch of the lock-step pair, and asks the host for
an image where both slots of the flash fail; a recovery piece out of its rules fails the attempt; the measurements are extended. -/
def Obligations.Boot : Prop :=
  (∀ (s : State) (b : Bool), s.stage = 0 →
    ∃ t, exec (.bootStageAdvance false b) s = .next t ∧ t.stage = 0xE ∧ t.regF aHstBoot 23 16 = 7 ∧
      (s.link.msixEnable = true → t.outbox = .msix 0 :: s.outbox)) ∧
  (∀ (s : State) (b : Bool), s.stage = 0 → s.link.flash = [] →
    ∃ t, exec (.bootStageAdvance true b) s = .next t ∧ t.stage = 0xF ∧ t.regF aHstBoot 23 16 = 1 ∧ t.regF aRecStat 10 8 = 1 ∧
      Tab.get 0 t.link.meas 0 = sha256 (digestBytes (sha256 (digestBytes (Tab.get 0 s.link.meas 0) ++ digestBytes Config.romDigest))
        ++ digestBytes s.fuseDigest)) ∧
  (∀ (s : State) (b ok : Bool), s.stage = 1 →
    ∃ t, exec (.bootStageAdvance b ok) s = .next t ∧ t.stage = (if ok then 2 else 0xE) ∧ (ok = false → t.regF aHstBoot 23 16 = 6)) ∧
  (∀ (s : State) (b c : Bool), s.stage = 3 →
    ∃ t, exec (.bootStageAdvance b c) s = .next t ∧ t.stage = 4 ∧ Tab.get 0 t.link.meas 5 = sha256 (digestBytes (Tab.get 0 s.link.meas 5) ++
      digestBytes (Config.configDigest (s.regN aModUnits) (s.regN aModMem) (s.regN aPwrMode) (s.link.images.map (fun i => i.2.2.2))))) ∧
  (∀ s : State, s.stage = 0xF →
    (s.regF aRecCtl 55 32 % 64 ≠ 0 ∨ s.regF aRecCtl 55 32 < 64 ∨ 2 ^ 23 < s.regF aRecCtl 55 32 ∨
      (s.link.recovery = none ∧ s.regF aRecCtl 23 0 ≠ 0) ∨ (∃ r, s.link.recovery = some r ∧ 64 * s.regF aRecCtl 23 0 ≠ 0x400 + r.bytes)) →
    ∃ t, exec .hstRecoverGo s = .next t ∧ t.stage = 0xF ∧ t.regF aHstBoot 23 16 = 1 ∧ t.regF aRecStat 1 0 = 2 ∧ t.link.recovery = none) ∧
  (∀ (s : State) (r : Recovery) (len : Nat), s.stage = 0xF → s.regF aRecCtl 55 32 = len → len % 64 = 0 → 64 ≤ len → len ≤ 2 ^ 23 →
    s.link.recovery = some r → 64 * s.regF aRecCtl 23 0 = 0x400 + r.bytes →
    let body := r.body ++ (Tab.getRun Config.blank s.link.staging 0 len).take (imLen r.header - r.body.length)
    (bit (s.regN aRecCtl) 63 = false → ∃ t, exec .hstRecoverGo s = .next t ∧ t.stage = 0xF ∧ t.regF aRecStat 10 8 = s.regF aRecStat 10 8 ∧
      t.link.recovery = some { r with bytes := r.bytes + len, body := body, lastSeen := false }) ∧
    (bit (s.regN aRecCtl) 63 = true → 0x400 + (r.bytes + len) = 0x400 + imLen r.header → sha256Bytes body = (r.header.drop 0x20).take 32 →
      r.kind = 1 ∨ r.kind = 4 → ∃ t, exec .hstRecoverGo s = .next t ∧ t.stage = (if r.kind = 1 then 1 else 3) ∧ t.regF aRecStat 1 0 = 1 ∧
        t.regF aRecStat 10 8 = 0 ∧ t.regF aHstBoot 23 16 = 0 ∧ t.link.recovery = none ∧
        Tab.get 0 t.link.meas r.kind = sha256 (digestBytes (Tab.get 0 s.link.meas r.kind) ++ imDigest r.header))) ∧
  (∀ (s : State) (len kind : Nat), s.stage = 0xF → s.regF aRecCtl 55 32 = len → len % 64 = 0 → 0x400 ≤ len → len ≤ 2 ^ 23 → s.link.recovery = none →
    s.regF aRecCtl 23 0 = 0 → bit (s.regN aRecCtl) 63 = false → s.regF aRecStat 10 8 = kind → bit (s.regN aFabReplay) 0 = false →
    let h := (Tab.getRun Config.blank s.link.staging 0 len).take 0x400
    s.headerErr kind h = 0 → s.svnErr kind h = 0 →
    ∃ t r, exec .hstRecoverGo s = .next t ∧ t.stage = 0xF ∧ t.link.recovery = some r ∧ r.kind = kind ∧ r.header = h ∧ r.bytes = len - 0x400) ∧
  (∀ s : State, s.stage ≠ 0xF → bit (s.regN aFabReplay) 0 = false → exec .hstRecoverGo s = .next s) ∧
  (∀ (s : State) (w : Bool), s.bootDone = true → (w = false ∨ s.lastMismatch = false) → s.regF aFwxStat 31 16 < 0xFFFF →
    ∃ t, exec (.lockstepMismatch w) s = .next t ∧ t.regF aFwxStat 31 16 = s.regF aFwxStat 31 16 + 1 ∧ t.halted = s.halted ∧ t.stage = s.stage ∧
      t.lastMismatch = true) ∧
  (∀ (s : State) (w : Bool), s.bootDone = false ∨ (w = true ∧ s.lastMismatch = true) →
    ∃ t, exec (.lockstepMismatch w) s = .next t ∧ t.halted = true ∧ t.stage = 0xE ∧ t.regF aHstBoot 23 16 = 8)

/-- R28, R68, R70, R95: the requests of the host mailbox and their replies. Where Holver chooses, the statement holds for every choice. -/
def Obligations.HostMailbox : Prop :=
  (∀ (s : State) (r : MbxReq), MailReady s →
    ∃ t, exec (.ping r) s = .next t ∧ Replied s t r (if r.len = 0 then 0 else 2) (if r.len = 0 then toBytes 8 (Config.holver 3 0) else [])) ∧
  (∀ (s : State) (r : MbxReq), MailReady s → ∃ t, exec (.mbxUnknownKind r) s = .next t ∧ Replied s t r 1 []) ∧
  (∀ (s : State) (r : MbxReq) (size align flags : Nat), MailReady s → r.len = 16 → recN r.body 0 8 = size → recN r.body 8 1 = align →
    recN r.body 9 1 = flags → flags ≤ 1 → recN r.body 10 6 = 0 → 1 ≤ size → size ≤ 2 ^ 40 → 12 ≤ align → align ≤ 30 →
    ∃ t va pa, exec (.mbxAlloc r) s = .next t ∧ va % 2 ^ align = 0 ∧ va < 2 ^ 56 ∧ pa % 2 ^ align = 0 ∧ (flags = 0 → pa = 0) ∧
      (Replied s t r 3 [] ∨ (Replied s t r 0 (toBytes 8 va ++ toBytes 8 pa) ∧
        t.link.allocs = (va, size, if flags = 1 then pa + 1 else 0) :: s.link.allocs))) ∧
  (∀ (s : State) (r : MbxReq), MailReady s → r.len ≠ 16 → ∃ t, exec (.mbxAlloc r) s = .next t ∧ Replied s t r 2 []) ∧
  (∀ (s : State) (r : MbxReq), r.len = 8 → (∃ a ∈ s.link.allocs, a.1 = recN r.body 0 8) →
    ∃ t s1 : State, exec (.mbxFree r) s = .next t ∧ t = s1.reply r 0 [] ∧ s1.link.allocs = s.link.allocs.filter (fun a => a.1 != recN r.body 0 8)) ∧
  (∀ (s : State) (r : MbxReq), MailReady s → (r.len ≠ 8 ∨ ∀ a ∈ s.link.allocs, a.1 ≠ recN r.body 0 8) →
    ∃ t, exec (.mbxFree r) s = .next t ∧ Replied s t r 2 []) ∧
  (∀ (s : State) (r : MbxReq), r.len = 24 → 10 ≤ recN r.body 16 1 → recN r.body 16 1 ≤ 24 → recN r.body 17 1 < 32 → recN r.body 18 6 = 0 →
    recN r.body 0 8 % 4096 = 0 → recN r.body 8 8 % 64 = 0 → s.qrcPending = false →
    ∃ t s1 : State, exec (.queueOpen r) s = .next t ∧ ((∃ q, q < s.regF aQrcCfg 44 32 ∧ s.qState q = 0 ∧ q ∈ s1.link.queues ∧
      t = s1.reply r 0 (toBytes 4 q ++ toBytes 2 s1.link.hostAsid ++ [0, 0])) ∨ t = s1.reply r 3 [] ∨ t = s1.reply r 4 [])) ∧
  (∀ (s s1 : State) (r : MbxReq) (q : Nat), r.len = 8 → recN r.body 0 4 = q → recN r.body 4 4 = 0 → q ∈ s.link.queues → s.qrcCloseOp q = s1 →
    (s.qrcPending = true → exec (.queueClose r) s = .next s.wait) ∧
    (s.qrcPending = false → s1.qrcPending = true → exec (.queueClose r) s = .next s1.wait) ∧
    (s.qrcPending = false → s1.qrcPending = false →
      ∃ t, exec (.queueClose r) s = .next t ∧ t = ({ s1 with link := { s1.link with queues := s1.link.queues.erase q } } : State).reply r 0 [])) ∧
  (∀ (s : State) (r : MbxReq), s.qrcPending = true → exec (.queueOpen r) s = .next s.wait) ∧
  (∀ s : State, s.bootDone = true → s.link.mbxDead = false →
    1024 < (s.regF aMbxIdx 31 0 + 2 ^ 32 - s.regF aMbxIdx 63 32) % 2 ^ 32 →
    ∃ t, exec .mailboxPoll s = .next t ∧ t.regF aHstBoot 23 16 = 9 ∧ t.link.mbxDead = true ∧ t.link.mailbox = s.link.mailbox) ∧
  (∀ (s : State) (rd : Nat), s.bootDone = true → s.link.mbxDead = false → MailReady s → s.regF aMbxIdx 63 32 = rd →
    s.regF aMbxIdx 31 0 = (rd + 1) % 2 ^ 32 → s.link.mbxSeen = rd →
    Tab.getRun Config.blank s.link.mailbox (256 * (rd % 1024)) 256 = [1] ++ List.replicate 255 0 →
    ∃ t, exec .mailboxPoll s = .next t ∧ t.regF aMbxIdx 63 32 = s.regF aMbxIdx 31 0 ∧ Mailed s t (mailSlot 0x8001 0 0 (toBytes 8 (Config.holver 3 0))))

/-- R24, R26, R30, R35-R37: SPDM requests, DOE aborts, configuration requests and link keys. The codes of the messages are the DMTF's (log 64). -/
def Obligations.Attestation : Prop :=
  let rows : List SpdmRow :=
    [ { instr := .getVersion, admitted := fun _ _ => True, code := 0x04, after := fun _ _ => { version := true, algorithms := false, sessions := [] } },
      { instr := .getCapabilities, admitted := fun c _ => c.version = true, code := 0x61 },
      { instr := .negotiateAlgorithms, admitted := fun c _ => c.version = true, code := 0x63, after := fun c _ => { c with algorithms := true } },
      { instr := .getDigests, admitted := fun c _ => c.version = true ∧ c.algorithms = true, code := 0x01 },
      { instr := .getCertificate, admitted := fun c r => c.version = true ∧ c.algorithms = true ∧ recN r.payload 2 1 % 16 = 0 ∧ recN r.payload 4 2 < certChain.length, code := 0x02 },
      { instr := .challenge, admitted := fun c r => c.version = true ∧ c.algorithms = true ∧ recN r.payload 2 1 = 0, code := 0x03 },
      { instr := .getMeasurements, admitted := fun c r => c.version = true ∧ c.algorithms = true ∧ (recN r.payload 3 1 ≤ 8 ∨ recN r.payload 3 1 = 255), code := 0x60 },
      { instr := .finish, admitted := fun c r => c.version = true ∧ c.algorithms = true ∧ c.holds r false, code := 0x65,
        after := fun c r => { c with sessions := c.sessions.map (fun e => if some e.1 = r.session then (e.1, true) else e) } },
      { instr := .heartbeat, admitted := fun c r => c.holds r true, code := 0x68 },
      { instr := .keyUpdate, admitted := fun c r => c.holds r true, code := 0x69 },
      { instr := .endSession, admitted := fun c r => c.holds r true, code := 0x6C,
        after := fun c r => { c with sessions := c.sessions.filter (fun e => some e.1 != r.session) } } ]
  (∀ row ∈ rows, ∀ (s : State) (r : SpdmReq), s.fwxUp = true → spKnown r = true ∨ row.code = 0x04 → row.admitted (s.spdm r.mctp) r →
    ∃ t, exec (row.instr r) s = .next t ∧ Answered s t r row.code ∧ t.spdm r.mctp = row.after (s.spdm r.mctp) r ∧ t.spdm (!r.mctp) = s.spdm (!r.mctp)) ∧
  (∀ row ∈ rows, ∀ (s : State) (r : SpdmReq), s.fwxUp = false → exec (row.instr r) s = .next s) ∧
  (∀ (s : State) (r : SpdmReq), s.fwxUp = true → spKnown r = true → (s.spdm r.mctp).version = true → (s.spdm r.mctp).algorithms = true → (s.spdm r.mctp).sessions.length < 4 →
    ∃ t n, exec (.keyExchange r) s = .next t ∧ Answered s t r 0x64 ∧ (t.spdm r.mctp).sessions = (n, false) :: (s.spdm r.mctp).sessions) ∧
  (∀ (s : State) (r : SpdmReq), s.fwxUp = true → spKnown r = true → (s.spdm r.mctp).version = true → (s.spdm r.mctp).algorithms = true → 4 ≤ (s.spdm r.mctp).sessions.length →
    ∃ t, exec (.keyExchange r) s = .next t ∧ Answered s t r 0x7F ∧ t.spdm r.mctp = s.spdm r.mctp) ∧
  (∀ (s : State) (r : SpdmReq), s.fwxUp = true → ∃ t, exec (.spdmUnsupportedRequest r) s = .next t ∧ Answered s t r 0x7F ∧ t.link = s.link) ∧
  (∀ (s : State) (r : SpdmReq) (n : Nat), s.fwxUp = true → spKnown r = true → (s.spdm r.mctp).version = true → (s.spdm r.mctp).algorithms = true → recN r.payload 3 1 = n →
    1 ≤ n → n ≤ 8 → ∃ t p pre post, exec (.getMeasurements r) s = .next t ∧ t.outbox = .spdm r.mctp 0x60 p :: s.outbox ∧
      p = pre ++ digestBytes (Tab.get 0 s.link.meas (n - 1)) ++ post) ∧
  (∀ s : State, ∃ t, exec .doeAbort s = .next t ∧ t.outbox = .doeAbort :: s.outbox ∧ ∀ (r : SpdmReq), r.mctp = false → .challenge r ∉ t.agenda) ∧
  (∀ (s : State) (r : ConfigReq), s.fwxUp = false → ∃ t, exec (.configurationRequest r) s = .next t ∧ t = s.send .cfgRetry) ∧
  (∀ (s : State) (base : W64), s.fwxUp = true → ∃ t u v, exec (.configurationRequest (.setBar 0 base 24)) s = .next t ∧
    exec (.configurationRequest (.read 0x10)) t = .next u ∧ u.outbox = .cfgData 0x10 v :: s.outbox ∧ v.toNat % 2 ^ 24 = 0xC ∧
    v.toNat / 2 ^ 24 = base.toNat / 2 ^ 24) ∧
  (∀ row ∈ rows, row.code ≠ 0x04 → ∀ (s : State) (r : SpdmReq), s.fwxUp = true → spKnown r = false →
    ∃ t, exec (row.instr r) s = .next t ∧ Answered s t r 0x7F ∧ t.spdm r.mctp = s.spdm r.mctp) ∧
  (∀ (s : State) (r : SpdmReq), s.fwxUp = true → spKnown r = true → (s.spdm r.mctp).version = true →
    (∃ t p, exec (.getCapabilities r) s = .next t ∧ t.outbox = .spdm r.mctp 0x61 p :: s.outbox ∧ recN p 8 4 &&& 0x1A0D00 = 0 ∧
      recN p 8 4 &&& 0x62D6 = 0x62D6) ∧
    (∃ t p, exec (.negotiateAlgorithms r) s = .next t ∧ t.outbox = .spdm r.mctp 0x63 p :: s.outbox ∧ recN p 8 4 = 2 ∧ recN p 12 4 = 4 ∧
      recN p 38 2 = 0x10 ∧ recN p 42 2 = 2 ∧ recN p 50 2 = 1)) ∧
  (∀ (s : State) (n slot : Nat) (key : BitVec 256), ∃ t, exec (.ideKmRequest (.setKey n slot key)) s = .next t ∧
    (∀ i, Tab.get 0 t.link.ideKeys i = if i = slot ∧ (n, true) ∈ s.link.spdmDoe.sessions then key else Tab.get 0 s.link.ideKeys i) ∧
    { t with link := { t.link with ideKeys := s.link.ideKeys } } = s)

/-- R15, R17-R19, R21-R23, R161: power modes, the limiter's domains, thermal limits and the health registers. -/
def Obligations.PowerAndHealth : Prop :=
  (∀ (s : State) (v : W32), ∃ t, exec (.pwrModeWrite v) s = .next t ∧ t.regF aPwrMode 1 0 = v.toNat % 4 ∧ t.regF aPwrState 24 23 = s.regF aPwrState 24 23 ∧
    (v.toNat % 4 ≠ s.regF aPwrState 24 23 → t.power.pending = some (v.toNat % 4) ∧ .pwrModeChange ∈ t.agenda) ∧
    (v.toNat % 4 = s.regF aPwrState 24 23 → t.power.pending = none)) ∧
  (∀ (s : State) (m : Nat), s.power.pending = some m → m < 4 →
    ∃ t, exec .pwrModeChange s = .next t ∧ t.regF aPwrState 24 23 = m ∧ t.power.pending = none ∧ t.power.rate = s.power.rate) ∧
  (∀ (s : State) (d : PowerDomain) (w : Nat), s.rate (domainNum d) ≤ 2 ^ 20 → s.power.hot = true ∨ s.budget d < w →
    ∃ t, exec (.limiterLower { domain := d, watts := w }) s = .next t ∧ t.rate (domainNum d) = lowered (s.rate (domainNum d)) ∧
      (2 ^ 15 < s.rate (domainNum d) → t.regF aPwrState 22 22 = 1) ∧ (∀ k, k ≠ domainNum d → t.rate k = s.rate k)) ∧
  (∀ (s : State) (d : PowerDomain) (w : Nat), s.power.hot = false → w ≤ s.budget d → exec (.limiterLower { domain := d, watts := w }) s = .next s) ∧
  (∀ (s : State) (d : PowerDomain) (l : List Nat), s.power.hot = false → l.length = 10 → (∀ w ∈ l, 100 * w < 95 * s.budget d) →
    ∃ t, exec (.limiterRaise { domain := d, watts := l }) s = .next t ∧ t.rate (domainNum d) = min (2 ^ 20) (s.rate (domainNum d) + 2 ^ 15) ∧
      (∀ k, k ≠ domainNum d → t.rate k = s.rate k)) ∧
  (∀ (s : State) (d : PowerDomain) (l : List Nat), s.power.hot = true ∨ (∃ w ∈ l.take 10, 95 * s.budget d ≤ 100 * w) →
    exec (.limiterRaise { domain := d, watts := l }) s = .next s) ∧
  (∀ s : State, ∃ t, exec .currentTrip s = .next t ∧ t.rate 0 = s.rate 0 / 2 ∧ ∀ k, k ≠ 0 → t.rate k = s.rate k) ∧
  (∀ s : State, ∃ t, exec (.thermalThrottle true) s = .next t ∧ t.power.hot = true ∧ ∀ k, k < 4 → t.rate k = lowered (s.rate k)) ∧
  (∀ s : State, ∃ t, exec (.thermalThrottle false) s = .next t ∧ t.power.hot = false ∧ t.power.rate = s.power.rate ∧ t.regs = s.regs) ∧
  (∀ (s : State) (b : Bool), ∃ t, exec (.hbmHotRefresh b) s = .next t ∧ t.power.hotRefresh = b ∧ { t with power := s.power } = s) ∧
  (∀ s : State, ∃ t, exec .thermalTrip s = .next t ∧ t.power.stopped = true ∧ t.outbox = .thermalTrip :: s.outbox ∧ t.mem = s.mem) ∧
  (∀ (s : State) (h : HealthReading), ∃ t, exec (.healthRefresh h) s = .next t ∧
    (∀ i, i < s.hampers → i < 192 → t.regN (aHltDrift i) = (Tab.get 0 h.drift i).toNat) ∧
    (∀ i, i < 8 → t.regN (aHltTrend i) = (Tab.get 0 h.trend i).toNat) ∧ (∀ i, i < 38 → t.regN (aHltMargin i) = (Tab.get 0 h.margin i).toNat) ∧
    t.regN aHltEol = t.endOfLife ∧ t.power.history = (h :: s.power.history).take 2160 ∧
    (t.hampersLeft < 176 ∨ (∃ n ∈ t.stacksLeft, n < 28) → t.regF aHltEol 15 0 = 0) ∧
    (∀ i, i < s.hampers → i < 192 → 6000 < (Tab.get 0 h.drift i).toInt → i / 2 ∈ t.power.retireCreels ∧ t.regF aModUnits 31 31 = 1)) ∧
  (∀ (s : State) (c rate : Nat), c < s.regF aModMem 8 0 → ∃ t, exec (.ceThreshold c rate) s = .next t ∧ t.regN (aCeCh c) = min rate 0xFFFF ∧
    (1000 < rate → Tab.get false s.power.crossed c = false →
      bit (t.regN aMemErr) 3 = true ∧ c ∈ t.power.retireChannels ∧ t.regF aModUnits 31 31 = 1))

/-- R26, R27, R30, R56, R143: the host's reads and writes through BAR 2, its invalidations, and the answers to requests through the host window. -/
def Obligations.HostLinkEvents : Prop :=
  (∀ (s : State) (off n : Nat), s.memReady = true → s.link.d3hot = false → s.bar2Pa off + n ≤ s.memBytes → PlainRun s (s.bar2Pa off) n →
    ∃ t, exec (.hostBar2Read off n) s = .next t ∧ t = s.send (.hostRead false (s.run (s.bar2Pa off) n) (s.memPoison (s.bar2Pa off) n))) ∧
  (∀ (s : State) (off n : Nat), s.memReady = false ∨ s.link.d3hot = true →
    ∃ t, exec (.hostBar2Read off n) s = .next t ∧ t.outbox = .hostRead true [] false :: s.outbox ∧ t.mem = s.mem ∧ t.regs = s.regs) ∧
  (∀ (s : State) (off : Nat) (w : Bar2Req), s.memReady = true → s.link.d3hot = false → s.bar2Pa off + w.data.length ≤ s.memBytes →
    PlainRun s (s.bar2Pa off) w.data.length → bit (s.regN aFabReplay) 0 = false →
    (w.atom = none → ∃ t, exec (.hostBar2Write off w) s = .next t ∧ Holds s t (s.bar2Pa off) w.data ∧
      { t with mem := s.mem, poison := s.poison, resv := s.resv } = s ∧ (w.poisoned = true → w.data ≠ [] → t.memPoison (s.bar2Pa off) w.data.length = true)) ∧
    (∀ op, w.atom = some op → pcieHas op w.data.length = true → s.bar2Pa off % 128 + w.data.length ≤ 128 →
      s.memPoison (s.bar2Pa off) w.data.length = false →
      let f := atomicNew op (if w.data.length = 4 then 2 else 3) (s.peekN (s.bar2Pa off) w.data.length) (ofBytes w.data)
        (w.comparand.toNat % 2 ^ (8 * w.data.length))
      ∃ t, exec (.hostBar2Write off w) s = .next t ∧ Holds s t (s.bar2Pa off) (toBytes w.data.length f.1) ∧
        t.outbox = .hostRead false (s.run (s.bar2Pa off) w.data.length) false :: s.outbox)) ∧
  (∀ (s : State) (off : Nat) (w : Bar2Req), s.memReady = false → ∃ t, exec (.hostBar2Write off w) s = .next t ∧ t.mem = s.mem ∧ t.poison = s.poison ∧ t.regs = s.regs) ∧
  (∀ (s : State) (page : Nat), (∀ e ∈ s.remotes, usesPage page e.2 = false) →
    ∃ t, exec (.hostAtsInvalidate page) s = .next t ∧ (∀ f, (page, f) ∉ t.link.atc) ∧ t.outbox = .atsDone page :: s.outbox) ∧
  (∀ (s : State) (page : Nat), (∃ e ∈ s.remotes, usesPage page e.2 = true) →
    ∃ t, exec (.hostAtsInvalidate page) s = .next t ∧ t.again = true ∧ (∀ f, (page, f) ∉ t.link.atc) ∧ t.outbox = s.outbox) ∧
  (∀ (s : State) (id op : Nat) (r : RemoteReq) (p : RemotePart), Dict.find? s.remotes id = some r → r.port = 255 → r.reader = some (.engine op) →
    r.parts = [p] → r.held = false → r.ats = false → r.gone = false → (∃ t, exec (.hostWindowTimeout id) s = .next t ∧ Dict.find? t.remotes id = none ∧ t.mem = s.mem ∧
        t.arrived = { reader := .engine op, kind := r.kind, va := p.va.toNat, size := p.len, bytes := [], poisoned := false, cause := some .fabricTimeout } :: s.arrived) ∧
      (∀ (l : List Byte) (bad : Bool), r.kind = .read → p.pos = 0 → l.length = p.len →
        ∃ t, exec (.hostWindowCompletion id (if bad then .poisoned else .ok) l) s = .next t ∧ Dict.find? t.remotes id = none ∧
          t.arrived = { reader := .engine op, kind := .read, va := p.va.toNat, size := p.len, bytes := l, poisoned := bad, cause := none } :: s.arrived) ∧
      (∀ (l : List Byte) (abort : Bool), ∃ t, exec (.hostWindowCompletion id (if abort then .abort else .unsupported) l) s = .next t ∧
        t.arrived = { reader := .engine op, kind := r.kind, va := p.va.toNat, size := p.len, bytes := [], poisoned := false, cause := some .fabricAccess } :: s.arrived))

/-- R42, R45, R46, R49-R52, R54, R57-R60: what arrives over the fabric and over Ethernet, and what becomes of ports, copies and queue pairs. -/
def Obligations.FabricRequests : Prop :=
  (∀ (s : State) (r : FabReq), s.exportPa r.key.toNat r.off .read = none →
    ∃ t, exec (.remoteRead r) s = .next t ∧ t = s.send (.fabReply r.id .refused [] 0)) ∧
  (∀ (s : State) (r : FabReq) (pa : Nat), s.exportPa r.key.toNat r.off .read = some pa → PlainRun s pa r.size → s.memPoison pa r.size = false →
    r.wantsCopy = false → ∃ t, exec (.remoteRead r) s = .next t ∧ t = s.send (.fabReply r.id .ok (s.run pa r.size) 0)) ∧
  (∀ (s : State) (r : FabReq) (pa : Nat), s.exportPa r.key.toNat r.off .read = some pa → 0 < r.size → PlainRun s pa r.size → s.memPoison pa r.size = false →
    r.wantsCopy = true → bit (s.regN (aExport (r.off / 2 ^ 30))) 3 = true → s.fabric.snoop.length < 4096 → s.l1Dirty (pa / 128) = false →
    ∃ t e, exec (.remoteRead r) s = .next t ∧ t.outbox = .fabReply r.id .granted (s.run pa r.size) 0 :: s.outbox ∧
      Dict.find? t.fabric.snoop (pa / 128) = some e ∧ e.holders = [r.src] ∧ t.mem = s.mem) ∧
  (∀ (s : State) (r : FabReq) (k : AccessKind), (∀ e ∈ s.fabric.accepted, ¬(e.1 = r.src ∧ e.2.1 = r.id)) →
    s.admitted r k = s.exportPa r.key.toNat r.off k) ∧
  (∀ (s : State) (r : FabReq), s.admitted r .write = none →
    ∃ t, exec (.remoteWrite r) s = .next t ∧ t = s.send (.fabReply r.id .refused [] 0)) ∧
  (∀ (s : State) (r : FabReq) (pa : Nat), s.admitted r .write = some pa → 0 < r.data.length → PlainRun s pa r.data.length →
    bit (s.regN aFabReplay) 0 = false →
    ∃ t, exec (.remoteWrite r) s = .next t ∧ t.outbox = .fabReply r.id .ok [] 0 :: s.outbox ∧
      (∀ i, i < r.data.length → t.byte (pa + i) = if r.byteMask.testBit i then r.data.getD i 0 else s.byte (pa + i)) ∧
      (∀ a, a < pa ∨ pa + r.data.length ≤ a → t.byte a = s.byte a)) ∧
  (∀ (s : State) (r : FabReq), s.admitted r .atomic = none →
    ∃ t, exec (.remoteAtomic r) s = .next t ∧ t = s.send (.fabReply r.id .refused [] 0)) ∧
  (∀ (s : State) (r : FabReq) (pa : Nat), s.admitted r .atomic = some pa → 0 < r.size → pa % 128 + r.size ≤ 128 → PlainRun s pa r.size →
    s.memPoison pa r.size = false → bit (s.regN aFabReplay) 0 = false →
    let f := atomicNew r.op r.ty.toNat (s.peekN pa r.size) (ofBytes r.data) (r.comparand.toNat % 2 ^ (8 * r.size))
    ∃ t, exec (.remoteAtomic r) s = .next t ∧ t.outbox = .fabReply r.id .ok (s.run pa r.size) f.2 :: s.outbox ∧ Holds s t pa (toBytes r.size f.1)) ∧
  (∀ (s : State) (r : RdmaReq), r.target = s.identity → r.pa + r.data.length ≤ s.memBytes → PlainRun s r.pa r.data.length →
    bit (s.regN aFabReplay) 0 = false →
    ∃ t, exec (.rdmaWriteArrival r) s = .next t ∧ t.outbox = .rdmaReply [] :: s.outbox ∧ Holds s t r.pa r.data) ∧
  (∀ (s : State) (r : RdmaReq), r.target = s.identity → r.pa + r.size ≤ s.memBytes → PlainRun s r.pa r.size →
    ∃ t, exec (.rdmaReadArrival r) s = .next t ∧ t = s.send (.rdmaReply (s.run r.pa r.size))) ∧
  (∀ (s : State) (r : RdmaResp) (id : Nat) (q : RemoteReq), s.rdmaOf r.queue r.number r.chunk = some (id, q) → q.kind = .read →
    ∃ t a, exec (.rdmaResponseArrival r) s = .next t ∧ Dict.find? t.remotes id = none ∧ t.arrived = a :: s.arrived ∧
      a.reader = .chunk r.queue r.number r.chunk ∧ a.bytes = r.data ∧ a.cause = none ∧ .bteChunk r.queue r.number r.chunk ∈ t.agenda)

/-- R45, R46, R49-R51, R54, R59: responses, lost responses, back-invalidations, ports and queue pairs. -/
def Obligations.FabricLinks : Prop :=
  (∀ (s : State) (id op : Nat) (r : RemoteReq) (p : RemotePart) (l : List Byte) (f : BitVec 5), EngineAsks s id op r p → r.port < 36 → l.length = p.len →
    (∃ t, exec (.fabricResponse id .ok l f) s = .next t ∧ EngineAnswered s t id op r p l false none) ∧
    (∃ t, exec (.fabricResponse id .poisoned l f) s = .next t ∧ EngineAnswered s t id op r p l true none) ∧
    (∃ t, exec (.fabricResponse id .refused l f) s = .next t ∧ EngineAnswered s t id op r p [] false (some .fabricAccess)) ∧
    (∃ t, exec (.fabricResponse id .granted l f) s = .next t ∧ EngineAnswered s t id op r p l false none ∧
      (s.regF aFabCfg 9 9 = 1 → s.regF aFabCfg 13 10 ≠ 0 → r.ext = true → (8 * r.board + r.device, r.off / 128) ∈ t.fabric.copies)) ∧
    (∃ t, exec (.fabricTimeout id) s = .next t ∧ EngineAnswered s t id op r p [] false (some .fabricTimeout) ∧ bit (t.regN aFabErr) 1 = true)) ∧
  (∀ (s : State) (home line : Nat), ∃ t, exec (.backInvalidate home line) s = .next t ∧ (home, line) ∉ t.fabric.copies ∧
    (∀ c ∈ s.fabric.copies, c ≠ (home, line) → c ∈ t.fabric.copies) ∧ t.outbox = .biAck home line :: s.outbox) ∧
  (∀ (s : State) (line h : Nat) (e : Snoop), Dict.find? s.fabric.snoop line = some e → h ∈ e.awaiting →
    (∃ t, exec (.biAcknowledgement line h) s = .next t ∧ HolderLeft s t line h e ∧ t.regs = s.regs) ∧
    (∃ t, exec (.biTimeout line h) s = .next t ∧ HolderLeft s t line h e ∧ bit (t.regN aFabErr) 2 = true)) ∧
  (∀ (s : State) (q : Nat), q < 36 → s.regF (aPortStat q) 1 0 = 2 →
    ∃ t, exec (.portNarrow q) s = .next t ∧ t.regF (aPortStat q) 1 0 = 1 ∧ bit (t.regN aFabErr) 3 = true ∧ t.reg aModUnits = s.reg aModUnits) ∧
  (∀ (s : State) (q : Nat), q < 36 → s.portUp q = true →
    ∃ t, exec (.portDown q) s = .next t ∧ t.portUp q = false ∧ bit (t.regN aFabErr) 3 = true ∧ t.remotes = s.remotes ∧
      (s.portBusy q = true → q ∈ t.fabric.held) ∧ (s.portBusy q = false → t.fabric.held = s.fabric.held) ∧
      ((∀ p, p < 36 → p ≠ q → s.portUp p = false) → t.fabric.copies = [])) ∧
  (∀ (s : State) (q p id : Nat) (r : RemoteReq), q ∈ s.fabric.held → s.remotes = [(id, r)] → r.port = q → r.held = true → s.route (r.off / 128) = some p →
    p < 36 → (∀ k ∈ s.fabric.held, k = q ∨ k ≠ p) →
    ∃ t, exec (.portRemap q) s = .next t ∧ q ∉ t.fabric.held ∧ t.remotes = [(id, { r with port := p, held := false, ext := s.regF (aPortStat p) 3 3 == 1 })] ∧
      ∃ c, t.outbox = .fabReq id r.kind p r.board r.device r.off r.size r.key r.data r.byteMask r.atom r.bad c :: s.outbox) ∧
  (∀ (s : State) (home : Nat), ∃ t, exec (.homePathLoss home) s = .next t ∧ ∀ c, c ∈ t.fabric.copies ↔ c ∈ s.fabric.copies ∧ c.1 ≠ home) ∧
  (∀ (s : State) (q : Nat) (ext : Bool), q < 36 → ∃ t, exec (.ualinkPortTraining q ext) s = .next t ∧ t.regF (aPortStat q) 1 0 = 2 ∧
    t.regF (aPortStat q) 3 3 = (if ext then 1 else 0) ∧ ∀ a, a ≠ aPortStat q → t.reg a = s.reg a) ∧
  (∀ (s : State) (pod conn : Nat), (∀ e ∈ s.remotes, e.2.port = 253 → ∃ q n k, e.2.reader = some (.chunk q n k)) →
    ∃ t u, exec (.qpRetryLimit pod conn) s = .next t ∧ .upcallPost u ∈ t.agenda ∧ u.kind = 5 ∧ u.arg0 = BitVec.ofNat 64 pod ∧ u.arg1 = BitVec.ofNat 64 conn ∧
      (∀ e ∈ t.remotes, ¬(e.2.port = 253 ∧ e.2.board = pod ∧ e.2.device = conn)) ∧ t.mem = s.mem) ∧
  (∀ (s : State) (conn old : Nat), Tab.get 0 s.fabric.rate conn = 2 ^ 20 - old → old ≤ 2 ^ 20 →
    (∃ t, exec (.congestionNotification conn) s = .next t ∧ Tab.get 0 t.fabric.rate conn = 2 ^ 20 - old / 2 ∧
      ∀ k, k ≠ conn → Tab.get 0 t.fabric.rate k = Tab.get 0 s.fabric.rate k) ∧
    (∃ t, exec (.qpRateRecover conn) s = .next t ∧ Tab.get 0 t.fabric.rate conn = 2 ^ 20 - min (2 ^ 20) (old + 2 ^ 16) ∧
      ∀ k, k ≠ conn → Tab.get 0 t.fabric.rate k = Tab.get 0 s.fabric.rate k))

/-- R4, R61-R63, R71, R72, R453: the accesses of Yoke harts, the registers whose writes act, and stores and loads of registers. -/
def Obligations.YokeRegisters : Prop :=
  (∀ (s : State) (a : YokeAccess), YokeHere s a → 0 < a.size →
    (a.kind = .load → ∃ t, exec (.yokeMemoryAccess a) s = .next t ∧
      t = s.send (.yokeResult a.hart (BitVec.ofNat 64 (s.peekN a.pa a.size)) (s.memPoison a.pa a.size))) ∧
    (a.kind = .store → ∃ t, exec (.yokeMemoryAccess a) s = .next t ∧ Holds s t a.pa (toBytes a.size a.value.toNat) ∧ t.outbox = s.outbox) ∧
    (∀ op sg, a.kind = .amo op sg → s.memPoison a.pa a.size = false →
      let m := 2 ^ (8 * a.size)
      let f := atomicNew op (amoType a.size sg) (s.peekN a.pa a.size) (a.value.toNat % m) (a.comparand.toNat % m)
      ∃ t, exec (.yokeMemoryAccess a) s = .next t ∧ Holds s t a.pa (toBytes a.size f.1) ∧
        t.outbox = .yokeResult a.hart (BitVec.ofNat 64 (s.peekN a.pa a.size)) false :: s.outbox) ∧
    (a.kind = .lr → ∃ t, exec (.yokeMemoryAccess a) s = .next t ∧ (a.hart, a.pa, a.size) ∈ t.resv ∧ t.mem = s.mem ∧
      t.outbox = .yokeResult a.hart (BitVec.ofNat 64 (s.peekN a.pa a.size)) (s.memPoison a.pa a.size) :: s.outbox) ∧
    (a.kind = .sc → ∃ t, exec (.yokeMemoryAccess a) s = .next t ∧ (∀ r ∈ t.resv, r.1 ≠ a.hart) ∧
      ((t.outbox = .yokeResult a.hart 1 false :: s.outbox ∧ t.mem = s.mem) ∨
        ((a.hart, a.pa, a.size) ∈ s.resv ∧ t.outbox = .yokeResult a.hart 0 false :: s.outbox ∧ Holds s t a.pa (toBytes a.size a.value.toNat))))) ∧
  (∀ (s : State) (a : YokeAccess) (sys : Bool), a.kind = .fence sys → s.yokeWaits a = false → exec (.yokeMemoryAccess a) s = .next s) ∧
  (∀ (s : State) (a : YokeAccess), a.kind = .fence true → (∃ e ∈ s.remotes, e.2.reader = some (.yoke a.hart)) →
    ∃ t, exec (.yokeMemoryAccess a) s = .next t ∧ t = s.wait) ∧
  (∀ (s : State) (k : BitVec 3), ∃ t, exec (.yokSvnCommit k) s = .next t ∧ ∀ i, Tab.get 0 t.link.fuseSvn i =
    if i = k.toNat ∧ 1 ≤ i ∧ i ≤ 4 then max (Tab.get 0 s.link.fuseSvn i) (Tab.get 0 s.link.runningSvn i) else Tab.get 0 s.link.fuseSvn i) ∧
  (∀ s t : State, exec .moduleReset s = .next t ∨ exec .flr s = .next t → t.link.fuseSvn = s.link.fuseSvn) ∧
  (∀ (s : State) (h : Nat) (k : BitVec 3), ∃ t, exec (.yokMeasExtend h k) s = .next t ∧ ∀ i, Tab.get 0 t.link.meas i =
    if i = k.toNat ∧ 6 ≤ i then sha256 (digestBytes (Tab.get 0 s.link.meas i) ++
      (List.range 4).flatMap (fun j => toBytes 8 (Tab.get 0 s.measData (4 * h + j)).toNat)) else Tab.get 0 s.link.meas i) ∧
  (∀ (s : State) (v : W64) (base : Nat), s.regF aUpcBase 63 6 * 64 = base → bit v.toNat 5 = true →
    ∃ t, exec (.yokRingEnable false v) s = .next t ∧ t.regF aUpcCfg 4 0 = bits v.toNat 4 0 ∧
      (6 ≤ bits v.toNat 4 0 → bits v.toNat 4 0 ≤ 16 → base % (64 * 2 ^ bits v.toNat 4 0) = 0 → t.regF aUpcCfg 5 5 = 1 ∧ t.reg aYokErr = s.reg aYokErr) ∧
      (bits v.toNat 4 0 < 6 ∨ 16 < bits v.toNat 4 0 ∨ base % (64 * 2 ^ bits v.toNat 4 0) ≠ 0 → t.regF aUpcCfg 5 5 = 0 ∧ bit (t.regN aYokErr) 2 = true)) ∧
  (∀ (s : State) (h i : Nat) (v : W64), i < 64 → s.commandPending h (aSwin i) = false →
    ∃ t, exec (.registerWrite h (aSwin i) 8 v) s = .next t ∧ t.reg (aSwin i) = v &&& 0x1FFFFFFFFE1FFFF ∧ (∀ a, a ≠ aSwin i → t.reg a = s.reg a) ∧ t.mem = s.mem) ∧
  (∀ (s : State) (h : Nat) (v : W64), s.commandPending h aYokErr = false → s.regN aYokErr < 8 →
    ∃ t, exec (.registerWrite h aYokErr 8 v) s = .next t ∧ (∀ i, i < 3 → bit (t.regN aYokErr) i = (bit (s.regN aYokErr) i && !v.getLsbD i)) ∧
      (∀ a, a ≠ aYokErr → t.reg a = s.reg a)) ∧
  (∀ (s : State) (h : Nat) (v : W64), s.commandPending h aYokErr = false →
    ∃ t, exec (.registerWrite h aYokErr 2 v) s = .next t ∧ t = s.send (.yokeFault h true)) ∧
  (∀ s : State, ∃ t h, exec (.registerReadClear aSmpDrop 4) s = .next t ∧ t.regF aSmpDrop 31 0 = 0 ∧
    t.outbox = .yokeResult h (BitVec.ofNat 64 (s.regF aSmpDrop 31 0)) false :: s.outbox ∧ ∀ a, a ≠ aSmpDrop → t.reg a = s.reg a)

/-- R64-R66, R69, R259-R262: records go to Holver's ring, and Holver's answers to upcalls, faults and traps take effect. -/
def Obligations.UpcallsAndTraps : Prop :=
  (∀ (s : State) (u : UpcallReq) (wr log2 : Nat), u.waiter = none → u.trap = none → u.kind ≠ 1 → u.kind ≠ 3 → bit (s.regN aUpcCfg) 5 = true →
    s.regF aUpcWr 31 0 = wr → s.regF aUpcCfg 4 0 = log2 → (wr + 2 ^ 32 - s.regF aUpcRd 31 0) % 2 ^ 32 < 2 ^ log2 →
    PlainRun s (s.regF aUpcBase 63 6 * 64 + 64 * (wr % 2 ^ log2)) 64 →
    ∃ t, exec (.upcallPost u) s = .next t ∧ Holds s t (s.regF aUpcBase 63 6 * 64 + 64 * (wr % 2 ^ log2)) (withLap (upcallRecord u) 7 wr log2) ∧
      t.regF aUpcWr 31 0 = (wr + 1) % 2 ^ 32 ∧ ∀ h, h < 16 → bit (s.regF aUpcCfg 31 16) h = true → Tab.get false t.seip h = true) ∧
  (∀ (s : State) (u : UpcallReq), u.waiter = none → u.kind ≠ 1 → u.kind ≠ 3 → bit (s.regN aUpcCfg) 5 = false →
    ∃ t, exec (.upcallPost u) s = .next t ∧ t = s.push [.upcallPost u]) ∧
  (∀ (s : State) (i : W32), Dict.find? s.upcalls i.toNat = none →
    ∃ t, exec (.yokUpcDone i) s = .next t ∧ bit (t.regN aYokErr) 0 = true ∧ t.coils = s.coils ∧ t.mem = s.mem) ∧
  (∀ (s : State) (i : W32) (u : UpcallReq) (x : Issuer) (j : Option Nat) (d : BitVec 6) (slot : Nat), Dict.find? s.upcalls i.toNat = some u →
    u.waiter = some x.id → s.issuerAt x.id = some x → x.path.park = .upcall j d → x.coil.residency = .resident →
    slot = s.regF aUpcBase 63 6 * 64 + 64 * (i.toNat % 2 ^ s.regF aUpcCfg 4 0) → s.inCarve slot = false →
    ∃ t y, exec (.yokUpcDone i) s = .next t ∧ t.issuerAt x.id = some y ∧ y.path.park = .running ∧ y.path.pc = x.path.pc + 8 ∧
      y.path.scc = zncv (s.peekN (slot + 28) 4 == 0) false false false ∧ (d ≠ 0 → y.sAt d.toNat = BitVec.ofNat 64 (s.peekN (slot + 32) 8)) ∧
      Dict.find? t.upcalls i.toNat = none ∧ t.mem = (s.l1Acquire x.hamper).mem) ∧
  (∀ (s : State) (i : W32) (deny : Bool), Dict.find? s.faults i.toNat = none →
    ∃ t, exec (.yokFltResume i deny) s = .next t ∧ bit (t.regN aYokErr) 1 = true ∧ t.coils = s.coils) ∧
  (∀ (s : State) (i : W32) (f : FaultRec) (x : Issuer) (lanes : Mask) (stream : Nat) (addrs : Tab W64), Dict.find? s.faults i.toNat = some f →
    f.waiters = [.path x.id lanes] → s.issuerAt x.id = some x → x.coil.residency = .resident →
    x.path.park = .fault [(i.toNat, lanes)] false 0 stream addrs →
    ∃ t y, exec (.yokFltResume i false) s = .next t ∧ t.issuerAt x.id = some y ∧ y.path = { x.path with park := .running } ∧
      Dict.find? t.faults i.toNat = none ∧ t.mem = (s.l1Acquire x.hamper).mem) ∧
  (∀ (s : State) (x : Issuer) (i : W32) (info : TrapInfo), TrapWaits s x i info → info.stream = 0 → info.deferred = false → ¬ ofSeveral info.cause →
    (∃ t, exec (.fwxTrapRetry i) s = .next t ∧ TrapAnswered t x i x.path.pc x.path.only) ∧
    (∃ t, exec (.fwxTrapSkip i) s = .next t ∧ TrapAnswered t x i (x.path.pc + (if isSx (info.insn.toNat % 2 ^ 32) then 8 else 4)) x.path.only)) ∧
  (∀ (s : State) (x : Issuer) (i : W32) (info : TrapInfo) (r : Running), TrapWaits s x i info → info.stream = 1 → info.deferred = false →
    ¬ ofSeveral info.cause → info.memory = true → x.strand.running = some r → r.course.path = x.id.path →
    (∃ t, exec (.fwxTrapRetry i) s = .next t ∧ TrapAnswered t x i x.path.pc (some (info.active &&& ~~~info.performed))) ∧
    (∃ t, exec (.fwxTrapRetryOthers i) s = .next t ∧
      TrapAnswered t x i x.path.pc (some (info.active &&& ~~~info.performed &&& ~~~info.laneMask)))) ∧
  (∀ (s : State) (x : Issuer) (i : W32) (info : TrapInfo), TrapWaits s x i info → x.coil.residency = .resident → x.bolt.killed = none →
    (∀ e ∈ s.coils, e.2.bolt = x.coil.bolt → e.1 = x.id.coil) →
    ∃ t c b, exec (.fwxTrapKill i) s = .next t ∧ t.coil? x.id.coil = some c ∧ c.residency = .stopping 5 ∧ .coilSave x.id.coil ∈ t.agenda ∧
      Dict.find? t.bolts x.coil.bolt = some b ∧ b.killed = some info.cause ∧ t.regF aTrapCmd 41 40 = 0) ∧
  (∀ (s : State) (x : Issuer) (i : W32) (info : TrapInfo), TrapWaits s x i info → ofSeveral info.cause →
    ∃ t, exec (.fwxTrapRetry i) s = .next t ∧ t.regF aTrapCmd 41 40 = 2 ∧ t.coils = s.coils) ∧
  (∀ (s : State) (i : W32), Dict.find? s.traps i.toNat = none → ∃ t, exec (.fwxTrapSkip i) s = .next t ∧ t.regF aTrapCmd 41 40 = 1 ∧ t.coils = s.coils)

/-- R83-R93: the packets of a command stream, read when they execute or ahead of it; after a FETCH_FENCE nothing is read ahead; `PacketAt` reads a packet's words, `packetDone` issues it, `queueError` is R94. -/
def Obligations.Packets : Prop :=
  (∀ (s : State) (q n : Nat) (c : CmdQueue), s.queue? q = some c → c.frames = [] → 1 ≤ n → n ≤ 8 → PlainRun s (s.shadowAt q) 64 →
    ∃ s1 : State, s.packetDone q n = (s1.rdMirror q).kick q 600 ∧ s1.qRd q = (s.qRd q + n) % 2 ^ 32 ∧
      ∃ l, s1.queue? q = some { c with executed := c.executed + 1, begun := false, words := [], mirrorDue := true, ahead := l }) ∧
  (∀ (s : State) (q code : Nat) (pkt : Bool), q < 4096 → bit ((s.queueError q code pkt).regN (aQrcErr (q / 64))) (q % 64) = true) ∧
  (∀ (s s1 : State) (q : Nat) (c : CmdQueue) (l : List Nat), PacketAt s s1 q 0 c l →
    ∃ t, exec (.nopPacket q) s = .next t ∧ t = (s1.began q l).packetDone q l.length) ∧
  (∀ (s s1 : State) (q w a : Nat) (c : CmdQueue), PacketAt s s1 q 1 c [w, a] → bits w 63 48 = 0 → bits w 31 18 = 0 → a % 64 = 0 →
    (bit w 16 = true → bit (s1.qCtl q) 4 = true) →
    ∃ t, exec (.launch q) s = .next t ∧ .launchAccept q ∈ t.agenda ∧ t.queue? q = some { c with begun := true, words := [w, a], launch := some (BitVec.ofNat 64 (a + if bit w 17 then loopIndex c.frames * bits w 47 32 * 64 else 0), bit w 16) }) ∧
  (∀ (s s1 : State) (q w a : Nat) (c : CmdQueue), PacketAt s s1 q 1 c [w, a] → bits w 63 48 = 0 → bits w 31 18 = 0 → a % 64 = 0 →
    bit w 16 = true → bit (s1.qCtl q) 4 = false → ∃ t, exec (.launch q) s = .next t ∧ t = (s1.began q [w, a]).queueError q 11 true) ∧
  (∀ (s s1 : State) (q w a : Nat) (c : CmdQueue), PacketAt s s1 q 2 c [w, a] → bits w 63 36 = 0 → bits w 35 16 ≠ 0 → a % 8 = 0 →
    ∃ t, exec (.indirect q) s = .next t ∧
      (2 ≤ depthOf c.frames → t = (s1.began q [w, a]).queueError q 6 true) ∧
      (depthOf c.frames < 2 → ∃ s2 : State, t = s2.kick q 600 ∧ s2.mem = s1.mem ∧ s2.queue? q = some
        { c with frames := .buffer (BitVec.ofNat 64 a) (bits w 35 16) 0 :: c.frames, executed := c.executed + 1, begun := false, words := [] })) ∧
  (∀ (s s1 s2 : State) (q w a r v : Nat) (c : CmdQueue), PacketAt s s1 q 3 c [w, a, r] → bits w 63 32 = 0 → bits w 23 19 = 0 → bits w 18 16 ≤ 5 →
    bits w 31 24 ≠ 0 → a % 8 = 0 → (s1.began q [w, a, r]).queueRead q a true [.predicate q] = (some v, s2) →
    ∃ t, exec (.predicate q) s = .next t ∧ t =
      (if [v == r, v != r, decide (v < r), decide (r ≤ v), v &&& r != 0, v &&& r == 0].getD (bits w 18 16) false then s2
        else s2.updQueue q (fun c => { c with skip := bits w 31 24 })).packetDone q 3) ∧
  (∀ (s s1 : State) (q w : Nat) (c : CmdQueue), PacketAt s s1 q 4 c [w] → bits w 63 45 = 0 → 1 ≤ bits w 44 32 → bits w 44 32 ≤ 4096 →
    bits w 31 16 ≠ 0 → c.frames = [] →
    ∃ t s2 : State, exec (.loop q) s = .next t ∧ t = s2.kick q 600 ∧ s2.mem = s1.mem ∧ s2.queue? q = some
      { c with frames := [.loop (BitVec.ofNat 64 ((s1.qRd q + 1) % 2 ^ 32)) (bits w 44 32) (bits w 31 16) 0 0 true], executed := c.executed + 1, begun := false, words := [] }) ∧
  (∀ (s s1 s2 : State) (q w a r v : Nat) (c c1 : CmdQueue), PacketAt s s1 q 5 c [w, a, r] → bits w 63 18 = 0 → bits w 17 16 ≠ 3 → a % 8 = 0 →
    (s1.began q [w, a, r]).queueRead q a true [.waitPacket q] = (some v, s2) → s2.queue? q = some c1 →
    ∃ t, exec (.waitPacket q) s = .next t ∧
      (r ≤ v → t = (s2.updQueue q (fun c => { c with wait := none })).packetDone q 3) ∧
      (v < r → .waitPacketPoll q ∈ t.agenda ∧ t.mem = s2.mem ∧
        t.queue? q = some { c1 with wait := some (BitVec.ofNat 64 v, s2.scanMin), worker := false, executed := 0 })) ∧
  (∀ (s s2 : State) (q w a r v i : Nat) (old : W64) (c c1 : CmdQueue), s.queue? q = some c → c.wait = some (old, i) → c.waitingFault = false →
    s.halted = false → c.words = [w, a, r] → s.queueRead q a true [.waitPacketPoll q] = (some v, s2) → s2.queue? q = some c1 →
    ∃ t, exec (.waitPacketPoll q) s = .next t ∧
      (r ≤ v → t = ((s2.updQueue q (fun c => { c with wait := none })).packetDone q 3).wantWorker) ∧
      (v < r → .waitPacketPoll q ∈ t.agenda ∧ t.mem = s2.mem ∧ ∃ c2, t.queue? q = some c2 ∧ c2.worker = false ∧ c2.wait = some (BitVec.ofNat 64 v,
        if old.toNat ≠ v ∨ s2.qHot q = true then s2.scanMin else min (2 * i) (s2.scanMin * 2 ^ s2.regF aQrcCfg 23 20)))) ∧
  (∀ (s s1 s2 : State) (q w a v pa : Nat) (c : CmdQueue), PacketAt s s1 q 6 c [w, a, v] → bits w 63 32 = 0 → bit w 19 = false → bits w 17 16 ≠ 3 →
    (bit w 20 = true → 2 ≤ bits w 31 21) → a % 8 = 0 → v < 2 ^ 64 → (bit w 18 = true → ∀ b ∈ s1.bolts, b.2.queue ≠ q) →
    (s1.began q [w, a, v]).placeWrites (s.qWho q) [{ kind := .atomic, va := a, size := 8, watch := false, pcieAtomic := false }] = (.ok [.mem pa], s2) →
    (s1.began q [w, a, v]).qWho q = s.qWho q → pa % 8 = 0 → PlainRun s2 pa 8 → s2.memPoison pa 8 = false →
    ∃ t s3 : State, exec (.signal q) s = .next t ∧ t = s3.packetDone q 3 ∧ Holds s2 s3 pa (toBytes 8 (max (s2.peekN pa 8) v)) ∧
      s3.outbox = (if bit w 20 = true ∧ s2.link.msixEnable = true then [.msix (bits w 31 21)] else []) ++ s2.outbox) ∧
  (∀ (s s1 : State) (q w : Nat) (c : CmdQueue), PacketAt s s1 q 7 c [w] → bits w 63 12 = 0 →
    ∃ t s2 : State, exec (.fetchFence q) s = .next t ∧ t = s2.packetDone q 1 ∧ (∀ a ∈ s2.arrived, a.reader ≠ .queue q) ∧ s2.mem = s1.mem ∧
      ∃ c2, s2.queue? q = some c2 ∧ c2.ahead = [])

/-- R76, R79-R82, R86, R97, R99, R100, R105: the scanner, the packet workers, launches, and the opening and closing of a queue. -/
def Obligations.QueueEngine : Prop :=
  (∀ (s s1 : State) (q : Nat) (c : CmdQueue) (l : List Byte), s.queue? q = some c → s.qState q = 1 → bit (s.regN aQrcCfg) 12 = true → s.halted = false →
    c.userFault = false → s.readFor (s.qWho q) (.queue q) .current { kind := .read, va := s.qUhalf q, size := 64, watch := false, align := 1 } =
      (.data l false, s1) → s1.queue? q = some c → bit (s1.regN aFabReplay) 0 = false →
    let wr := recN l 0 4
    let n := (wr + 2 ^ 32 - s1.qRd q) % 2 ^ 32
    let d := (wr + 2 ^ 32 - s1.qLast q) % 2 ^ 32
    ∃ t, exec (.scannerPoll q) s = .next t ∧
      (bits (recN l 4 1) 7 3 ≠ 0 ∨ bits (recN l 5 1) 7 1 ≠ 0 ∨ recN l 6 2 ≠ 0 ∨ recN l 14 50 ≠ 0 →
        t = ((s1.queueError q 1 false).forget (.queue q)).push [.scannerPoll q]) ∧
      (bits (recN l 4 1) 7 3 = 0 → bits (recN l 5 1) 7 1 = 0 → recN l 6 2 = 0 → recN l 14 50 = 0 →
        (2 ^ s1.qLog2 q < n ∨ n < d → t = ((s1.queueError q 2 false).forget (.queue q)).push [.scannerPoll q]) ∧
        (n ≤ 2 ^ s1.qLog2 q → d ≤ n → PlainRun s1 (s1.shadowAt q) 64 → t.qLast q = wr ∧ .scannerPoll q ∈ t.agenda ∧ .workerAssign ∈ t.agenda ∧
          ∃ c1, t.queue? q = some c1 ∧ c1.prio = min (bits (recN l 4 1) 2 0) (bits (s1.qCtl q) 2 0) ∧ c1.paused = bit (recN l 5 1) 0 ∧
            c1.unposted = false ∧ c1.frames = c.frames ∧ c1.worker = c.worker))) ∧
  (∀ (s : State) (q : Nat) (c : CmdQueue), s.halted = false → (s.queues.filter (fun e => e.2.worker)).length < 8 → s.queue? q = some c → s.ready q c = true →
    (∀ e ∈ s.queues, s.ready e.1 e.2 = true → e.1 = q ∨ e.2.prio < c.prio) →
    ∃ t s1 : State, exec .workerAssign s = .next t ∧ t = (s1.kick q 600).wantWorker ∧ s1.lastServed = q ∧
      s1.queue? q = some { c with worker := true, executed := 0, starved := none }) ∧
  (∀ s : State, s.halted = true ∨ 8 ≤ (s.queues.filter (fun e => e.2.worker)).length ∨ (∀ e ∈ s.queues, s.ready e.1 e.2 = false) →
    exec .workerAssign s = .next s) ∧
  (∀ (s s1 : State) (q : Nat) (c : CmdQueue) (a : W64) (snap : Bool) (l : List Nat), s.queue? q = some c → c.launch = some (a, snap) → s.halted = false →
    c.waitingFault = false → s.queueReads q true [.launchAccept q] ((upFrom 0 8).map (fun j => (a.toNat + 8 * j) % 2 ^ 64)) = (some l, s1) →
    (parseDesc (l.flatMap (toBytes 8)) a = none → ∃ t, exec (.launchAccept q) s = .next t ∧ t = s1.queueError q 4 true) ∧
    (∀ d, parseDesc (l.flatMap (toBytes 8)) a = some d → d.cores = true → s1.fitsIdle d = false →
      ∃ t, exec (.launchAccept q) s = .next t ∧ t = s1.queueError q 10 true) ∧
    (∀ d n, parseDesc (l.flatMap (toBytes 8)) a = some d → d.cores = false → snap = false → Tab.get 0 s1.launches q = n →
      ∃ (t s2 : State) (b : Bolt), exec (.launchAccept q) s = .next t ∧ t = s2.packetDone q 2 ∧ Dict.find? s2.bolts (q * 2 ^ 52 + n % 2 ^ 52) = some b ∧
        b.queue = q ∧ b.asid = s1.qAsid q ∧ b.desc = d ∧ b.snap = none ∧ b.order = s1.boltOrder ∧ b.prio = c.prio ∧ b.nextCoil = 0 ∧
        b.killed = none ∧ Tab.get 0 s2.launches q = n + 1 ∧ s2.boltOrder = s1.boltOrder + 1 ∧ .coilPlace ∈ s2.agenda)) ∧
  (∀ (s : State) (q : Nat), s.qrcPending = true → exec (.qrcOpen q) s = .next s.wait ∧ exec (.qrcClose q) s = .next s.wait) ∧
  (∀ (s : State) (q l : Nat), s.qrcPending = false → q < s.regF aQrcCfg 44 32 → q < 4096 → s.qState q = 0 → s.qLog2 q = l → PlainRun s (s.shadowAt q) 64 →
    (10 ≤ l → l ≤ 24 → s.qRing q % (8 * 2 ^ l) = 0 → s.qUhalf q % 64 = 0 → bits (s.qCtl q) 7 5 = 0 → s.shF q 22 2 = 0 → s.shF q 37 3 = 0 →
      s.shF q 48 16 = 0 → s.asidLive (s.qAsid q) = true →
      ∃ (t s1 : State) (c : CmdQueue), exec (.qrcOpen q) s = .next t ∧ t = (s1.mirrors q).push [.scannerPoll q] ∧ s1.qState q = 1 ∧ s1.qRd q = 0 ∧ s1.qLast q = 0 ∧
        s1.shF q 21 1 = 0 ∧ s1.queue? q = some c ∧ c.worker = false ∧ c.frames = [] ∧ c.prio = 0 ∧ c.paused = false) ∧
    (l < 10 ∨ 24 < l ∨ s.shF q 22 2 ≠ 0 ∨ s.shF q 37 3 ≠ 0 ∨ s.shF q 48 16 ≠ 0 →
      ∃ t s1 : State, exec (.qrcOpen q) s = .next t ∧ t = s1.queueError q 4 false ∧ s1.mem = s.mem)) ∧
  (∀ (s : State) (q : Nat) (c : CmdQueue), s.qrcPending = false → q < s.regF aQrcCfg 44 32 → q < 4096 → s.qState q ≠ 0 → s.queue? q = some c →
    (c.launch = none → c.begun = false ∨ bits (c.words.headD 0) 7 0 = 5 →
      ∃ t, exec (.qrcClose q) s = .next t ∧ t.queue? q = none ∧ ∀ k, k ≠ q → t.queue? k = s.queue? k) ∧
    (c.launch ≠ none ∨ (c.begun = true ∧ bits (c.words.headD 0) 7 0 ≠ 5) →
      ∃ t, exec (.qrcClose q) s = .next t ∧ t.queue? q = some { c with closing := true } ∧ t.mem = s.mem))

/-- R81, R104, R105, R107, R130-R132, R135, R137-R139: placement, saving, restoring, pre-emption and watchdogs. Which site, slots and granules a
coil receives is the pair's choice (log 43). -/
def Obligations.Placement : Prop :=
  (∀ (s : State) (bid p h : Nat) (b : Bolt), s.halted = false → s.waiting.find? (fun e => s.fitsNow e.2) = some (p, .next bid) →
    Dict.find? s.bolts bid = some b → s.pickSite b.desc = some h →
    ∃ t c, exec .coilPlace s = .next t ∧ t.coil? s.placements = some c ∧ c.bolt = bid ∧ c.hamper = h ∧ c.residency = .resident ∧ c.insnUsed = 0 ∧
      c.x = b.nextCoil % b.desc.gridX ∧ c.y = b.nextCoil / b.desc.gridX % b.desc.gridY ∧ c.z = b.nextCoil / b.desc.gridX / b.desc.gridY ∧
      c.strands.length = b.desc.nstr ∧ c.bars = [] ∧ c.barArmed = [] ∧ c.acc = [] ∧ c.txn = none ∧
      Dict.find? t.bolts bid = some { b with nextCoil := b.nextCoil + 1 } ∧
      ∀ i, i < b.desc.nstr → ∃ st, c.strands[i]? = some st ∧ st.root.pc = b.desc.scode ∧ st.root.em = laneAll b.desc.lanes ∧
        st.live = laneAll b.desc.lanes ∧ st.kregs = [] ∧ st.vregs = [] ∧ st.queue = [] ∧ st.entries = [] ∧ st.cvt = 0 ∧ st.fpf = 0 ∧
        Tab.get 0 st.sregs 1 = b.desc.karg ∧ Tab.get 0 st.sregs 2 = BitVec.ofNat 64 c.x ∧ Tab.get 0 st.sregs 3 = BitVec.ofNat 64 c.y ∧
        Tab.get 0 st.sregs 4 = BitVec.ofNat 64 c.z ∧ Tab.get 0 st.sregs 5 = BitVec.ofNat 64 i ∧
        Tab.get 0 st.sregs 6 = BitVec.ofNat 64 b.desc.nstr ∧ (∀ r, 7 ≤ r → Tab.get 0 st.sregs r = 0) ∧
        ∀ l, l < b.desc.lanes → Tab.get 0 st.tids l = BitVec.ofNat 16 (i * b.desc.lanes + l)) ∧
  (∀ (s : State) (k p : Nat), s.halted = false → s.waiting.find? (fun e => s.fitsNow e.2) = some (p, .coil k) →
    ∃ t, exec .coilPlace s = .next t ∧ .coilRestore k ∈ t.agenda ∧ t.coils = s.coils) ∧
  (∀ s : State, s.halted = true → exec .coilPlace s = .next s ∧ exec .preemptPriority s = .next s) ∧
  (∀ (s : State) (p n k : Nat) (w : Waiting) (d : Desc) (c : Coil), s.halted = false → s.regF aCtxCfg 15 0 ≠ 0 → s.roomComing = false →
    s.waiting.find? (fun e => !s.fitsNow e.2) = some (p, w) → s.waitingDesc w = some (d, n) → s.stopUntil d n [] (s.victims p) = some [k] →
    1 ≤ s.freeSlots → s.coil? k = some c → c.residency = .resident →
    ∃ t, exec .preemptPriority s = .next t ∧ t.coil? k = some { c with residency := .stopping 0 } ∧ .coilSave k ∈ t.agenda ∧
      (∀ j, j ≠ k → t.coil? j = s.coil? j) ∧ t.mem = s.mem) ∧
  (∀ (s : State) (k : Nat) (c : Coil) (b : Bolt), Resident s k c b → s.regF aPreempt 31 0 ≠ 0 → s.halted = false → 1 ≤ s.freeSlots →
    (∃ e ∈ s.waiting, b.prio ≤ e.1 ∧ s.fitsNow e.2 = false) →
    ∃ t, exec (.timeSliceExpiry k) s = .next t ∧ t.coil? k = some { c with residency := .stopping 1 } ∧ .coilSave k ∈ t.agenda ∧
      ∀ j, j ≠ k → t.coil? j = s.coil? j) ∧
  (∀ (s : State) (k : Nat), s.regF aPreempt 31 0 = 0 → exec (.timeSliceExpiry k) s = .next s) ∧
  (∀ (s s1 : State) (k n slot : Nat) (c : Coil) (b : Bolt), s.coilBolt? k = some (c, b) → c.residency = .stopping n → s.drainFor k b.asid = s1 →
    (s1.quiet k c b.asid n = false → ∃ t, exec (.coilSave k) s = .next t ∧ t = s1.push [.coilSave k]) ∧
    (s1.quiet k c b.asid n = true → n = 5 → ∃ t, exec (.coilSave k) s = .next t ∧ t = s1.dispose k) ∧
    (s1.quiet k c b.asid n = true → n < 2 → s1.openSlot = some slot → s1.coil? k = some c → ∃ (t : State) (c1 : Coil), exec (.coilSave k) s = .next t ∧
      t.coil? k = some c1 ∧ c1.residency = .saved slot n ∧ c1.granules = [] ∧ c1.granulesOdd = [] ∧ c1.insnUsed = c.insnUsed ∧
      c1.wallUsed = c.wallUsed ∧ t.slots = slot :: s1.slots ∧ .coilPlace ∈ t.agenda)) ∧
  (∀ (s : State) (k h slot n : Nat) (c : Coil) (b : Bolt), s.coilBolt? k = some (c, b) → s.halted = false → c.waits = true → b.desc.cores = false →
    s.fitAll s.freeOn b.desc 1 = true → s.pickSite b.desc = some h → c.residency = .saved slot n →
    (∀ st ∈ c.strands, st.root.park = .running ∧ st.entries = []) → 512 + 512 * c.strands.length ≤ c.image.length →
    s.contextSound c b.desc = true → (∃ e ∈ s.waiting, e.2 = .coil k) →
    let l := s.takeWords (s.slotAt slot) c.image
    ∃ t c1, exec (.coilRestore k) s = .next t ∧ t.coil? k = some c1 ∧ c1.residency = .resident ∧ c1.hamper = h ∧ t.slots = s.slots.erase slot ∧
      c1.bolt = c.bolt ∧ c1.x = c.x ∧ c1.y = c.y ∧ c1.z = c.z ∧ c1.insnUsed = wordsN l 32 8 ∧ c1.wallUsed = wordsN l 40 4 ∧ c1.image = [] ∧
      ∀ (i : Nat) (st : Strand), c.strands[i]? = some st → st.ended = false → ∃ st1, c1.strands[i]? = some st1 ∧ st1.tids = st.tids ∧
        ∀ rec, rec = (l.drop (512 + 512 * i)).take 512 →
          st1.root.pc = (rec.getD 64 (0, false)).1 ∧ (∀ r, 1 ≤ r → r < 48 → Tab.get 0 st1.sregs r = (rec.getD r (0, false)).1) ∧
          st1.queue.length = min (wordsN rec 651 1) 4 ∧ st1.root.em = BitVec.ofNat 64 (wordsN rec 520 8)) ∧
  (∀ (s : State) (k : Nat) (c : Coil) (b : Bolt), s.coilBolt? k = some (c, b) → s.halted = true ∨ c.waits = false →
    exec (.coilRestore k) s = .next s) ∧
  (∀ (s : State) (k : Nat) (c : Coil) (b : Bolt), s.coilBolt? k = some (c, b) → s.halted = false → c.waits = true →
    (∀ e ∈ s.waiting, e.2 ≠ .coil k ∧ e.2 ≠ .saved c.bolt) → exec (.coilRestore k) s = .next s.wantPlace) ∧
  (∀ (s : State) (k : Nat) (c : Coil) (b : Bolt), Resident s k c b → (s.openSlot ≠ none ∨ b.desc.trapKill = false) →
    (b.desc.insnBudget ≠ 0 → b.desc.insnBudget * 2 ^ 16 ≤ c.insnUsed → ∃ t, exec (.watchdogInsnExpiry k) s = .next t ∧
      t.coil? k = some { c with residency := .stopping 2 } ∧ .coilSave k ∈ t.agenda) ∧
    (b.desc.wallUs ≠ 0 → b.desc.wallUs ≤ c.wallUsed → .watchdogInsnExpiry k ∉ s.agenda → ∃ t, exec (.watchdogTimeExpiry k) s = .next t ∧
      t.coil? k = some { c with residency := .stopping 3 } ∧ .coilSave k ∈ t.agenda) ∧
    (b.desc.insnBudget = 0 ∨ c.insnUsed < b.desc.insnBudget * 2 ^ 16 → exec (.watchdogInsnExpiry k) s = .next s) ∧
    (b.desc.wallUs = 0 ∨ c.wallUsed < b.desc.wallUs → exec (.watchdogTimeExpiry k) s = .next s)) ∧
  (∀ (s : State) (k slot n : Nat) (c : Coil) (b : Bolt), s.coilNamed (s.regN aCoilBolt) (s.regN aCoilPos) = some (k, c) → c.residency = .saved slot n →
    n = 2 ∨ n = 3 → c.debugStop = false → Dict.find? s.bolts c.bolt = some b → b.killed = none →
    (∃ t l, exec .coilResume s = .next t ∧ t.coil? k = some { c with insnUsed := 0, wallUsed := 0, residency := .saved slot 0, image := l } ∧
      .coilPlace ∈ t.agenda ∧ t.regF aCoilCmd 9 8 = 0 ∧
      (PlainRun s (s.slotAt slot) 4096 → (∀ i, i < 12 → t.byte (s.slotAt slot + 32 + i) = 0) ∧
        ∀ a, a < s.slotAt slot ∨ s.slotAt slot + 4096 ≤ a → t.byte a = s.byte a)) ∧
    (∃ t b1, exec .coilKill s = .next t ∧ (Dict.find? t.bolts c.bolt = some b1 → b1.killed = some (if n = 2 then .watchdogInsn else .watchdogTime)) ∧
      t.regF aCoilCmd 9 8 = 0)) ∧
  (∀ s : State, s.coilNamed (s.regN aCoilBolt) (s.regN aCoilPos) = none →
    (∃ t, exec .coilResume s = .next t ∧ t.regF aCoilCmd 9 8 = 1 ∧ t.coils = s.coils) ∧
    (∃ t, exec .coilKill s = .next t ∧ t.regF aCoilCmd 9 8 = 1 ∧ t.coils = s.coils))

/-- R113-R117, R129, R344, R389, R392, R410, R414: the pick of a path, the predictor, and what parked paths wait for. -/
def Obligations.PathEvents : Prop :=
  (∀ (s : State) (h q : Nat), s.candidates h q = [] → ∃ t, exec (.quadrantPick h q) s = .next t ∧ t = s) ∧
  (∀ (s : State) (h q : Nat) (r : Rotation) (e : Nat × Issuer),
    let c := s.candidates h q
    (∀ a ∈ c, a.2.path.park = .running ∧ a.2.coil.issues = true ∧ a.2.coil.stepOnly = none) → Tab.get Rotation.start s.rotations (4 * h + q) = r → r.skip = [] →
    (c.find? (fun a => a.1 + 1 == r.last && a.2.strand.urgent) = some e ∧ r.again = false ∨
      ((∀ a ∈ c, a.1 + 1 = r.last → a.2.strand.urgent = false) ∨ r.again = true) ∧
        (c.find? (fun a => decide (r.last ≤ a.1)) = some e ∨ c.find? (fun a => decide (r.last ≤ a.1)) = none ∧ c.head? = some e)) →
    ∃ t, exec (.quadrantPick h q) s = .next t ∧ t.turn = some { id := e.2.id, lane := true, back := some (4 * h + q, r) } ∧ t.coils = s.coils ∧
      (Tab.get Rotation.start t.rotations (4 * h + q)).last = e.1 + 1) ∧
  (∀ (s : State) (k : Nat) (c : Coil), s.coil? k = some c → ∃ (t : State) (c1 : Coil), exec (.urgencyUpdate k) s = .next t ∧ t.coil? k = some c1 ∧
    { c1 with strands := c.strands } = c ∧ ∀ (i : Nat) (st : Strand), c.strands[i]? = some st → ∃ st1 : Strand, c1.strands[i]? = some st1 ∧
      st1 = { st with progress := 0, urgent := st1.urgent } ∧
      (st1.urgent = true ↔ Predicted st ∧ (∀ (j : Nat) (sj : Strand), c.strands[j]? = some sj → Predicted sj → st.progress < sj.progress ∨
          st.progress = sj.progress ∧ i ≤ j) ∧
        ∃ (j : Nat) (sj : Strand), c.strands[j]? = some sj ∧ Predicted sj ∧ st.progress + 16 ≤ sj.progress)) ∧
  (∀ (s : State) (x : Issuer) (t0 : DeferredTrap), t0.path = x.id → MayStop s x → x.coil.residency = .resident → x.path.park = .running →
    (∀ e ∈ x.strand.longs, e.2.path = x.id.path → e.2.pos ≠ 255) →
    ∃ t, exec (.deferredTrap t0) s = .next t ∧ StopsAt (s.withdraw x) t x { t0.info with spc := x.path.pc, active := x.path.em }) ∧
  (∀ (s s1 : State) (x : Issuer) (va n : W64) (sc : BitVec 3) (p : Place), s.issuerAt x.id = some x → x.path.park = .waitMem va n sc →
    let acc : Acc := { kind := .read, va := va.toNat, size := 8, l2 := x.acts sc.toNat }
    let s2 := s1.ordered x.hamper false false [(0, acc, p)]
    x.coil.issues = true → s.judge x.who acc = (.ok p, s1) → p.isRemote = false → s2.refuses p .read = false →
    (s2.load .current (some x.coil) p 8).2 = false →
    let v := ofBytes (s2.load .current (some x.coil) p 8).1
    v < 2 ^ 64 → ∃ t, exec (.waitMemRecheck x.id) s = .next t ∧ (n.toNat ≤ v → Resumed t x 0 0 x.path.scc) ∧
      (v < n.toNat → .waitMemRecheck x.id ∈ t.agenda ∧ ∃ y, t.issuerAt x.id = some y ∧ y.path = x.path)) ∧
  (∀ (s : State) (x : Issuer) (va mask : W64) (d : BitVec 6) (sc : BitVec 3) (pa : Nat),
    let deep := decide (2 ≤ sc.toNat) || (decide (sc = 1) && x.desc.pair)
    let newest := if deep then s.newest x.hamper else s.seen x.hamper
    let done := numberOf newest pa 8
    let err := numberOf newest (pa + 8) 8
    let accD : Acc := { kind := .read, va := va.toNat, size := 8, align := 32, l2 := deep }
    let accE : Acc := { kind := .read, va := (va + 8).toNat, size := 8 }
    let ps : List (Nat × Acc × Place) := [(0, accD, placeAt x deep pa), (0, accE, .l1 x.hamper (pa + 8))]
    let s2 := s.ordered x.hamper false false ps
    s.issuerAt x.id = some x → x.path.park = .cpWait va mask d sc → x.coil.issues = true → mask ≠ 0 → pa % 32 = 0 → OttRoom s x ps →
    s.judge x.who accD = (.ok (placeAt x deep pa), s) → s.judge x.who accE = (.ok (.l1 x.hamper (pa + 8)), s) →
    Plain s pa 8 → Plain s (pa + 8) 8 → (s2.load x.view (some x.coil) (placeAt x deep pa) 8).2 = false →
    ((s2.afterLoad (placeAt x deep pa) 8).load x.view (some x.coil) (.l1 x.hamper (pa + 8)) 8).2 = false →
    ∃ t, exec (.cpWaitRecheck x.id) s = .next t ∧ Kept s t x.hamper ∧
      (done &&& mask = mask → Resumed t x d mask (zncv true false (err &&& mask != 0) false)) ∧
      (done &&& mask ≠ mask → .cpWaitRecheck x.id ∈ t.agenda ∧ ∃ y, t.issuerAt x.id = some y ∧ y.path = x.path)) ∧
  (∀ (s : State) (x : Issuer) (c : BitVec 4) (late : Bool) (v : W64) (seen : Option W64) (d : BitVec 6), s.issuerAt x.id = some x →
    x.path.park = .twait c late v seen d → ∃ t, exec (.twaitHintExpiry x.id) s = .next t ∧
      (x.coil.issues = true → twaitReading c.toNat seen = false → c = 0 ∨ s.twaitNow x c.toNat v seen = true → Resumed t x d 1 (zncv false false false false)) ∧
      (x.coil.issues = true → twaitReading c.toNat seen = false → c ≠ 0 → s.twaitNow x c.toNat v seen = false → Resumed t x d 0 (zncv true false false false)) ∧
      (x.coil.issues = false ∨ twaitReading c.toNat seen = true → ∃ y, t.issuerAt x.id = some y ∧ y.path = { x.path with park := .twait c true v seen d }))

/-- R144, R147, R154-R157, R159, R160, R208, R264: walks, invalidations, bank roles, uncorrectable errors and the patrol scrubber. -/
def Obligations.MemoryEvents : Prop :=
  (∀ (s s1 : State) (asid pa : Nat) (va : W64) (k : AccessKind), s.tlbFind s.walkUser asid va.toNat k = none → s.walk s.walkUser asid va.toNat k = (.ok pa, s1) →
    ∃ t e, exec (.pageWalk asid va k) s = .next t ∧ t = s1 ∧ t.tlbFind s.walkUser asid va.toNat k = some e ∧ e.asid = asid ∧
      pa = e.pbase + (va.toNat - e.vbase)) ∧
  (∀ (s : State) (asid : Nat) (va : W64) (k : AccessKind) (e : TlbEntry), s.tlbFind s.walkUser asid va.toNat k = some e →
    exec (.pageWalk asid va k) s = .next s) ∧
  (∀ (s s1 : State) (asid c l p i : Nat) (va : W64) (k : AccessKind), s.tlbFind s.walkUser asid va.toNat k = none → s.walk s.walkUser asid va.toNat k = (.fail c l p, s1) →
    s1.faultKey asid (va.toNat / 4096) k = none → bit (s1.regN aFltCfg) 5 = true → s1.regF aFltWr 31 0 = i →
    (i + 2 ^ 32 - s1.regF aFltRd 31 0) % 2 ^ 32 < 2 ^ s1.regF aFltCfg 4 0 →
    ∃ t, exec (.pageWalk asid va k) s = .next t ∧ t.regF aFltWr 31 0 = (i + 1) % 2 ^ 32 ∧ Dict.find? t.faults i = some
      { asid := asid, page := va.toNat / 4096, kind := k, cause := c, waiters := [], count := 1 }) ∧
  (∀ (s s1 : State) (asid c l p i : Nat) (va : W64) (k : AccessKind) (f : FaultRec), s.tlbFind s.walkUser asid va.toNat k = none →
    s.walk s.walkUser asid va.toNat k = (.fail c l p, s1) → s1.faultKey asid (va.toNat / 4096) k = some (i, f) →
    ∃ t, exec (.pageWalk asid va k) s = .next t ∧ Dict.find? t.faults i = some { f with count := min (f.count + 1) 0xFFFF }) ∧
  (∀ (s : State) (asid page : Nat) (va : W64), asid < 2 ^ 16 → isCanonical va → va.toNat / 4096 * 4096 = page →
    ∃ t, exec (.tlbInvPage asid va) s = .next t ∧
      (s.hostPending (some asid) (some page) = false → Invalidated s t (fun e => e.asid = asid ∧ e.vbase ≤ page ∧ page < e.vbase + e.size)) ∧
      (s.hostPending (some asid) (some page) = true → t.again = true ∧ t.tlb = s.tlb)) ∧
  (∀ (s : State) (asid : Nat), asid < 2 ^ 16 → ∃ t, exec (.tlbInvAsid asid) s = .next t ∧
    (s.hostPending (some asid) none = false → Invalidated s t (fun e => e.asid = asid)) ∧
    (s.hostPending (some asid) none = true → t.again = true ∧ t.tlb = s.tlb)) ∧
  (∀ s : State, ∃ t, exec .tlbInvAll s = .next t ∧ (s.hostPending none none = false → Invalidated s t (fun _ => True)) ∧
    (s.hostPending none none = true → t.again = true ∧ t.tlb = s.tlb)) ∧
  (∀ (s : State) (h : Nat) (v : W64), h < 192 → ∃ t, exec (.bankRoleWrite h v) s = .next t ∧ t.roles = s.roles ∧ t.sram = s.sram ∧
    (∀ b, b < 30 → t.wanted h b = (if bits v.toNat (2 * b + 1) (2 * b) = 3 then s.wanted h b else bits v.toNat (2 * b + 1) (2 * b)) ∧
      (t.wanted h b ≠ s.role h b → .bankRoleChange h b ∈ t.agenda)) ∧
    (t.regF (aBankState h) 63 63 = 1 ↔ ∃ b, b < 30 ∧ t.wanted h b ≠ s.role h b)) ∧
  (∀ (s : State) (h b : Nat), h < 192 → b < 30 → s.role h b ≠ s.wanted h b →
    (s.mayLeave h b = true → ∃ t, exec (.bankRoleChange h b) s = .next t ∧ t.role h b = s.wanted h b ∧ .coilPlace ∈ t.agenda ∧
      Dict.find? t.fifos (32 * h + b) = none ∧ (s.wanted h b = 0 → ∀ j, j < 16384 → Tab.get 0 t.sram (h * 2 ^ 19 + b * 16384 + j) = 0) ∧
      Kept s t h ∧ (s.role h b = 1 → ∀ e ∈ t.l1, e.hamper = h → e.way ≠ b)) ∧
    (s.mayLeave h b = false → ∃ t, exec (.bankRoleChange h b) s = .next t ∧ t.roles = s.roles ∧ .bankRoleChange h b ∈ t.agenda ∧
      t.regF (aBankState h) 63 63 = 1)) ∧
  (∀ (s : State) (pa : Nat), pa < s.memBytes →
    let signal := if s.link.msixEnable then [OutMsg.msix 0] else []
    (∃ t, exec (.uncorrectableError (.hbm pa)) s = .next t ∧ Tab.get false t.poison (pa / 64) = true ∧ t.regN aMemErrAddr = pa % 2 ^ 48 ∧
      bit (t.regN aMemErr) 2 = true ∧ t.outbox = signal ++ s.outbox ∧ t.mem = s.mem) ∧
    (∃ t, exec (.uncorrectableError (.l2 pa)) s = .next t ∧ Tab.get false t.poison (pa / 64) = true ∧ t.regN aMemErrAddr = pa % 2 ^ 48 ∧
      bit (t.regN aMemErr) 1 = true ∧ t.outbox = signal ++ s.outbox ∧ t.mem = s.mem)) ∧
  (∀ (s : State) (h off : Nat), h < 192 → off / 16384 < 30 → s.role h (off / 16384) = 0 → ∃ t, exec (.uncorrectableError (.sram h off)) s = .next t ∧
    Tab.get false t.sramPoison ((h * 2 ^ 19 + off) / 8) = true ∧ bit (t.regN aMemErr) 0 = true ∧ t.mem = s.mem ∧ t.sram = s.sram) ∧
  (∀ (s : State) (h off : Nat), h < 192 → off / 16384 < 30 ∧ s.role h (off / 16384) = 1 ∨ off / 16384 = 30 ∨ off / 16384 = 31 ∧ 1024 ≤ off % 16384 →
    ∃ t, exec (.uncorrectableError (.sram h off)) s = .next t ∧ bit (t.regN aMemErr) 0 = true ∧ t.mem = s.mem ∧ t.sram = s.sram ∧
      (∀ g a, t.seen g a = s.seen g a ∧ (s.seenBad g a = true → t.seenBad g a = true)) ∧
      (∀ a b, s.l1At h (a / 512) = some b → b.way = off / 16384 → b.base % 32 = off % 16384 / 512 → a % 512 / 8 = off % 512 / 8 →
        b.holds (a % 512) = true → t.seenBad h a = true)) ∧
  (∀ (s : State) (h pa : Nat), ∃ t, exec (.uncorrectableError (.l1Tag h pa)) s = .next t ∧ bit (t.regN aMemErr) 0 = true ∧ t.l1At h (pa / 512) = none ∧
    (∀ a, a / 512 = pa / 512 → t.byte a = s.newest h a ∧ (s.dirtyAt h a → t.memPoison a 1 = true)) ∧ (∀ a, a / 512 ≠ pa / 512 → t.byte a = s.byte a)) ∧
  (∀ (s : State) (k i reg lane : Nat) (st : Strand), s.strand? k i = some st → ∃ t st1, exec (.uncorrectableError (.laneReg k i reg lane)) s = .next t ∧
    t.strand? k i = some st1 ∧ Tab.get false st1.vpoison (vKey reg lane) = true ∧ st1.vregs = st.vregs ∧ bit (t.regN aMemErr) 0 = true) ∧
  (∀ (s : State) (p : PathId) (reg : Nat) (st : Strand), s.strand? p.coil p.strand = some st → reg ≠ 0 →
    ∃ t st1, exec (.uncorrectableError (.scalarReg p reg)) s = .next t ∧ t.strand? p.coil p.strand = some st1 ∧
      Tab.get false st1.spoison (sKey p.path reg) = true ∧ st1.sregs = st.sregs ∧ bit (t.regN aMemErr) 0 = true) ∧
  (∀ (s : State) (line stamp : Nat), ∃ t, exec (.uncorrectableError (.olderPly line stamp)) s = .next t ∧ bit (t.regN aPlyErr) 3 = true ∧ t.mem = s.mem ∧
    ∀ o ∈ t.ply.olds, o.line = line → o.stamp = stamp → o.poison = [true, true]) ∧
  (∀ s : State, exec .patrolScrub s = .next s)

/-- R148-R150: acquire and release act on the L1 of a Hamper at scope .dev and wider, and at .coil in a paired coil (log 19). A read fetches the lines that
it misses, and reads what it read; a store makes its bytes dirty, fetches nothing and leaves the L2 as it is; lines that are accessed at the L2 leave
the L1 first; where no way of a set is free, the superblock used least recently leaves. -/
def Obligations.CacheRules : Prop :=
  (∀ (s : State) (x : Issuer) (sc : Nat), 2 ≤ sc ∨ sc = 1 ∧ x.desc.pair = true →
    Acquired s (s.acquireAt x sc) x.hamper ∧ Released s (s.releaseAt x sc) x.hamper) ∧
  (∀ (s : State) (x : Issuer) (sc : Nat), sc = 0 ∨ sc = 1 ∧ x.desc.pair = false → s.acquireAt x sc = s ∧ s.releaseAt x sc = s) ∧
  (∀ (s t : State) (h pa n : Nat), 0 < n → pa % 512 + n ≤ 512 → s.l1Touch h pa n = t →
    OnlyL1 s t h ∧ Kept s t h ∧ (∀ i, i < n → t.seen h (pa + i) = s.seen h (pa + i)) ∧
      ∃ b, t.l1At h (pa / 512) = some b ∧ ∀ i, i < n → b.holds ((pa + i) % 512) = true) ∧
  (∀ (s t : State) (h pa : Nat) (l : List Byte) (bad : Bool), 0 < l.length → pa % 512 + l.length ≤ 512 → s.l1Store h pa l bad = t →
    OnlyL1 s t h ∧ (∀ i, i < l.length → some (t.seen h (pa + i)) = l[i]? ∧ t.dirtyAt h (pa + i) ∧ t.byte (pa + i) = s.byte (pa + i)) ∧
      (∀ a, t.byte a = s.byte a ∨ t.byte a = s.seen h a) ∧
      (∀ a, a < pa ∨ pa + l.length ≤ a → t.seen h a = s.seen h a ∨ t.seen h a = s.byte a) ∧
      ∃ b, t.l1At h (pa / 512) = some b ∧ ∀ k, k < 4 → bit b.filled k = (s.l1At h (pa / 512)).any (fun c => bit c.filled k)) ∧
  (∀ (s t : State) (h pa : Nat) (a : Acc), 0 < a.size → pa % 128 + a.size ≤ 128 → s.ordered h false false [(0, a, .mem pa)] = t →
    OnlyL1 s t h ∧ (∀ c, c / 128 = pa / 128 → t.byte c = s.newest h c ∧ t.seen h c = t.byte c) ∧
      (∀ c, c / 128 ≠ pa / 128 → t.byte c = s.byte c ∧ t.seen h c = s.seen h c)) ∧
  (∀ (s t : State) (h pa n : Nat) (v : L1Block), s.l1Touch h pa n = t → s.l1At h (pa / 512) = none →
    (∀ w ∈ s.l1Ways h (pa / 512 % 32), ∃ b ∈ s.l1, b.hamper = h ∧ b.base % 32 = pa / 512 % 32 ∧ b.way = w) →
    (s.l1.filter (fun b => b.hamper == h && b.base % 32 == pa / 512 % 32)).getLast? = some v →
    t.l1At h v.base = none ∧ (∀ sb, sb ≠ v.base → sb ≠ pa / 512 → t.l1At h sb = s.l1At h sb) ∧
      ∃ b r, t.l1 = b :: r ∧ b.hamper = h ∧ b.base = pa / 512)

/-- R269-R272, R275, R277, R281: the debugger's orders, samples and trace blocks. -/
def Obligations.DebugEvents : Prop :=
  (∀ (s : State) (k : Nat) (c : Coil) (b : Bolt), DebugNames s k c b → s.regF aCtxCfg 15 0 ≠ 0 → c.debugStop = false → c.residency = .resident →
    ∃ t c1, exec .dbgStop s = .next t ∧ t.coil? k = some c1 ∧ c1.debugStop = true ∧ c1.residency = .stopping 4 ∧ .coilSave k ∈ t.agenda ∧
      t.regF aDbgCmd 41 40 = 0) ∧
  (∀ s : State, s.regF aCtxCfg 15 0 = 0 → ∃ t, exec .dbgStop s = .next t ∧ t.regF aDbgCmd 41 40 = 3 ∧ t.coils = s.coils) ∧
  (∀ s : State, s.regF aCtxCfg 15 0 ≠ 0 → bit (s.regN aDbgCmd) 8 = false → s.coilNamed (s.regN aDbgSelBolt) (s.regN aDbgSelPos) = none →
    (∃ t, exec .dbgStop s = .next t ∧ t.regF aDbgCmd 41 40 = 1 ∧ t.coils = s.coils) ∧
    (∃ t, exec .dbgResume s = .next t ∧ t.regF aDbgCmd 41 40 = 1 ∧ t.coils = s.coils) ∧
    (∃ t, exec .dbgStep s = .next t ∧ t.regF aDbgCmd 41 40 = 1 ∧ t.coils = s.coils)) ∧
  (∀ (s : State) (k slot n : Nat) (c : Coil) (b : Bolt), DebugNames s k c b → c.debugStop = true → c.residency = .saved slot n → n ≠ 2 → n ≠ 3 →
    (∃ t, exec .dbgResume s = .next t ∧ t.coil? k = some { c with debugStop := false, stepOnly := none, residency := .saved slot 0 } ∧ .coilPlace ∈ t.agenda ∧
      t.regF aDbgCmd 41 40 = 0) ∧
    (∀ i p st q, s.regF aDbgCmd 37 32 = i → s.regF aDbgCmd 27 24 = p → c.strands[i]? = some st → st.path? p = some q → q.park = .running →
      ∃ t, exec .dbgStep s = .next t ∧ t.coil? k = some { c with debugStop := false, residency := .saved slot 0, stepOnly := some (i, p, false) } ∧
        .coilPlace ∈ t.agenda ∧ t.regF aDbgCmd 41 40 = 0)) ∧
  (∀ (s : State) (h : Nat), bit (s.regN aSmpCfg) 32 = false ∨ (∀ q, q < 4 → s.candidates h q = []) → exec (.pcSample h) s = .next s) ∧
  (∀ (s : State) (h n wr log2 : Nat) (x : Issuer), bit (s.regN aSmpCfg) 32 = true → s.candidates h 0 = [(n, x)] →
    (∀ q, 1 ≤ q → q < 4 → s.candidates h q = []) → bit (s.regN aSmpCfg) 40 = true ∨ x.asid = s.regF aSmpCfg 63 48 → s.regF aSmpWr 31 0 = wr →
    s.regF aSmpCfg 4 0 = log2 → PlainRun s (s.regF aSmpBase 63 12 * 4096 + 64 * (wr % 2 ^ log2)) 64 →
    ∃ t, exec (.pcSample h) s = .next t ∧
      ((wr + 2 ^ 32 - s.regF aSmpRd 31 0) % 2 ^ 32 < 2 ^ log2 → t.regF aSmpWr 31 0 = (wr + 1) % 2 ^ 32 ∧
        Holds s t (s.regF aSmpBase 63 12 * 4096 + 64 * (wr % 2 ^ log2)) (withLap (s.sampleRecord x h 0) 3 wr log2)) ∧
      (2 ^ log2 ≤ (wr + 2 ^ 32 - s.regF aSmpRd 31 0) % 2 ^ 32 → t.mem = s.mem ∧ t.regN aSmpDrop = (s.regN aSmpDrop + 1) % 2 ^ 32)) ∧
  (∀ (s : State) (h : Nat), (s.traceOf h).lost = 0 ∨ s.traceFull h = true ∨ bit (s.regN aTrcCfg) 32 = false →
    exec (.traceLossRecover h) s = .next s) ∧
  (∀ (s : State) (h g : Nat), (s.traceOf h).lost ≠ 0 → s.traceFull h = false → bit (s.regN aTrcCfg) 32 = true → (s.traceOf h).block = [] →
    s.pathsOn h = [] → s.clock - (s.traceOf h).lastClock = g →
    ∃ t, exec (.traceLossRecover h) s = .next t ∧ (t.traceOf h).lost = 0 ∧ (t.traceOf h).lastClock = s.clock ∧ t.mem = s.mem ∧
      (g ≤ 15 → (t.traceOf h).block = BitVec.ofNat 8 (0x70 + g) :: toBytes 8 (s.traceOf h).lost) ∧
      (15 < g → g < 2 ^ 32 → (t.traceOf h).block = 0x80 :: toBytes 4 g ++ 0x70 :: toBytes 8 (s.traceOf h).lost)) ∧
  (∀ (s : State) (h wr size : Nat), (s.traceOf h).block ≠ [] → (s.traceOf h).block.length ≤ 64 → s.regN (aTrcWr h) = wr → 2 ^ s.regF aTrcCfg 4 0 = size →
    PlainRun s (s.regF aTrcBase 63 12 * 4096 + h * size + wr % size) 64 →
    ∃ t, exec (.traceBlockFlush h) s = .next t ∧ (t.traceOf h).block = [] ∧ t.regN (aTrcWr h) = (wr + 64) % 2 ^ 32 ∧
      Holds s t (s.regF aTrcBase 63 12 * 4096 + h * size + wr % size)
        ((s.traceOf h).block ++ List.replicate (64 - (s.traceOf h).block.length) 0)) ∧
  (∀ (s : State) (h : Nat), (s.traceOf h).block = [] → exec (.traceBlockFlush h) s = .next s)

/-- R184, R187, R189, R205-R207: regions of ply memory, the picker, and the revocation of snapshots. -/
def Obligations.PlyEvents : Prop :=
  (∀ (s : State) (i v : Nat) (value : W64), i < 256 → s.rgnValid i = false → rgnBits i value ||| 2 ^ 63 = v →
    (s.rgnFits i v = true → ∃ t, exec (.plyRgnDeclare i value) s = .next t ∧ t.rgnValid i = true ∧ t.regN (aPlyRgn i) = v ∧
      (∀ a, t.byte a = s.byte a ∨ ∃ h, t.byte a = s.seen h a) ∧
      (∀ b ∈ t.l1, 512 * b.base + 512 ≤ (rgnOf v).1 ∨ (rgnOf v).1 + (rgnOf v).2 ≤ 512 * b.base) ∧
      (∀ line, (rgnOf v).1 / 128 ≤ line → line < ((rgnOf v).1 + (rgnOf v).2) / 128 → t.stampOf line = 0) ∧ t.ply.issued = s.ply.issued) ∧
    (s.rgnFits i v = false → ∃ t, exec (.plyRgnDeclare i value) s = .next t ∧ t.rgnValid i = false ∧ bit (t.regN aPlyErr) 0 = true ∧ t.ply = s.ply)) ∧
  (∀ (s : State) (i : Nat), i < 256 → s.rgnValid i = true → ∃ t, exec (.plyRgnRetire i) s = .next t ∧ t.rgnValid i = false ∧ t.mem = s.mem ∧
    (∀ o ∈ t.ply.olds, o ∈ s.ply.olds ∧ ¬ (s.rgnBase i / 128 ≤ o.line ∧ o.line < (s.rgnBase i + s.rgnSize i) / 128)) ∧
    (∀ (k : Nat) (c : Coil) (x : Txn) (p : Tentative), s.coil? k = some c → c.txn = some x → x.aborted = none → p ∈ s.ply.tents → p.tag = x.tag →
      s.rgnBase i / 128 ≤ p.line → p.line < (s.rgnBase i + s.rgnSize i) / 128 →
      ∃ c1, t.coil? k = some c1 ∧ c1.txn = some { x with aborted := some 5 } ∧ ∀ y ∈ t.ply.tents, y.tag ≠ x.tag)) ∧
  (∀ s : State, ∃ t, exec .pickerFree s = .next t ∧ { t with ply := { t.ply with olds := s.ply.olds } } = s ∧ ∀ o, o ∈ t.ply.olds ↔
    o ∈ s.ply.olds ∧ ∃ e ∈ s.ply.snaps, e.2.revoked = false ∧ o.stamp ≤ e.2.stamp ∧ e.2.stamp < o.next) ∧
  (∀ (s : State) (i : Nat) (e : SnapEntry), s.plyFree = 0 → Oldest s i e → ∃ t, exec .plySlotWaitRevoke s = .next t ∧ RevokedEntry s t i e) ∧
  (∀ s : State, s.plyFree ≠ 0 → exec .plySlotWaitRevoke s = .next s) ∧
  (∀ (s : State) (i : Nat) (e : SnapEntry), s.plyFree < s.regF aPlyCfg 31 16 * 2 ^ 16 → s.pick = s → Oldest s i e →
    ∃ t, exec .plyRevokeTimer s = .next t ∧ RevokedEntry s t i e) ∧
  (∀ s : State, s.regF aPlyCfg 31 16 * 2 ^ 16 ≤ s.plyFree → exec .plyRevokeTimer s = .next s)

/-- R178, R179, R211-R217, R392, R396-R403: K-steps, codebook loads, clears and drains. A K-step of the integer formats adds to every element the
sum of the 48 products of its row and column, modulo 2^32. -/
def Obligations.MatrixEvents : Prop :=
  (∀ (s s1 : State) (op fmt n ksteps steps vsb bsb cbb st : Nat) (g : Bool) (m : MmaShare) (vb sb : W64) (o : EngineOp) (c : Coil) (b : Bolt)
      (data : List (List Byte × Bool)), EngineRuns s op o c b → o.kind = .mma fmt false g [m] vb sb n ksteps vsb bsb cbb st steps →
    s.readList (o.who c b) (.engine op) .current (rowReads m.a m.sa m.m steps ++ rowReads vb sb n steps) = (.data data, s1) →
    s1.coil? o.coil = some c → mxAcc fmt = 3 → m.m ≤ 64 → n ≤ 64 → (∀ e ∈ data, e.2 = false) →
    (∀ k ∈ shareWords o.half fmt n m, Tab.get false c.accPoison k = false) →
    ∃ t c1, exec (.mxKStep op) s = .next t ∧ t.coil? o.coil = some c1 ∧
      (∀ i j, i < m.m → j < n → ((Tab.get 0 c1.acc (accKey o.half m.tile i j)).toNat : Int) =
        ((Tab.get 0 c.acc (accKey o.half m.tile i j)).toNat +
          ((List.range 48).map (fun k => byteValue fmt (rowByte data i k) * byteValue fmt (rowByte data (m.m + j) k))).sum) % 2 ^ 32) ∧
      (∀ key, (∀ k ∈ shareWords o.half fmt n m, key ≠ k) → Tab.get 0 c1.acc key = Tab.get 0 c.acc key) ∧
      (steps + 1 < ksteps → .mxKStep op ∈ t.agenda ∧
        Dict.find? t.ops op = some { o with kind := .mma fmt false g [m] vb sb n ksteps vsb bsb cbb st (steps + 1) }) ∧
      (steps + 1 = ksteps → OpDone t op o c c1 ∧ c1.tileFormat o.half m.tile = 3)) ∧
  (∀ (s s1 : State) (op fmt n ksteps steps vsb bsb cbb st : Nat) (g : Bool) (m : MmaShare) (vb sb : W64) (o : EngineOp) (c : Coil) (b : Bolt)
      (data : List (List Byte × Bool)), EngineRuns s op o c b → o.kind = .mma fmt false g [m] vb sb n ksteps vsb bsb cbb st steps →
    s.readList (o.who c b) (.engine op) .current (rowReads m.a m.sa m.m steps ++ rowReads vb sb n steps) = (.data data, s1) →
    s1.coil? o.coil = some c → (∃ e ∈ data, e.2 = true) → ∃ t, exec (.mxKStep op) s = .next t ∧ OpEnds t op o c .poison) ∧
  (∀ (s s1 : State) (op slot : Nat) (a : W64) (o : EngineOp) (c : Coil) (b : Bolt) (data : List (List Byte × Bool)), EngineRuns s op o c b →
    o.kind = .cbld slot a → s.readList (o.who c b) (.engine op) .current (pieces 16 .read 3 a.toNat 32) = (.data data, s1) → s1.coil? o.coil = some c →
    ((∀ e ∈ data, e.2 = false) → (data.flatMap Prod.fst).length = 32 → ∃ t c1, exec (.mxCbldComplete op) s = .next t ∧ OpDone t op o c c1 ∧
      (∀ i, i < 32 → some (Tab.get 0 c1.codebook (32 * slot + i)) = (data.flatMap Prod.fst)[i]?) ∧
      (∀ k, k < 32 * slot ∨ 32 * slot + 32 ≤ k → Tab.get 0 c1.codebook k = Tab.get 0 c.codebook k) ∧ t.mem = s1.mem) ∧
    ((∃ e ∈ data, e.2 = true) → ∃ t, exec (.mxCbldComplete op) s = .next t ∧ OpEnds t op o c .poison)) ∧
  (∀ (s : State) (op tile : Nat) (o : EngineOp) (c : Coil) (b : Bolt), EngineRuns s op o c b → o.kind = .clr tile →
    ∃ t c1, exec (.mxClrComplete op) s = .next t ∧ OpDone t op o c c1 ∧ Tab.get 0 c1.accStat (16 * o.half + tile) = 0 ∧ t.mem = s.mem ∧
      ∀ row col, row < 64 → col < 64 → Tab.get 0 c1.acc (accKey o.half tile row col) = 0 ∧
        Tab.get false c1.accPoison (accKey o.half tile row col) = false) ∧
  (∀ (s : State) (op : Nat) (regs : List W64) (ctl : W64) (d : Bool) (cvt : W32) (o : EngineOp) (c : Coil) (b : Bolt) (pa : Nat → Nat),
    let q := drainArgs regs ctl
    let value (u : DrainUnit) : Nat × Bool × FpFlags × Bool := drainValue c o.half q cvt d (fun _ _ => none) u
    EngineRuns s op o c b → o.kind = .drain regs ctl false d cvt 0 0 → s.writeCause (.engine op) = none →
    (∀ t : State, t.tlb = s.tlb → t.regs = s.regs → ∀ u ∈ drainUnits q,
      t.judge (o.who c b) { kind := .write, va := u.va, size := u.size, watch := false } = (.ok (.l1 (c.hamper + o.half) (pa u.va)), t)) →
    (∀ u ∈ drainUnits q, PlainRun s (pa u.va) u.size) →
    (drainUnits q).Pairwise (fun u v => pa u.va + u.size ≤ pa v.va ∨ pa v.va + v.size ≤ pa u.va) →
    ∃ t c1, exec (.mxDrainComplete op) s = .next t ∧ OpDone t op o c c1 ∧
      (∀ u ∈ drainUnits q, ∀ i, i < u.size → some (t.byte (pa u.va + i)) = (toBytes u.size (value u).1)[i]?) ∧
      (∀ a, (∀ u ∈ drainUnits q, a < pa u.va ∨ pa u.va + u.size ≤ a) →
        t.byte a = s.byte a ∨ t.byte a = s.seen (c.hamper + o.half) a) ∧
      (∀ st, c.strands[o.strand]? = some st → ∃ st1, c1.strands[o.strand]? = some st1 ∧
        st1.fpf = (drainUnits q).foldl (fun f u => f ||| (value u).2.2.1) st.fpf)) ∧
  (∀ (s : State) (op n : Nat) (regs : List W64) (ctl : W64) (d r : Bool) (cvt : W32) (f : FpFlags) (o : EngineOp) (c : Coil) (b : Bolt),
    EngineRuns s op o c b → o.kind = .drain regs ctl r d cvt n f → (drainUnits (drainArgs regs ctl)).length ≤ n → s.writeCause (.engine op) = none →
    ∃ t c1, exec (.mxDrainComplete op) s = .next t ∧ OpDone t op o c c1 ∧ t.mem = s.mem ∧
      ∀ st, c.strands[o.strand]? = some st → ∃ st1, c1.strands[o.strand]? = some st1 ∧ st1.fpf = st.fpf ||| f)

/-- R233-R242, R247-R251, R418-R425: rays, beams, builds, refits and coverage operations go on in their engines. Where the spec leaves an order or a
value free, the statement holds for every one. -/
def Obligations.QueryAndCoverageEvents : Prop :=
  (∀ (s : State) (op lane d flags : Nat) (org dir : List W32) (tmin tmax : W32) (root : W64) (o : EngineOp) (c : Coil) (b : Bolt) (st : Strand),
    let r : Ray := { o := org.map BitVec.toNat, d := dir.map BitVec.toNat, tmin := tmin.toNat, tmax := tmax.toNat, flags := flags }
    let k := walkBox (o.who c b) op r 64 { st := s, hits := [], err := false, bad := false, stop := none } root.toNat
    let gives (v : W64 × W64) : Prop := ∃ t c1 st1, exec (.rayLaneComplete op) s = .next t ∧ OpDone t op o c c1 ∧ c1.strands[o.strand]? = some st1 ∧
      Tab.get 0 st1.vregs (vKey d lane) = v.1 ∧ Tab.get 0 st1.vregs (vKey (d + 1) lane) = v.2
    let held := s.holdsBack o.coil o.strand b.desc.lanes [(vKey d lane, 0, false), (vKey (d + 1) lane, 0, false)]
    EngineRuns s op o c b → o.kind = .ray lane d org tmin dir tmax root flags → lane < 64 → d + 1 < 0xF8 → c.strands[o.strand]? = some st →
    (held = true → exec (.rayLaneComplete op) s = .next (s.push [.rayLaneComplete op])) ∧ (held = false →
    (s.badRoot b.asid root = true → gives (errorWords s.tick)) ∧
    (s.badRoot b.asid root = false → r.void = true → gives (missWords s.tick)) ∧
    (s.badRoot b.asid root = false → r.void = false → k.stop = none → k.st.coil? o.coil = some c →
      (k.err = true → gives (errorWords s.tick)) ∧ (k.err = false → k.hits = [] → gives (missWords s.tick)) ∧
      (∀ h l, k.err = false → k.hits = h :: l → gives (l.foldl Hit.better h).words)))) ∧
  (∀ (s : State) (op lane : Nat) (root out : W64) (desc : List Byte) (o : EngineOp) (c : Coil) (b : Bolt), EngineRuns s op o c b →
    o.kind = .beam root desc out lane → o.sent = false →
    (beamVoid desc = true → ∃ t, exec (.beamComplete op) s = .next t ∧
      t = s.sendWrites op o c b (recordWrites out.toNat ((upFrom 0 256).map (fun p => (p, recordBytes [] true))))) ∧
    (∀ bm k, beamVoid desc = false → beamOf desc = some bm → bm.den ≠ 0 → s.badRoot b.asid root = false →
      k = resolveBeam (o.who c b) op bm root.toNat 2 { st := s, leaves := [], err := false, bad := false, stop := none, recs := [] } 0 0 →
      k.stop = none → k.bad = false → k.err = false →
      ∃ t, exec (.beamComplete op) s = .next t ∧ t = k.st.sendWrites op o c b (recordWrites out.toNat k.recs)) ∧
    (∀ k, beamVoid desc = false → (∀ bm, beamOf desc = some bm → bm.den = 0) → s.badRoot b.asid root = false →
      k = looseReached (o.who c b) op { st := s, leaves := [], err := false, bad := false, stop := none, recs := [] } root.toNat →
      k.stop = none → k.bad = false → k.err = false → k.leaves = [] → ∃ t, exec (.beamComplete op) s = .next t ∧
      t = k.st.sendWrites op o c b (recordWrites out.toNat ((upFrom 0 256).map (fun p => (p, recordBytes [] false)))))) ∧
  (∀ (s : State) (op lane : Nat) (root out : W64) (desc : List Byte) (o : EngineOp) (c : Coil) (b : Bolt), EngineRuns s op o c b →
    o.kind = .beam root desc out lane → o.sent = true → s.writeCause (.engine op) = none →
    ∃ t c1, exec (.beamComplete op) s = .next t ∧ OpDone t op o c c1 ∧ t.mem = s.mem) ∧
  (∀ (s s1 : State) (op n prim geom : Nat) (tri out : W64) (o : EngineOp) (c : Coil) (b : Bolt) (l : List (List Byte × Bool)), EngineRuns s op o c b →
    o.sent = false → s.readList (o.who c b) (.engine op) .current (pieces 64 .read (36 * n) tri.toNat (36 * n)) = (.data l, s1) →
    (∀ e ∈ l, e.2 = false) →
    let w := wordsOfBytes (9 * n) (l.flatMap Prod.fst)
    (o.kind = .build tri out n prim geom → ∃ t, exec (.buildComplete op) s = .next t ∧
      t = s1.sendWrites op o c b ((buildWrites out.toNat n prim geom w).map (fun e => ((out.toNat + e.1) % 2 ^ 64, e.2)))) ∧
    (∀ tree s2, o.kind = .refit tri out n prim geom → s1.findTree (o.who c b) op out.toNat n prim 66 out.toNat 1 = (.ok tree, s2) →
      ∃ t, exec (.refitComplete op) s = .next t ∧ t = s2.sendWrites op o c b (tree.writes (Config.buildSeed n prim geom w) w prim 66))) ∧
  (∀ (s : State) (op : Nat) (w : W64) (o : EngineOp) (c : Coil) (b : Bolt), EngineRuns s op o c b →
    (o.kind = .covTile w [] ∨ (∃ rule, o.kind = .covResolve w rule []) ∨ o.kind = .covSeg w [] →
      ∃ t c1, exec (.covOpComplete op) s = .next t ∧ OpDone t op o c c1 ∧ t.sram = s.sram) ∧
    (∀ rows, o.kind = .covTile w rows → rows ≠ [] → ∃ t y rest, exec (.covOpComplete op) s = .next t ∧ y ∈ rows ∧ rest.length + 1 = rows.length ∧
      (∀ r ∈ rows, r = y ∨ r ∈ rest) ∧ Dict.find? t.ops op = some { o with kind := .covTile w rest } ∧ .covOpComplete op ∈ t.agenda ∧
      ∀ p ∈ rowPlaces c b.desc o.half w y, ∀ key, p = .scr key → ∀ j, j < 8 → Tab.get 0 t.sram (key + j) = 0) ∧
    (∀ rule rows, o.kind = .covResolve w rule rows → rows ≠ [] → (∀ y ∈ rows, (s.rowCells c (rowPlaces c b.desc o.half w y)).2 = false) →
      ∃ t y rest, exec (.covOpComplete op) s = .next t ∧ y ∈ rows ∧ rest.length + 1 = rows.length ∧ (∀ r ∈ rows, r = y ∨ r ∈ rest) ∧
        t = (s.putRow o (rowPlaces c b.desc o.half w y) (resolveRow rule 0 (s.rowCells c (rowPlaces c b.desc o.half w y)).1)).opStays op o
          (.covResolve w rule rest)) ∧
    (∀ adds, o.kind = .covSeg w adds → adds ≠ [] → ∃ t e rest, exec (.covOpComplete op) s = .next t ∧ e ∈ adds ∧ rest.length + 1 = adds.length ∧
      (∀ r ∈ adds, r = e ∨ r ∈ rest) ∧ Dict.find? t.ops op = some { o with kind := .covSeg w rest } ∧ .covOpComplete op ∈ t.agenda ∧
      ∀ key, winPlace c b.desc o.half (tileBuf w + 4 * (e.2.1 * tileW w + e.1)) 4 = some (.scr key) → s.sramBad key 4 = false →
        (∀ j, j < 4 → some (Tab.get 0 t.sram (key + j)) =
          (toBytes 4 (wrap 32 (ofBytes (s.sramBytes key 4) + e.2.2)))[j]?) ∧
        ∀ k, k < key ∨ key + 4 ≤ k → Tab.get 0 t.sram k = Tab.get 0 s.sram k) ∧
    (∀ kind isFull full order d long st g, o.kind = .covBin kind [] isFull full order d long → s.writeCause (.engine op) = none →
      c.strands[o.strand]? = some st → Dict.find? st.longs long = some g → ∃ t c1 st1 g1, exec (.covOpComplete op) s = .next t ∧ OpDone t op o c c1 ∧
        c1.strands[o.strand]? = some st1 ∧ Dict.find? st1.longs long = some g1 ∧ g1.held = false ∧
        g1.kWrites = g.kWrites.map (fun k => (k.1, k.2.1, if k.1 = d then full else order)) ∧ .laneLongComplete long ∈ t.agenda) ∧
    (∀ kind m rest full order d long, o.kind = .covBin kind (m :: rest) true full order d long → s.writeCause (.engine op) = none →
      ∃ t, exec (.covOpComplete op) s = .next t ∧ .covOpComplete op ∈ t.agenda ∧
        Dict.find? t.ops op = some { o with kind := .covBin kind rest true (full ||| maskOf [m.lane]) (order ||| 0) d long }))

/-- R218, R219, R221, R225-R231: the copy engines' queues: OPEN, CLOSE and MOVE, the drain limit, polls, and chunks. -/
def Obligations.CopyEngineEvents : Prop :=
  (∀ (s : State) (q : Nat), q < 1024 → q < s.bteCount →
    (s.bteState q ≠ 0 → ∃ t, exec (.bteOpen q) s = .next t ∧ t.regF aBteQcmd 42 40 = 2 ∧ t.bte = s.bte ∧ t.mem = s.mem) ∧
    (s.bteState q = 0 → s.bteEntryOk q = false → ∃ t, exec (.bteOpen q) s = .next t ∧ t.regF aBteQcmd 42 40 = 4 ∧ t.bte = s.bte ∧ t.mem = s.mem) ∧
    (s.bteState q = 0 → s.bteEntryOk q = true → s.bteF q 28 1 = 0 → PlainRun s (s.bteAt q) 128 → ∃ (t s1 : State) (b : BteQueue),
      exec (.bteOpen q) s = .next t ∧ t = ((((s1.bteMirror q 4 4 0).bteMirror q 8 8 (s1.bteTl q)).bteMirror q 16 1 1).bteStatus 0).push [.btePoll q] ∧
      s1.bteState q = 1 ∧ s1.bteRd q = 0 ∧ s1.bteAcc q = s.bteAcc q ∧ Dict.find? s1.bte q = some b ∧ b.packets = [] ∧ b.draining = none) ∧
    (s.bteState q = 0 → ∃ t, exec (.bteClose q) s = .next t ∧ t.regF aBteQcmd 42 40 = 2 ∧ t.bte = s.bte ∧ t.mem = s.mem) ∧
    (∀ b, s.bteState q ≠ 0 → Dict.find? s.bte q = some b → (∃ p ∈ b.packets, p.complete = false) → s.regF aBteSave 63 12 = 0 →
      ∃ t, exec (.bteClose q) s = .next t ∧ t.regF aBteQcmd 42 40 = 3 ∧ t.bte = s.bte ∧ t.mem = s.mem) ∧
    (∀ b, s.bteState q ≠ 0 → Dict.find? s.bte q = some b → b.packets = [] → PlainRun s (s.bteAt q) 128 → ∃ (t s1 : State) (b1 : BteQueue),
      exec (.bteClose q) s = .next t ∧ s1.bteState q = 0 ∧ s1.bteF q 28 1 = 0 ∧ t.mem = (s1.bteMirror q 16 1 0).mem ∧ Dict.find? t.bte q = some b1 ∧
      b1.packets = [] ∧ b1.kept = [] ∧ b1.draining = none) ∧
    (∀ b engine, Dict.find? s.bte q = some b → b.packets = [] → engine < 32 → PlainRun s (s.bteAt q) 128 → ∃ (t : State) (b1 : BteQueue),
      exec (.bteMove q engine) s = .next t ∧ t.bteF q 21 1 = engine ∧ t.bteState q = s.bteState q ∧ Dict.find? t.bte q = some b1 ∧ b1.packets = [] ∧
      b1.draining = none ∧ t.regF aBteQcmd 42 40 = 0)) ∧
  (∀ (s : State) (q : Nat), q < 1024 → s.bteCount ≤ q → (∃ t, exec (.bteOpen q) s = .next t ∧ t.regF aBteQcmd 42 40 = 1 ∧ t.mem = s.mem) ∧
    (∃ t, exec (.bteClose q) s = .next t ∧ t.regF aBteQcmd 42 40 = 1 ∧ t.mem = s.mem) ∧
    (∀ e, ∃ t, exec (.bteMove q e) s = .next t ∧ t.regF aBteQcmd 42 40 = 1 ∧ t.mem = s.mem)) ∧
  (∀ (s s1 : State) (q h e : Nat) (b : BteQueue), s.holdStopped q = s1 → Dict.find? s1.bte q = some b →
    (b.draining = none → exec (.bteDrainExpiry q) s = .next s1) ∧
    (b.draining = some (h, 1, e) → exec (.bteDrainExpiry q) s = .next (s1.bteCloseNow q b)) ∧
    (b.draining = some (h, 2, e) → exec (.bteDrainExpiry q) s = .next (s1.bteMoveNow q e b))) ∧
  (∀ (s : State) (q : Nat) (b : BteQueue), Dict.find? s.bte q = some b → b.due = [] → b.waiting = true → (∀ p ∈ b.packets, p.started = true) →
    s.bteState q = 1 → ∃ t, exec (.btePoll q) s = .next t ∧ .btePoll q ∈ t.agenda ∧ t.mem = s.mem ∧ Dict.find? t.bte q = some b) ∧
  (∀ (s s1 s2 : State) (q wr : Nat) (b : BteQueue) (l slot : List (List Byte × Bool)), Dict.find? s.bte q = some b → b.due = [] → b.waiting = false →
    b.draining = none → b.toReplay = [] → (b.packets.filter (fun p => !p.complete)).length < 4 → s.bteState q = 1 →
    s.readList { asid := s.bteAsid q, coil := none, unit := s.bteUnit q } (.bteQueue q) .current (pieces 64 .read 2 (s.bteUhdr q) 4) = (.data l, s1) →
    (∀ e ∈ l, e.2 = false) → ofBytes (l.map Prod.fst).flatten = wr → wr = b.seenWr → 1 ≤ (wr + 2 ^ 32 - s1.bteRd q) % 2 ^ 32 →
    (wr + 2 ^ 32 - s1.bteRd q) % 2 ^ 32 ≤ 2 ^ 31 →
    s1.readList { asid := s1.bteAsid q, coil := none, unit := s1.bteUnit q } (.bteQueue q) .current
      (pieces 64 .read 2 (s1.bteRing q + 64 * (s1.bteRd q % 2 ^ s1.bteLog2 q)) 64) = (.data slot, s2) → (∀ e ∈ slot, e.2 = false) →
    ∃ t, exec (.btePoll q) s = .next t ∧ t = ((s2.acceptPacket q (slot.map Prod.fst).flatten).forget (.bteQueue q)).pollEnd q) ∧
  (∀ (s : State) (q rd n : Nat) (slot : List Byte), s.bteRd q = rd → s.bteAcc q = n → PlainRun s (s.bteAt q) 128 →
    (recN slot 63 1 ≠ (rd >>> s.bteLog2 q) % 255 + 1 → s.acceptPacket q slot = s) ∧
    (recN slot 63 1 = (rd >>> s.bteLog2 q) % 255 + 1 → n + 1 < 2 ^ 64 → ∃ s1 : State, s1.bteRd q = (rd + 1) % 2 ^ 32 ∧ s1.bteAcc q = n + 1 ∧
      s.acceptPacket q slot = ((s1.bteMirror q 4 4 ((rd + 1) % 2 ^ 32)).updBte q (fun b =>
        { b with packets := b.packets ++ [newPacket (n + 1) slot 0] })).bteSettle q)) ∧
  (∀ (s : State) (q n k : Nat) (p : BtePacket) (b : BteQueue), ChunkUp s q n k p b → p.failAll ≠ 0 → p.noRecord = true →
    ∃ (t s1 : State) (p1 : BtePacket), exec (.bteChunk q n k) s = .next t ∧ t = s1.bteSettle q ∧ s1.packet? q n = some p1 ∧ bit p1.done k = true ∧
      bit p1.err k = true ∧ s1.mem = s.mem) ∧
  (∀ (s : State) (q n k : Nat) (p : BtePacket) (b : BteQueue), ChunkUp s q n k p b → p.failAll = 0 → n ∈ b.cancels → bit p.begun k = false →
    ∃ t, exec (.bteChunk q n k) s = .next t ∧ t = s.chunkResult q n k 8) ∧
  (∀ (s s1 s2 : State) (q n k : Nat) (p : BtePacket) (b : BteQueue) (dst : List (Option Nat)) (l : List (Acc × List Byte × Bool)) (pa : Nat → Nat),
    let e := pkElem p.bytes
    let none' := (chunkElems p.bytes k).map (fun _ => (none : Option Int))
    let fill := (chunkElems p.bytes k).map (fun _ => some ((p.bytes.drop 12).take e, false))
    ChunkUp s q n k p b → p.failAll = 0 → n ∉ b.cancels → bit p.writing k = false → pkOp p.bytes = 2 → pkFlag p.bytes 0 = false →
    pkFlag p.bytes 4 = false →
    sideAddrs p k p.dst false false none' = some dst → writeAccs (chunkWrites e dst fill) = l →
    s1 = s.updPacket q n (fun p => { p with begun := p.begun ||| 2 ^ k }) →
    s1.placeWrites (s1.bteWho q p.bytes) (l.map Prod.fst) = (.ok (l.map (fun x => .mem (pa x.1.va))), s2) →
    (∀ x ∈ l, PlainRun s2 (pa x.1.va) x.2.1.length) → (∀ x ∈ l, x.2.2 = false) →
    l.Pairwise (fun x y => pa x.1.va + x.2.1.length ≤ pa y.1.va ∨ pa y.1.va + y.2.1.length ≤ pa x.1.va) →
    ∃ t s3 : State, exec (.bteChunk q n k) s = .next t ∧ t = s3.chunkResult q n k 0 ∧
      (∀ x ∈ l, ∀ i, i < x.2.1.length → some (s3.byte (pa x.1.va + i)) = x.2.1[i]?) ∧
      ∀ a, (∀ x ∈ l, a < pa x.1.va ∨ pa x.1.va + x.2.1.length ≤ a) → s3.byte a = s2.byte a)

/-- R285, R289, R294, R295, R300: words written out from the spec's encodings and what they decode to, and words that are undefined. -/
def Obligations.DecodeSpecWords : Prop :=
  decodeTableWord 32 0x44518708 = some (.atom 5 6 7 0 2 0) ∧
  decodeTableWord 32 0x78000009 = some (.fence 2 1) ∧
  decodeTableWord 32 0x7C400014 = some (.barSync 4 1) ∧
  decodeTableWord 32 0xA0519000 = some (.cpPush 5 6 16) ∧
  decodeTableWord 64 0x12345678FC100100 = some (.li 1 0x12345678) ∧
  decodeTableWord 96 0x000000000201F90001030000 =
    some (.vAdd { sub := 0, ty := 3, la := 0, msel := 0, mneg := false, mod := 0, d := 2, a := 1, b := 0xF9, c := 0, imm := 0 }) ∧
  decodeTableWord 96 0x0000000000000000FF000000 = some (.courseTrailer 0 0 false 0) ∧
  decodeTableWord 32 0 = none ∧ decodeTableWord 32 0x9C000000 = none ∧ decodeTableWord 96 0 = none

/-- R285, R286, R289, R290: the encoding of every well-formed instruction decodes to it, whatever follows it; and the bytes that decode to an
instruction are its encoding. An event has no encoding. -/
def Obligations.EncodeDecode : Prop :=
  (∀ (i : Instr) (rest : List Byte), i.encoded = true → i.wellFormed = true →
    ((encode i).length < 3 → decodeBytes (encodeBytes i ++ rest) = some (i, rest)) ∧
    (3 ≤ (encode i).length → decodeLaneBytes (encodeBytes i ++ rest) = some (i, rest))) ∧
  (∀ (l rest : List Byte) (i : Instr), decodeBytes l = some (i, rest) →
    i.encoded = true ∧ i.wellFormed = true ∧ (encode i).length < 3 ∧ encodeBytes i ++ rest = l) ∧
  (∀ (l rest : List Byte) (i : Instr), decodeLaneBytes l = some (i, rest) →
    i.encoded = true ∧ i.wellFormed = true ∧ (encode i).length = 3 ∧ encodeBytes i ++ rest = l)

/-- R23, R50, R114, R115, R162, R285-R287, R294: a step runs the instruction that the bytes at the PC of the path with the turn decode to, or the one
its running course has reached, or the event that is chosen; which of the open steps is chosen is free (log 1). A quadrant whose path has issued
nothing picks again; one agent's accesses come up in order; a step that comes to write lines with remote copies waits. A stopped machine waits for
its module reset. -/
def Obligations.StepRuns : Prop :=
  (∀ (s s1 t : State) (x : Issuer) (tn : Turn) (w : Nat) (i : Instr), PathTurn s s1 x tn → tn.lane = false → s1.scalarOpen x = true →
    (∀ n, n < 8 → bit (t.regN (aBpCtl n)) 0 = false) → CodeWord s1 t x x.path.pc.toNat w → bits w 31 26 ≠ 0x3F →
    (decodeScalar w 0 = some i → ∀ u, exec i (t.fetched x) = .next u → step s = unblocked s1 (.next (tn.over s1 u))) ∧
    (decodeScalar w 0 = none → MayStop t x → ∃ u u1, step s = unblocked s1 (.next u) ∧ u = tn.over s1 u1 ∧
      StopsAt t u1 x { cause := .illegalInstruction, ipc := x.path.pc, spc := x.path.pc, insn := BitVec.ofNat 96 w })) ∧
  (∀ (s s1 t1 t : State) (x : Issuer) (tn : Turn) (w w' : Nat) (i : Instr), PathTurn s s1 x tn → tn.lane = false → s1.scalarOpen x = true →
    (∀ n, n < 8 → bit (t.regN (aBpCtl n)) 0 = false) → CodeWord s1 t1 x x.path.pc.toNat w → bits w 31 26 = 0x3F →
    CodeWord t1 t x (x.path.pc + 4).toNat w' → decodeScalar w w' = some i →
    ∀ u, exec i (t.fetched x) = .next u → step s = unblocked s1 (.next (tn.over s1 u))) ∧
  (∀ (s s1 u : State) (x : Issuer) (tn : Turn) (r : Running) (i : Instr), PathTurn s s1 x tn → tn.lane = true → x.strand.running = some r → r.course.path = x.id.path →
    lanesFree x = true → decodeLaneWord (r.words.getD r.pos 0) = some i → exec i s1 = .next u →
    step s = unblocked s1 (.next (tn.over s1 u))) ∧
  (∀ (tn : Turn) (s t : State),
    (tn.lane = true → tn.over s t = { t with turn := some { tn with lane := false, used := tn.used || issuedBetween s t tn.id } }) ∧
    (tn.lane = false → ∃ u, tn.over s t = u ∧ u.turn = none ∧ { u with turn := t.turn, rotations := t.rotations } = t ∧
      (tn.back = none → u.rotations = t.rotations) ∧
      (∀ q r, tn.back = some (q, r) → ∃ n : Rotation, Tab.get Rotation.start u.rotations q = n ∧
        (∀ p, p ≠ q → Tab.get Rotation.start u.rotations p = Tab.get Rotation.start t.rotations p) ∧
        (tn.used = false → issuedBetween s t tn.id = false →
          n.last = r.last ∧ n.again = r.again ∧ n.sample = (Tab.get Rotation.start t.rotations q).sample ∧ n.skip = tn.id :: r.skip) ∧
        (tn.used = true ∨ issuedBetween s t tn.id = true → n = { Tab.get Rotation.start t.rotations q with skip := [] })))) ∧
  (∀ (s s1 u : State) (n m : Nat) (i : Instr), s.tickOn = s1 → s1.power.stopped = false → (readyItems [] 0 s1.agenda)[m]? = some (i, n) →
    Config.schedule s1.tick % (s1.openSteps.length + 1) = m → exec i { s1 with agenda := s1.agenda.eraseIdx n } = .next u →
    step s = unblocked s1 (.next (if u.again then { u with agenda := i :: u.agenda, again := false } else u))) ∧
  (∀ (l : List Instr) (i : Instr) (n : Nat), (i, n) ∈ readyItems [] 0 l ↔ l[n]? = some i ∧
    ((agentOf i).1 = 255 ∨ ∀ m j, m < n → l[m]? = some j → agentOf j ≠ agentOf i)) ∧
  (∀ s t : State, (t.blocked = [] → unblocked s (.next t) = .next t) ∧
    (t.blocked ≠ [] → ∃ u, unblocked s (.next t) = .next u ∧ u.mem = s.mem ∧ u.regs = s.regs ∧ u.coils = s.coils ∧ u.agenda = s.agenda)) ∧
  (∀ s s1 : State, s.tickOn = s1 → s1.power.stopped = false → s1.turn = none →
    s1.openSteps[Config.schedule s1.tick % (s1.openSteps.length + 1)]? = none →
    ∃ h q, step s = unblocked s1 (exec (.quadrantPick h q) s1)) ∧
  (∀ s s1 : State, s.tickOn = s1 → s1.power.stopped = true →
    (Instr.moduleReset ∉ s1.agenda → step s = .fault .clocksStopped) ∧
    (Instr.moduleReset ∈ s1.agenda → step s = exec .moduleReset { s1 with agenda := s1.agenda.erase .moduleReset })) ∧
  (∀ s : State, ∃ l, s.tickOn.agenda = s.agenda ++ l ∧ (∀ i ∈ l, ∃ k, i = Instr.watchdogTimeExpiry k) ∧ s.clock ≤ s.tickOn.clock ∧
    { s.tickOn with coils := s.coils, agenda := s.agenda, tick := s.tick, clock := s.clock } = s ∧
    s.tickOn.coils.map (fun e => (e.1, { e.2 with wallUsed := 0 })) = s.coils.map (fun e => (e.1, { e.2 with wallUsed := 0 })))

/-- R4, R5, R29, R34, R100, R190: what reset leaves. Every register, in its slot of 8 bytes, reads as its map's Reset value; no bolt, coil or queue exists; MEAS, PUB and the
issue counter are 0. That memory then reads as 0 (log 4) and the counts of units (log 3) are the model's choice. -/
def Obligations.ResetValues : Prop :=
  (∀ r ∈ resetRows, State.reset.regN r.1 = r.2) ∧
  (∀ n, n < 8 → State.reset.regN (aWatchCtl n) = 3 * 2 ^ 8) ∧
  (∀ q, q < 36 → State.reset.regN (aPortStat q) = q * 2 ^ 8) ∧
  (∀ a, a % 8 = 0 → a ∉ resetRows.map Prod.fst → a ≠ aModUnits → a ≠ aModMem → (∀ n, n < 8 → a ≠ aWatchCtl n) → (∀ q, q < 36 → a ≠ aPortStat q) →
    State.reset.regN a = 0) ∧
  State.reset.coils = [] ∧ State.reset.bolts = [] ∧ State.reset.queues = [] ∧ State.reset.link.meas = [] ∧ State.reset.ply.pub = 0 ∧
  State.reset.ply.issued = 0 ∧ State.reset.power.stopped = false ∧ State.reset.turn = none ∧ (∀ a, State.reset.byte a = 0) ∧
  Memory.wf State.reset.mem = true

/-- Every step keeps the canonical form of device memory: addresses strictly rising, no byte listed that an unlisted address reads as. -/
def Obligations.StepKeepsMemoryCanonical : Prop :=
  ∀ s t : State, Memory.wf s.mem = true → step s = .next t → Memory.wf t.mem = true
end

