-- ==== Sys2Proof/Laws/State.lean ====
section
/-! SUPPORT. What each update of the state leaves alone, field by field. -/

namespace Sys2Proof.Machine

open Sys2Proof

@[simp] theorem State.push_turn (s : State) (l : List Instr) : (s.push l).turn = s.turn := rfl
@[simp] theorem State.push_tick (s : State) (l : List Instr) : (s.push l).tick = s.tick := rfl
@[simp] theorem State.push_again (s : State) (l : List Instr) : (s.push l).again = s.again := rfl
@[simp] theorem State.push_blocked (s : State) (l : List Instr) : (s.push l).blocked = s.blocked := rfl
@[simp] theorem State.push_clock (s : State) (l : List Instr) : (s.push l).clock = s.clock := rfl
@[simp] theorem State.push_regs (s : State) (l : List Instr) : (s.push l).regs = s.regs := rfl
@[simp] theorem State.push_measData (s : State) (l : List Instr) : (s.push l).measData = s.measData := rfl
@[simp] theorem State.push_mem (s : State) (l : List Instr) : (s.push l).mem = s.mem := rfl
@[simp] theorem State.push_poison (s : State) (l : List Instr) : (s.push l).poison = s.poison := rfl
@[simp] theorem State.push_resv (s : State) (l : List Instr) : (s.push l).resv = s.resv := rfl
@[simp] theorem State.push_tlb (s : State) (l : List Instr) : (s.push l).tlb = s.tlb := rfl
@[simp] theorem State.push_sram (s : State) (l : List Instr) : (s.push l).sram = s.sram := rfl
@[simp] theorem State.push_sramPoison (s : State) (l : List Instr) : (s.push l).sramPoison = s.sramPoison := rfl
@[simp] theorem State.push_roles (s : State) (l : List Instr) : (s.push l).roles = s.roles := rfl
@[simp] theorem State.push_l1 (s : State) (l : List Instr) : (s.push l).l1 = s.l1 := rfl
@[simp] theorem State.push_fifos (s : State) (l : List Instr) : (s.push l).fifos = s.fifos := rfl
@[simp] theorem State.push_rotations (s : State) (l : List Instr) : (s.push l).rotations = s.rotations := rfl
@[simp] theorem State.push_coils (s : State) (l : List Instr) : (s.push l).coils = s.coils := rfl
@[simp] theorem State.push_bolts (s : State) (l : List Instr) : (s.push l).bolts = s.bolts := rfl
@[simp] theorem State.push_boltOrder (s : State) (l : List Instr) : (s.push l).boltOrder = s.boltOrder := rfl
@[simp] theorem State.push_placements (s : State) (l : List Instr) : (s.push l).placements = s.placements := rfl
@[simp] theorem State.push_ops (s : State) (l : List Instr) : (s.push l).ops = s.ops := rfl
@[simp] theorem State.push_copies (s : State) (l : List Instr) : (s.push l).copies = s.copies := rfl
@[simp] theorem State.push_nextOp (s : State) (l : List Instr) : (s.push l).nextOp = s.nextOp := rfl
@[simp] theorem State.push_remotes (s : State) (l : List Instr) : (s.push l).remotes = s.remotes := rfl
@[simp] theorem State.push_arrived (s : State) (l : List Instr) : (s.push l).arrived = s.arrived := rfl
@[simp] theorem State.push_faults (s : State) (l : List Instr) : (s.push l).faults = s.faults := rfl
@[simp] theorem State.push_upcalls (s : State) (l : List Instr) : (s.push l).upcalls = s.upcalls := rfl
@[simp] theorem State.push_traps (s : State) (l : List Instr) : (s.push l).traps = s.traps := rfl
@[simp] theorem State.push_seip (s : State) (l : List Instr) : (s.push l).seip = s.seip := rfl
@[simp] theorem State.push_ply (s : State) (l : List Instr) : (s.push l).ply = s.ply := rfl
@[simp] theorem State.push_queues (s : State) (l : List Instr) : (s.push l).queues = s.queues := rfl
@[simp] theorem State.push_launches (s : State) (l : List Instr) : (s.push l).launches = s.launches := rfl
@[simp] theorem State.push_lastServed (s : State) (l : List Instr) : (s.push l).lastServed = s.lastServed := rfl
@[simp] theorem State.push_halted (s : State) (l : List Instr) : (s.push l).halted = s.halted := rfl
@[simp] theorem State.push_lastMismatch (s : State) (l : List Instr) : (s.push l).lastMismatch = s.lastMismatch := rfl
@[simp] theorem State.push_bte (s : State) (l : List Instr) : (s.push l).bte = s.bte := rfl
@[simp] theorem State.push_slots (s : State) (l : List Instr) : (s.push l).slots = s.slots := rfl
@[simp] theorem State.push_link (s : State) (l : List Instr) : (s.push l).link = s.link := rfl
@[simp] theorem State.push_outbox (s : State) (l : List Instr) : (s.push l).outbox = s.outbox := rfl
@[simp] theorem State.push_power (s : State) (l : List Instr) : (s.push l).power = s.power := rfl
@[simp] theorem State.push_fabric (s : State) (l : List Instr) : (s.push l).fabric = s.fabric := rfl
@[simp] theorem State.push_debugUnit (s : State) (l : List Instr) : (s.push l).debugUnit = s.debugUnit := rfl

@[simp] theorem State.wait_agenda (s : State) : (s.wait).agenda = s.agenda := rfl
@[simp] theorem State.wait_turn (s : State) : (s.wait).turn = s.turn := rfl
@[simp] theorem State.wait_tick (s : State) : (s.wait).tick = s.tick := rfl
@[simp] theorem State.wait_blocked (s : State) : (s.wait).blocked = s.blocked := rfl
@[simp] theorem State.wait_clock (s : State) : (s.wait).clock = s.clock := rfl
@[simp] theorem State.wait_regs (s : State) : (s.wait).regs = s.regs := rfl
@[simp] theorem State.wait_measData (s : State) : (s.wait).measData = s.measData := rfl
@[simp] theorem State.wait_mem (s : State) : (s.wait).mem = s.mem := rfl
@[simp] theorem State.wait_poison (s : State) : (s.wait).poison = s.poison := rfl
@[simp] theorem State.wait_resv (s : State) : (s.wait).resv = s.resv := rfl
@[simp] theorem State.wait_tlb (s : State) : (s.wait).tlb = s.tlb := rfl
@[simp] theorem State.wait_sram (s : State) : (s.wait).sram = s.sram := rfl
@[simp] theorem State.wait_sramPoison (s : State) : (s.wait).sramPoison = s.sramPoison := rfl
@[simp] theorem State.wait_roles (s : State) : (s.wait).roles = s.roles := rfl
@[simp] theorem State.wait_l1 (s : State) : (s.wait).l1 = s.l1 := rfl
@[simp] theorem State.wait_fifos (s : State) : (s.wait).fifos = s.fifos := rfl
@[simp] theorem State.wait_rotations (s : State) : (s.wait).rotations = s.rotations := rfl
@[simp] theorem State.wait_coils (s : State) : (s.wait).coils = s.coils := rfl
@[simp] theorem State.wait_bolts (s : State) : (s.wait).bolts = s.bolts := rfl
@[simp] theorem State.wait_boltOrder (s : State) : (s.wait).boltOrder = s.boltOrder := rfl
@[simp] theorem State.wait_placements (s : State) : (s.wait).placements = s.placements := rfl
@[simp] theorem State.wait_ops (s : State) : (s.wait).ops = s.ops := rfl
@[simp] theorem State.wait_copies (s : State) : (s.wait).copies = s.copies := rfl
@[simp] theorem State.wait_nextOp (s : State) : (s.wait).nextOp = s.nextOp := rfl
@[simp] theorem State.wait_remotes (s : State) : (s.wait).remotes = s.remotes := rfl
@[simp] theorem State.wait_arrived (s : State) : (s.wait).arrived = s.arrived := rfl
@[simp] theorem State.wait_faults (s : State) : (s.wait).faults = s.faults := rfl
@[simp] theorem State.wait_upcalls (s : State) : (s.wait).upcalls = s.upcalls := rfl
@[simp] theorem State.wait_traps (s : State) : (s.wait).traps = s.traps := rfl
@[simp] theorem State.wait_seip (s : State) : (s.wait).seip = s.seip := rfl
@[simp] theorem State.wait_ply (s : State) : (s.wait).ply = s.ply := rfl
@[simp] theorem State.wait_queues (s : State) : (s.wait).queues = s.queues := rfl
@[simp] theorem State.wait_launches (s : State) : (s.wait).launches = s.launches := rfl
@[simp] theorem State.wait_lastServed (s : State) : (s.wait).lastServed = s.lastServed := rfl
@[simp] theorem State.wait_halted (s : State) : (s.wait).halted = s.halted := rfl
@[simp] theorem State.wait_lastMismatch (s : State) : (s.wait).lastMismatch = s.lastMismatch := rfl
@[simp] theorem State.wait_bte (s : State) : (s.wait).bte = s.bte := rfl
@[simp] theorem State.wait_slots (s : State) : (s.wait).slots = s.slots := rfl
@[simp] theorem State.wait_link (s : State) : (s.wait).link = s.link := rfl
@[simp] theorem State.wait_outbox (s : State) : (s.wait).outbox = s.outbox := rfl
@[simp] theorem State.wait_power (s : State) : (s.wait).power = s.power := rfl
@[simp] theorem State.wait_fabric (s : State) : (s.wait).fabric = s.fabric := rfl
@[simp] theorem State.wait_debugUnit (s : State) : (s.wait).debugUnit = s.debugUnit := rfl

@[simp] theorem State.draw_agenda (s : State) : (s.draw).agenda = s.agenda := rfl
@[simp] theorem State.draw_turn (s : State) : (s.draw).turn = s.turn := rfl
@[simp] theorem State.draw_again (s : State) : (s.draw).again = s.again := rfl
@[simp] theorem State.draw_blocked (s : State) : (s.draw).blocked = s.blocked := rfl
@[simp] theorem State.draw_clock (s : State) : (s.draw).clock = s.clock := rfl
@[simp] theorem State.draw_regs (s : State) : (s.draw).regs = s.regs := rfl
@[simp] theorem State.draw_measData (s : State) : (s.draw).measData = s.measData := rfl
@[simp] theorem State.draw_mem (s : State) : (s.draw).mem = s.mem := rfl
@[simp] theorem State.draw_poison (s : State) : (s.draw).poison = s.poison := rfl
@[simp] theorem State.draw_resv (s : State) : (s.draw).resv = s.resv := rfl
@[simp] theorem State.draw_tlb (s : State) : (s.draw).tlb = s.tlb := rfl
@[simp] theorem State.draw_sram (s : State) : (s.draw).sram = s.sram := rfl
@[simp] theorem State.draw_sramPoison (s : State) : (s.draw).sramPoison = s.sramPoison := rfl
@[simp] theorem State.draw_roles (s : State) : (s.draw).roles = s.roles := rfl
@[simp] theorem State.draw_l1 (s : State) : (s.draw).l1 = s.l1 := rfl
@[simp] theorem State.draw_fifos (s : State) : (s.draw).fifos = s.fifos := rfl
@[simp] theorem State.draw_rotations (s : State) : (s.draw).rotations = s.rotations := rfl
@[simp] theorem State.draw_coils (s : State) : (s.draw).coils = s.coils := rfl
@[simp] theorem State.draw_bolts (s : State) : (s.draw).bolts = s.bolts := rfl
@[simp] theorem State.draw_boltOrder (s : State) : (s.draw).boltOrder = s.boltOrder := rfl
@[simp] theorem State.draw_placements (s : State) : (s.draw).placements = s.placements := rfl
@[simp] theorem State.draw_ops (s : State) : (s.draw).ops = s.ops := rfl
@[simp] theorem State.draw_copies (s : State) : (s.draw).copies = s.copies := rfl
@[simp] theorem State.draw_nextOp (s : State) : (s.draw).nextOp = s.nextOp := rfl
@[simp] theorem State.draw_remotes (s : State) : (s.draw).remotes = s.remotes := rfl
@[simp] theorem State.draw_arrived (s : State) : (s.draw).arrived = s.arrived := rfl
@[simp] theorem State.draw_faults (s : State) : (s.draw).faults = s.faults := rfl
@[simp] theorem State.draw_upcalls (s : State) : (s.draw).upcalls = s.upcalls := rfl
@[simp] theorem State.draw_traps (s : State) : (s.draw).traps = s.traps := rfl
@[simp] theorem State.draw_seip (s : State) : (s.draw).seip = s.seip := rfl
@[simp] theorem State.draw_ply (s : State) : (s.draw).ply = s.ply := rfl
@[simp] theorem State.draw_queues (s : State) : (s.draw).queues = s.queues := rfl
@[simp] theorem State.draw_launches (s : State) : (s.draw).launches = s.launches := rfl
@[simp] theorem State.draw_lastServed (s : State) : (s.draw).lastServed = s.lastServed := rfl
@[simp] theorem State.draw_halted (s : State) : (s.draw).halted = s.halted := rfl
@[simp] theorem State.draw_lastMismatch (s : State) : (s.draw).lastMismatch = s.lastMismatch := rfl
@[simp] theorem State.draw_bte (s : State) : (s.draw).bte = s.bte := rfl
@[simp] theorem State.draw_slots (s : State) : (s.draw).slots = s.slots := rfl
@[simp] theorem State.draw_link (s : State) : (s.draw).link = s.link := rfl
@[simp] theorem State.draw_outbox (s : State) : (s.draw).outbox = s.outbox := rfl
@[simp] theorem State.draw_power (s : State) : (s.draw).power = s.power := rfl
@[simp] theorem State.draw_fabric (s : State) : (s.draw).fabric = s.fabric := rfl
@[simp] theorem State.draw_debugUnit (s : State) : (s.draw).debugUnit = s.debugUnit := rfl

@[simp] theorem State.send_agenda (s : State) (m : OutMsg) : (s.send m).agenda = s.agenda := rfl
@[simp] theorem State.send_turn (s : State) (m : OutMsg) : (s.send m).turn = s.turn := rfl
@[simp] theorem State.send_tick (s : State) (m : OutMsg) : (s.send m).tick = s.tick := rfl
@[simp] theorem State.send_again (s : State) (m : OutMsg) : (s.send m).again = s.again := rfl
@[simp] theorem State.send_blocked (s : State) (m : OutMsg) : (s.send m).blocked = s.blocked := rfl
@[simp] theorem State.send_clock (s : State) (m : OutMsg) : (s.send m).clock = s.clock := rfl
@[simp] theorem State.send_regs (s : State) (m : OutMsg) : (s.send m).regs = s.regs := rfl
@[simp] theorem State.send_measData (s : State) (m : OutMsg) : (s.send m).measData = s.measData := rfl
@[simp] theorem State.send_mem (s : State) (m : OutMsg) : (s.send m).mem = s.mem := rfl
@[simp] theorem State.send_poison (s : State) (m : OutMsg) : (s.send m).poison = s.poison := rfl
@[simp] theorem State.send_resv (s : State) (m : OutMsg) : (s.send m).resv = s.resv := rfl
@[simp] theorem State.send_tlb (s : State) (m : OutMsg) : (s.send m).tlb = s.tlb := rfl
@[simp] theorem State.send_sram (s : State) (m : OutMsg) : (s.send m).sram = s.sram := rfl
@[simp] theorem State.send_sramPoison (s : State) (m : OutMsg) : (s.send m).sramPoison = s.sramPoison := rfl
@[simp] theorem State.send_roles (s : State) (m : OutMsg) : (s.send m).roles = s.roles := rfl
@[simp] theorem State.send_l1 (s : State) (m : OutMsg) : (s.send m).l1 = s.l1 := rfl
@[simp] theorem State.send_fifos (s : State) (m : OutMsg) : (s.send m).fifos = s.fifos := rfl
@[simp] theorem State.send_rotations (s : State) (m : OutMsg) : (s.send m).rotations = s.rotations := rfl
@[simp] theorem State.send_coils (s : State) (m : OutMsg) : (s.send m).coils = s.coils := rfl
@[simp] theorem State.send_bolts (s : State) (m : OutMsg) : (s.send m).bolts = s.bolts := rfl
@[simp] theorem State.send_boltOrder (s : State) (m : OutMsg) : (s.send m).boltOrder = s.boltOrder := rfl
@[simp] theorem State.send_placements (s : State) (m : OutMsg) : (s.send m).placements = s.placements := rfl
@[simp] theorem State.send_ops (s : State) (m : OutMsg) : (s.send m).ops = s.ops := rfl
@[simp] theorem State.send_copies (s : State) (m : OutMsg) : (s.send m).copies = s.copies := rfl
@[simp] theorem State.send_nextOp (s : State) (m : OutMsg) : (s.send m).nextOp = s.nextOp := rfl
@[simp] theorem State.send_remotes (s : State) (m : OutMsg) : (s.send m).remotes = s.remotes := rfl
@[simp] theorem State.send_arrived (s : State) (m : OutMsg) : (s.send m).arrived = s.arrived := rfl
@[simp] theorem State.send_faults (s : State) (m : OutMsg) : (s.send m).faults = s.faults := rfl
@[simp] theorem State.send_upcalls (s : State) (m : OutMsg) : (s.send m).upcalls = s.upcalls := rfl
@[simp] theorem State.send_traps (s : State) (m : OutMsg) : (s.send m).traps = s.traps := rfl
@[simp] theorem State.send_seip (s : State) (m : OutMsg) : (s.send m).seip = s.seip := rfl
@[simp] theorem State.send_ply (s : State) (m : OutMsg) : (s.send m).ply = s.ply := rfl
@[simp] theorem State.send_queues (s : State) (m : OutMsg) : (s.send m).queues = s.queues := rfl
@[simp] theorem State.send_launches (s : State) (m : OutMsg) : (s.send m).launches = s.launches := rfl
@[simp] theorem State.send_lastServed (s : State) (m : OutMsg) : (s.send m).lastServed = s.lastServed := rfl
@[simp] theorem State.send_halted (s : State) (m : OutMsg) : (s.send m).halted = s.halted := rfl
@[simp] theorem State.send_lastMismatch (s : State) (m : OutMsg) : (s.send m).lastMismatch = s.lastMismatch := rfl
@[simp] theorem State.send_bte (s : State) (m : OutMsg) : (s.send m).bte = s.bte := rfl
@[simp] theorem State.send_slots (s : State) (m : OutMsg) : (s.send m).slots = s.slots := rfl
@[simp] theorem State.send_link (s : State) (m : OutMsg) : (s.send m).link = s.link := rfl
@[simp] theorem State.send_power (s : State) (m : OutMsg) : (s.send m).power = s.power := rfl
@[simp] theorem State.send_fabric (s : State) (m : OutMsg) : (s.send m).fabric = s.fabric := rfl
@[simp] theorem State.send_debugUnit (s : State) (m : OutMsg) : (s.send m).debugUnit = s.debugUnit := rfl

@[simp] theorem State.poke_agenda (s : State) (pa : Nat) (l : List Byte) (bad : Bool) : (s.poke pa l bad).agenda = s.agenda := rfl
@[simp] theorem State.poke_turn (s : State) (pa : Nat) (l : List Byte) (bad : Bool) : (s.poke pa l bad).turn = s.turn := rfl
@[simp] theorem State.poke_tick (s : State) (pa : Nat) (l : List Byte) (bad : Bool) : (s.poke pa l bad).tick = s.tick := rfl
@[simp] theorem State.poke_again (s : State) (pa : Nat) (l : List Byte) (bad : Bool) : (s.poke pa l bad).again = s.again := rfl
@[simp] theorem State.poke_blocked (s : State) (pa : Nat) (l : List Byte) (bad : Bool) : (s.poke pa l bad).blocked = s.blocked := rfl
@[simp] theorem State.poke_clock (s : State) (pa : Nat) (l : List Byte) (bad : Bool) : (s.poke pa l bad).clock = s.clock := rfl
@[simp] theorem State.poke_regs (s : State) (pa : Nat) (l : List Byte) (bad : Bool) : (s.poke pa l bad).regs = s.regs := rfl
@[simp] theorem State.poke_measData (s : State) (pa : Nat) (l : List Byte) (bad : Bool) : (s.poke pa l bad).measData = s.measData := rfl
@[simp] theorem State.poke_tlb (s : State) (pa : Nat) (l : List Byte) (bad : Bool) : (s.poke pa l bad).tlb = s.tlb := rfl
@[simp] theorem State.poke_sram (s : State) (pa : Nat) (l : List Byte) (bad : Bool) : (s.poke pa l bad).sram = s.sram := rfl
@[simp] theorem State.poke_sramPoison (s : State) (pa : Nat) (l : List Byte) (bad : Bool) : (s.poke pa l bad).sramPoison = s.sramPoison := rfl
@[simp] theorem State.poke_roles (s : State) (pa : Nat) (l : List Byte) (bad : Bool) : (s.poke pa l bad).roles = s.roles := rfl
@[simp] theorem State.poke_l1 (s : State) (pa : Nat) (l : List Byte) (bad : Bool) : (s.poke pa l bad).l1 = s.l1 := rfl
@[simp] theorem State.poke_fifos (s : State) (pa : Nat) (l : List Byte) (bad : Bool) : (s.poke pa l bad).fifos = s.fifos := rfl
@[simp] theorem State.poke_rotations (s : State) (pa : Nat) (l : List Byte) (bad : Bool) : (s.poke pa l bad).rotations = s.rotations := rfl
@[simp] theorem State.poke_coils (s : State) (pa : Nat) (l : List Byte) (bad : Bool) : (s.poke pa l bad).coils = s.coils := rfl
@[simp] theorem State.poke_bolts (s : State) (pa : Nat) (l : List Byte) (bad : Bool) : (s.poke pa l bad).bolts = s.bolts := rfl
@[simp] theorem State.poke_boltOrder (s : State) (pa : Nat) (l : List Byte) (bad : Bool) : (s.poke pa l bad).boltOrder = s.boltOrder := rfl
@[simp] theorem State.poke_placements (s : State) (pa : Nat) (l : List Byte) (bad : Bool) : (s.poke pa l bad).placements = s.placements := rfl
@[simp] theorem State.poke_ops (s : State) (pa : Nat) (l : List Byte) (bad : Bool) : (s.poke pa l bad).ops = s.ops := rfl
@[simp] theorem State.poke_copies (s : State) (pa : Nat) (l : List Byte) (bad : Bool) : (s.poke pa l bad).copies = s.copies := rfl
@[simp] theorem State.poke_nextOp (s : State) (pa : Nat) (l : List Byte) (bad : Bool) : (s.poke pa l bad).nextOp = s.nextOp := rfl
@[simp] theorem State.poke_remotes (s : State) (pa : Nat) (l : List Byte) (bad : Bool) : (s.poke pa l bad).remotes = s.remotes := rfl
@[simp] theorem State.poke_arrived (s : State) (pa : Nat) (l : List Byte) (bad : Bool) : (s.poke pa l bad).arrived = s.arrived := rfl
@[simp] theorem State.poke_faults (s : State) (pa : Nat) (l : List Byte) (bad : Bool) : (s.poke pa l bad).faults = s.faults := rfl
@[simp] theorem State.poke_upcalls (s : State) (pa : Nat) (l : List Byte) (bad : Bool) : (s.poke pa l bad).upcalls = s.upcalls := rfl
@[simp] theorem State.poke_traps (s : State) (pa : Nat) (l : List Byte) (bad : Bool) : (s.poke pa l bad).traps = s.traps := rfl
@[simp] theorem State.poke_seip (s : State) (pa : Nat) (l : List Byte) (bad : Bool) : (s.poke pa l bad).seip = s.seip := rfl
@[simp] theorem State.poke_ply (s : State) (pa : Nat) (l : List Byte) (bad : Bool) : (s.poke pa l bad).ply = s.ply := rfl
@[simp] theorem State.poke_queues (s : State) (pa : Nat) (l : List Byte) (bad : Bool) : (s.poke pa l bad).queues = s.queues := rfl
@[simp] theorem State.poke_launches (s : State) (pa : Nat) (l : List Byte) (bad : Bool) : (s.poke pa l bad).launches = s.launches := rfl
@[simp] theorem State.poke_lastServed (s : State) (pa : Nat) (l : List Byte) (bad : Bool) : (s.poke pa l bad).lastServed = s.lastServed := rfl
@[simp] theorem State.poke_halted (s : State) (pa : Nat) (l : List Byte) (bad : Bool) : (s.poke pa l bad).halted = s.halted := rfl
@[simp] theorem State.poke_lastMismatch (s : State) (pa : Nat) (l : List Byte) (bad : Bool) : (s.poke pa l bad).lastMismatch = s.lastMismatch := rfl
@[simp] theorem State.poke_bte (s : State) (pa : Nat) (l : List Byte) (bad : Bool) : (s.poke pa l bad).bte = s.bte := rfl
@[simp] theorem State.poke_slots (s : State) (pa : Nat) (l : List Byte) (bad : Bool) : (s.poke pa l bad).slots = s.slots := rfl
@[simp] theorem State.poke_link (s : State) (pa : Nat) (l : List Byte) (bad : Bool) : (s.poke pa l bad).link = s.link := rfl
@[simp] theorem State.poke_outbox (s : State) (pa : Nat) (l : List Byte) (bad : Bool) : (s.poke pa l bad).outbox = s.outbox := rfl
@[simp] theorem State.poke_power (s : State) (pa : Nat) (l : List Byte) (bad : Bool) : (s.poke pa l bad).power = s.power := rfl
@[simp] theorem State.poke_fabric (s : State) (pa : Nat) (l : List Byte) (bad : Bool) : (s.poke pa l bad).fabric = s.fabric := rfl
@[simp] theorem State.poke_debugUnit (s : State) (pa : Nat) (l : List Byte) (bad : Bool) : (s.poke pa l bad).debugUnit = s.debugUnit := rfl

@[simp] theorem State.sramWrite_agenda (s : State) (k : Nat) (l : List Byte) (bad : Bool) : (s.sramWrite k l bad).agenda = s.agenda := rfl
@[simp] theorem State.sramWrite_turn (s : State) (k : Nat) (l : List Byte) (bad : Bool) : (s.sramWrite k l bad).turn = s.turn := rfl
@[simp] theorem State.sramWrite_tick (s : State) (k : Nat) (l : List Byte) (bad : Bool) : (s.sramWrite k l bad).tick = s.tick := rfl
@[simp] theorem State.sramWrite_again (s : State) (k : Nat) (l : List Byte) (bad : Bool) : (s.sramWrite k l bad).again = s.again := rfl
@[simp] theorem State.sramWrite_blocked (s : State) (k : Nat) (l : List Byte) (bad : Bool) : (s.sramWrite k l bad).blocked = s.blocked := rfl
@[simp] theorem State.sramWrite_clock (s : State) (k : Nat) (l : List Byte) (bad : Bool) : (s.sramWrite k l bad).clock = s.clock := rfl
@[simp] theorem State.sramWrite_regs (s : State) (k : Nat) (l : List Byte) (bad : Bool) : (s.sramWrite k l bad).regs = s.regs := rfl
@[simp] theorem State.sramWrite_measData (s : State) (k : Nat) (l : List Byte) (bad : Bool) : (s.sramWrite k l bad).measData = s.measData := rfl
@[simp] theorem State.sramWrite_mem (s : State) (k : Nat) (l : List Byte) (bad : Bool) : (s.sramWrite k l bad).mem = s.mem := rfl
@[simp] theorem State.sramWrite_poison (s : State) (k : Nat) (l : List Byte) (bad : Bool) : (s.sramWrite k l bad).poison = s.poison := rfl
@[simp] theorem State.sramWrite_resv (s : State) (k : Nat) (l : List Byte) (bad : Bool) : (s.sramWrite k l bad).resv = s.resv := rfl
@[simp] theorem State.sramWrite_tlb (s : State) (k : Nat) (l : List Byte) (bad : Bool) : (s.sramWrite k l bad).tlb = s.tlb := rfl
@[simp] theorem State.sramWrite_roles (s : State) (k : Nat) (l : List Byte) (bad : Bool) : (s.sramWrite k l bad).roles = s.roles := rfl
@[simp] theorem State.sramWrite_l1 (s : State) (k : Nat) (l : List Byte) (bad : Bool) : (s.sramWrite k l bad).l1 = s.l1 := rfl
@[simp] theorem State.sramWrite_fifos (s : State) (k : Nat) (l : List Byte) (bad : Bool) : (s.sramWrite k l bad).fifos = s.fifos := rfl
@[simp] theorem State.sramWrite_rotations (s : State) (k : Nat) (l : List Byte) (bad : Bool) : (s.sramWrite k l bad).rotations = s.rotations := rfl
@[simp] theorem State.sramWrite_coils (s : State) (k : Nat) (l : List Byte) (bad : Bool) : (s.sramWrite k l bad).coils = s.coils := rfl
@[simp] theorem State.sramWrite_bolts (s : State) (k : Nat) (l : List Byte) (bad : Bool) : (s.sramWrite k l bad).bolts = s.bolts := rfl
@[simp] theorem State.sramWrite_boltOrder (s : State) (k : Nat) (l : List Byte) (bad : Bool) : (s.sramWrite k l bad).boltOrder = s.boltOrder := rfl
@[simp] theorem State.sramWrite_placements (s : State) (k : Nat) (l : List Byte) (bad : Bool) : (s.sramWrite k l bad).placements = s.placements := rfl
@[simp] theorem State.sramWrite_ops (s : State) (k : Nat) (l : List Byte) (bad : Bool) : (s.sramWrite k l bad).ops = s.ops := rfl
@[simp] theorem State.sramWrite_copies (s : State) (k : Nat) (l : List Byte) (bad : Bool) : (s.sramWrite k l bad).copies = s.copies := rfl
@[simp] theorem State.sramWrite_nextOp (s : State) (k : Nat) (l : List Byte) (bad : Bool) : (s.sramWrite k l bad).nextOp = s.nextOp := rfl
@[simp] theorem State.sramWrite_remotes (s : State) (k : Nat) (l : List Byte) (bad : Bool) : (s.sramWrite k l bad).remotes = s.remotes := rfl
@[simp] theorem State.sramWrite_arrived (s : State) (k : Nat) (l : List Byte) (bad : Bool) : (s.sramWrite k l bad).arrived = s.arrived := rfl
@[simp] theorem State.sramWrite_faults (s : State) (k : Nat) (l : List Byte) (bad : Bool) : (s.sramWrite k l bad).faults = s.faults := rfl
@[simp] theorem State.sramWrite_upcalls (s : State) (k : Nat) (l : List Byte) (bad : Bool) : (s.sramWrite k l bad).upcalls = s.upcalls := rfl
@[simp] theorem State.sramWrite_traps (s : State) (k : Nat) (l : List Byte) (bad : Bool) : (s.sramWrite k l bad).traps = s.traps := rfl
@[simp] theorem State.sramWrite_seip (s : State) (k : Nat) (l : List Byte) (bad : Bool) : (s.sramWrite k l bad).seip = s.seip := rfl
@[simp] theorem State.sramWrite_ply (s : State) (k : Nat) (l : List Byte) (bad : Bool) : (s.sramWrite k l bad).ply = s.ply := rfl
@[simp] theorem State.sramWrite_queues (s : State) (k : Nat) (l : List Byte) (bad : Bool) : (s.sramWrite k l bad).queues = s.queues := rfl
@[simp] theorem State.sramWrite_launches (s : State) (k : Nat) (l : List Byte) (bad : Bool) : (s.sramWrite k l bad).launches = s.launches := rfl
@[simp] theorem State.sramWrite_lastServed (s : State) (k : Nat) (l : List Byte) (bad : Bool) : (s.sramWrite k l bad).lastServed = s.lastServed := rfl
@[simp] theorem State.sramWrite_halted (s : State) (k : Nat) (l : List Byte) (bad : Bool) : (s.sramWrite k l bad).halted = s.halted := rfl
@[simp] theorem State.sramWrite_lastMismatch (s : State) (k : Nat) (l : List Byte) (bad : Bool) : (s.sramWrite k l bad).lastMismatch = s.lastMismatch := rfl
@[simp] theorem State.sramWrite_bte (s : State) (k : Nat) (l : List Byte) (bad : Bool) : (s.sramWrite k l bad).bte = s.bte := rfl
@[simp] theorem State.sramWrite_slots (s : State) (k : Nat) (l : List Byte) (bad : Bool) : (s.sramWrite k l bad).slots = s.slots := rfl
@[simp] theorem State.sramWrite_link (s : State) (k : Nat) (l : List Byte) (bad : Bool) : (s.sramWrite k l bad).link = s.link := rfl
@[simp] theorem State.sramWrite_outbox (s : State) (k : Nat) (l : List Byte) (bad : Bool) : (s.sramWrite k l bad).outbox = s.outbox := rfl
@[simp] theorem State.sramWrite_power (s : State) (k : Nat) (l : List Byte) (bad : Bool) : (s.sramWrite k l bad).power = s.power := rfl
@[simp] theorem State.sramWrite_fabric (s : State) (k : Nat) (l : List Byte) (bad : Bool) : (s.sramWrite k l bad).fabric = s.fabric := rfl
@[simp] theorem State.sramWrite_debugUnit (s : State) (k : Nat) (l : List Byte) (bad : Bool) : (s.sramWrite k l bad).debugUnit = s.debugUnit := rfl

@[simp] theorem State.setReg_agenda (s : State) (a : Nat) (v : W64) : (s.setReg a v).agenda = s.agenda := rfl
@[simp] theorem State.setReg_turn (s : State) (a : Nat) (v : W64) : (s.setReg a v).turn = s.turn := rfl
@[simp] theorem State.setReg_tick (s : State) (a : Nat) (v : W64) : (s.setReg a v).tick = s.tick := rfl
@[simp] theorem State.setReg_again (s : State) (a : Nat) (v : W64) : (s.setReg a v).again = s.again := rfl
@[simp] theorem State.setReg_blocked (s : State) (a : Nat) (v : W64) : (s.setReg a v).blocked = s.blocked := rfl
@[simp] theorem State.setReg_clock (s : State) (a : Nat) (v : W64) : (s.setReg a v).clock = s.clock := rfl
@[simp] theorem State.setReg_measData (s : State) (a : Nat) (v : W64) : (s.setReg a v).measData = s.measData := rfl
@[simp] theorem State.setReg_mem (s : State) (a : Nat) (v : W64) : (s.setReg a v).mem = s.mem := rfl
@[simp] theorem State.setReg_poison (s : State) (a : Nat) (v : W64) : (s.setReg a v).poison = s.poison := rfl
@[simp] theorem State.setReg_resv (s : State) (a : Nat) (v : W64) : (s.setReg a v).resv = s.resv := rfl
@[simp] theorem State.setReg_tlb (s : State) (a : Nat) (v : W64) : (s.setReg a v).tlb = s.tlb := rfl
@[simp] theorem State.setReg_sram (s : State) (a : Nat) (v : W64) : (s.setReg a v).sram = s.sram := rfl
@[simp] theorem State.setReg_sramPoison (s : State) (a : Nat) (v : W64) : (s.setReg a v).sramPoison = s.sramPoison := rfl
@[simp] theorem State.setReg_roles (s : State) (a : Nat) (v : W64) : (s.setReg a v).roles = s.roles := rfl
@[simp] theorem State.setReg_l1 (s : State) (a : Nat) (v : W64) : (s.setReg a v).l1 = s.l1 := rfl
@[simp] theorem State.setReg_fifos (s : State) (a : Nat) (v : W64) : (s.setReg a v).fifos = s.fifos := rfl
@[simp] theorem State.setReg_rotations (s : State) (a : Nat) (v : W64) : (s.setReg a v).rotations = s.rotations := rfl
@[simp] theorem State.setReg_coils (s : State) (a : Nat) (v : W64) : (s.setReg a v).coils = s.coils := rfl
@[simp] theorem State.setReg_bolts (s : State) (a : Nat) (v : W64) : (s.setReg a v).bolts = s.bolts := rfl
@[simp] theorem State.setReg_boltOrder (s : State) (a : Nat) (v : W64) : (s.setReg a v).boltOrder = s.boltOrder := rfl
@[simp] theorem State.setReg_placements (s : State) (a : Nat) (v : W64) : (s.setReg a v).placements = s.placements := rfl
@[simp] theorem State.setReg_ops (s : State) (a : Nat) (v : W64) : (s.setReg a v).ops = s.ops := rfl
@[simp] theorem State.setReg_copies (s : State) (a : Nat) (v : W64) : (s.setReg a v).copies = s.copies := rfl
@[simp] theorem State.setReg_nextOp (s : State) (a : Nat) (v : W64) : (s.setReg a v).nextOp = s.nextOp := rfl
@[simp] theorem State.setReg_remotes (s : State) (a : Nat) (v : W64) : (s.setReg a v).remotes = s.remotes := rfl
@[simp] theorem State.setReg_arrived (s : State) (a : Nat) (v : W64) : (s.setReg a v).arrived = s.arrived := rfl
@[simp] theorem State.setReg_faults (s : State) (a : Nat) (v : W64) : (s.setReg a v).faults = s.faults := rfl
@[simp] theorem State.setReg_upcalls (s : State) (a : Nat) (v : W64) : (s.setReg a v).upcalls = s.upcalls := rfl
@[simp] theorem State.setReg_traps (s : State) (a : Nat) (v : W64) : (s.setReg a v).traps = s.traps := rfl
@[simp] theorem State.setReg_seip (s : State) (a : Nat) (v : W64) : (s.setReg a v).seip = s.seip := rfl
@[simp] theorem State.setReg_ply (s : State) (a : Nat) (v : W64) : (s.setReg a v).ply = s.ply := rfl
@[simp] theorem State.setReg_queues (s : State) (a : Nat) (v : W64) : (s.setReg a v).queues = s.queues := rfl
@[simp] theorem State.setReg_launches (s : State) (a : Nat) (v : W64) : (s.setReg a v).launches = s.launches := rfl
@[simp] theorem State.setReg_lastServed (s : State) (a : Nat) (v : W64) : (s.setReg a v).lastServed = s.lastServed := rfl
@[simp] theorem State.setReg_halted (s : State) (a : Nat) (v : W64) : (s.setReg a v).halted = s.halted := rfl
@[simp] theorem State.setReg_lastMismatch (s : State) (a : Nat) (v : W64) : (s.setReg a v).lastMismatch = s.lastMismatch := rfl
@[simp] theorem State.setReg_bte (s : State) (a : Nat) (v : W64) : (s.setReg a v).bte = s.bte := rfl
@[simp] theorem State.setReg_slots (s : State) (a : Nat) (v : W64) : (s.setReg a v).slots = s.slots := rfl
@[simp] theorem State.setReg_link (s : State) (a : Nat) (v : W64) : (s.setReg a v).link = s.link := rfl
@[simp] theorem State.setReg_outbox (s : State) (a : Nat) (v : W64) : (s.setReg a v).outbox = s.outbox := rfl
@[simp] theorem State.setReg_power (s : State) (a : Nat) (v : W64) : (s.setReg a v).power = s.power := rfl
@[simp] theorem State.setReg_fabric (s : State) (a : Nat) (v : W64) : (s.setReg a v).fabric = s.fabric := rfl
@[simp] theorem State.setReg_debugUnit (s : State) (a : Nat) (v : W64) : (s.setReg a v).debugUnit = s.debugUnit := rfl

@[simp] theorem State.updCoil_agenda (s : State) (k : Nat) (f : Coil → Coil) : (s.updCoil k f).agenda = s.agenda := rfl
@[simp] theorem State.updCoil_turn (s : State) (k : Nat) (f : Coil → Coil) : (s.updCoil k f).turn = s.turn := rfl
@[simp] theorem State.updCoil_tick (s : State) (k : Nat) (f : Coil → Coil) : (s.updCoil k f).tick = s.tick := rfl
@[simp] theorem State.updCoil_again (s : State) (k : Nat) (f : Coil → Coil) : (s.updCoil k f).again = s.again := rfl
@[simp] theorem State.updCoil_blocked (s : State) (k : Nat) (f : Coil → Coil) : (s.updCoil k f).blocked = s.blocked := rfl
@[simp] theorem State.updCoil_clock (s : State) (k : Nat) (f : Coil → Coil) : (s.updCoil k f).clock = s.clock := rfl
@[simp] theorem State.updCoil_regs (s : State) (k : Nat) (f : Coil → Coil) : (s.updCoil k f).regs = s.regs := rfl
@[simp] theorem State.updCoil_measData (s : State) (k : Nat) (f : Coil → Coil) : (s.updCoil k f).measData = s.measData := rfl
@[simp] theorem State.updCoil_mem (s : State) (k : Nat) (f : Coil → Coil) : (s.updCoil k f).mem = s.mem := rfl
@[simp] theorem State.updCoil_poison (s : State) (k : Nat) (f : Coil → Coil) : (s.updCoil k f).poison = s.poison := rfl
@[simp] theorem State.updCoil_resv (s : State) (k : Nat) (f : Coil → Coil) : (s.updCoil k f).resv = s.resv := rfl
@[simp] theorem State.updCoil_tlb (s : State) (k : Nat) (f : Coil → Coil) : (s.updCoil k f).tlb = s.tlb := rfl
@[simp] theorem State.updCoil_sram (s : State) (k : Nat) (f : Coil → Coil) : (s.updCoil k f).sram = s.sram := rfl
@[simp] theorem State.updCoil_sramPoison (s : State) (k : Nat) (f : Coil → Coil) : (s.updCoil k f).sramPoison = s.sramPoison := rfl
@[simp] theorem State.updCoil_roles (s : State) (k : Nat) (f : Coil → Coil) : (s.updCoil k f).roles = s.roles := rfl
@[simp] theorem State.updCoil_l1 (s : State) (k : Nat) (f : Coil → Coil) : (s.updCoil k f).l1 = s.l1 := rfl
@[simp] theorem State.updCoil_fifos (s : State) (k : Nat) (f : Coil → Coil) : (s.updCoil k f).fifos = s.fifos := rfl
@[simp] theorem State.updCoil_rotations (s : State) (k : Nat) (f : Coil → Coil) : (s.updCoil k f).rotations = s.rotations := rfl
@[simp] theorem State.updCoil_bolts (s : State) (k : Nat) (f : Coil → Coil) : (s.updCoil k f).bolts = s.bolts := rfl
@[simp] theorem State.updCoil_boltOrder (s : State) (k : Nat) (f : Coil → Coil) : (s.updCoil k f).boltOrder = s.boltOrder := rfl
@[simp] theorem State.updCoil_placements (s : State) (k : Nat) (f : Coil → Coil) : (s.updCoil k f).placements = s.placements := rfl
@[simp] theorem State.updCoil_ops (s : State) (k : Nat) (f : Coil → Coil) : (s.updCoil k f).ops = s.ops := rfl
@[simp] theorem State.updCoil_copies (s : State) (k : Nat) (f : Coil → Coil) : (s.updCoil k f).copies = s.copies := rfl
@[simp] theorem State.updCoil_nextOp (s : State) (k : Nat) (f : Coil → Coil) : (s.updCoil k f).nextOp = s.nextOp := rfl
@[simp] theorem State.updCoil_remotes (s : State) (k : Nat) (f : Coil → Coil) : (s.updCoil k f).remotes = s.remotes := rfl
@[simp] theorem State.updCoil_arrived (s : State) (k : Nat) (f : Coil → Coil) : (s.updCoil k f).arrived = s.arrived := rfl
@[simp] theorem State.updCoil_faults (s : State) (k : Nat) (f : Coil → Coil) : (s.updCoil k f).faults = s.faults := rfl
@[simp] theorem State.updCoil_upcalls (s : State) (k : Nat) (f : Coil → Coil) : (s.updCoil k f).upcalls = s.upcalls := rfl
@[simp] theorem State.updCoil_traps (s : State) (k : Nat) (f : Coil → Coil) : (s.updCoil k f).traps = s.traps := rfl
@[simp] theorem State.updCoil_seip (s : State) (k : Nat) (f : Coil → Coil) : (s.updCoil k f).seip = s.seip := rfl
@[simp] theorem State.updCoil_ply (s : State) (k : Nat) (f : Coil → Coil) : (s.updCoil k f).ply = s.ply := rfl
@[simp] theorem State.updCoil_queues (s : State) (k : Nat) (f : Coil → Coil) : (s.updCoil k f).queues = s.queues := rfl
@[simp] theorem State.updCoil_launches (s : State) (k : Nat) (f : Coil → Coil) : (s.updCoil k f).launches = s.launches := rfl
@[simp] theorem State.updCoil_lastServed (s : State) (k : Nat) (f : Coil → Coil) : (s.updCoil k f).lastServed = s.lastServed := rfl
@[simp] theorem State.updCoil_halted (s : State) (k : Nat) (f : Coil → Coil) : (s.updCoil k f).halted = s.halted := rfl
@[simp] theorem State.updCoil_lastMismatch (s : State) (k : Nat) (f : Coil → Coil) : (s.updCoil k f).lastMismatch = s.lastMismatch := rfl
@[simp] theorem State.updCoil_bte (s : State) (k : Nat) (f : Coil → Coil) : (s.updCoil k f).bte = s.bte := rfl
@[simp] theorem State.updCoil_slots (s : State) (k : Nat) (f : Coil → Coil) : (s.updCoil k f).slots = s.slots := rfl
@[simp] theorem State.updCoil_link (s : State) (k : Nat) (f : Coil → Coil) : (s.updCoil k f).link = s.link := rfl
@[simp] theorem State.updCoil_outbox (s : State) (k : Nat) (f : Coil → Coil) : (s.updCoil k f).outbox = s.outbox := rfl
@[simp] theorem State.updCoil_power (s : State) (k : Nat) (f : Coil → Coil) : (s.updCoil k f).power = s.power := rfl
@[simp] theorem State.updCoil_fabric (s : State) (k : Nat) (f : Coil → Coil) : (s.updCoil k f).fabric = s.fabric := rfl
@[simp] theorem State.updCoil_debugUnit (s : State) (k : Nat) (f : Coil → Coil) : (s.updCoil k f).debugUnit = s.debugUnit := rfl

@[simp] theorem State.updStrand_agenda (s : State) (k i : Nat) (f : Strand → Strand) : (s.updStrand k i f).agenda = s.agenda := rfl
@[simp] theorem State.updStrand_turn (s : State) (k i : Nat) (f : Strand → Strand) : (s.updStrand k i f).turn = s.turn := rfl
@[simp] theorem State.updStrand_tick (s : State) (k i : Nat) (f : Strand → Strand) : (s.updStrand k i f).tick = s.tick := rfl
@[simp] theorem State.updStrand_again (s : State) (k i : Nat) (f : Strand → Strand) : (s.updStrand k i f).again = s.again := rfl
@[simp] theorem State.updStrand_blocked (s : State) (k i : Nat) (f : Strand → Strand) : (s.updStrand k i f).blocked = s.blocked := rfl
@[simp] theorem State.updStrand_clock (s : State) (k i : Nat) (f : Strand → Strand) : (s.updStrand k i f).clock = s.clock := rfl
@[simp] theorem State.updStrand_regs (s : State) (k i : Nat) (f : Strand → Strand) : (s.updStrand k i f).regs = s.regs := rfl
@[simp] theorem State.updStrand_measData (s : State) (k i : Nat) (f : Strand → Strand) : (s.updStrand k i f).measData = s.measData := rfl
@[simp] theorem State.updStrand_mem (s : State) (k i : Nat) (f : Strand → Strand) : (s.updStrand k i f).mem = s.mem := rfl
@[simp] theorem State.updStrand_poison (s : State) (k i : Nat) (f : Strand → Strand) : (s.updStrand k i f).poison = s.poison := rfl
@[simp] theorem State.updStrand_resv (s : State) (k i : Nat) (f : Strand → Strand) : (s.updStrand k i f).resv = s.resv := rfl
@[simp] theorem State.updStrand_tlb (s : State) (k i : Nat) (f : Strand → Strand) : (s.updStrand k i f).tlb = s.tlb := rfl
@[simp] theorem State.updStrand_sram (s : State) (k i : Nat) (f : Strand → Strand) : (s.updStrand k i f).sram = s.sram := rfl
@[simp] theorem State.updStrand_sramPoison (s : State) (k i : Nat) (f : Strand → Strand) : (s.updStrand k i f).sramPoison = s.sramPoison := rfl
@[simp] theorem State.updStrand_roles (s : State) (k i : Nat) (f : Strand → Strand) : (s.updStrand k i f).roles = s.roles := rfl
@[simp] theorem State.updStrand_l1 (s : State) (k i : Nat) (f : Strand → Strand) : (s.updStrand k i f).l1 = s.l1 := rfl
@[simp] theorem State.updStrand_fifos (s : State) (k i : Nat) (f : Strand → Strand) : (s.updStrand k i f).fifos = s.fifos := rfl
@[simp] theorem State.updStrand_rotations (s : State) (k i : Nat) (f : Strand → Strand) : (s.updStrand k i f).rotations = s.rotations := rfl
@[simp] theorem State.updStrand_bolts (s : State) (k i : Nat) (f : Strand → Strand) : (s.updStrand k i f).bolts = s.bolts := rfl
@[simp] theorem State.updStrand_boltOrder (s : State) (k i : Nat) (f : Strand → Strand) : (s.updStrand k i f).boltOrder = s.boltOrder := rfl
@[simp] theorem State.updStrand_placements (s : State) (k i : Nat) (f : Strand → Strand) : (s.updStrand k i f).placements = s.placements := rfl
@[simp] theorem State.updStrand_ops (s : State) (k i : Nat) (f : Strand → Strand) : (s.updStrand k i f).ops = s.ops := rfl
@[simp] theorem State.updStrand_copies (s : State) (k i : Nat) (f : Strand → Strand) : (s.updStrand k i f).copies = s.copies := rfl
@[simp] theorem State.updStrand_nextOp (s : State) (k i : Nat) (f : Strand → Strand) : (s.updStrand k i f).nextOp = s.nextOp := rfl
@[simp] theorem State.updStrand_remotes (s : State) (k i : Nat) (f : Strand → Strand) : (s.updStrand k i f).remotes = s.remotes := rfl
@[simp] theorem State.updStrand_arrived (s : State) (k i : Nat) (f : Strand → Strand) : (s.updStrand k i f).arrived = s.arrived := rfl
@[simp] theorem State.updStrand_faults (s : State) (k i : Nat) (f : Strand → Strand) : (s.updStrand k i f).faults = s.faults := rfl
@[simp] theorem State.updStrand_upcalls (s : State) (k i : Nat) (f : Strand → Strand) : (s.updStrand k i f).upcalls = s.upcalls := rfl
@[simp] theorem State.updStrand_traps (s : State) (k i : Nat) (f : Strand → Strand) : (s.updStrand k i f).traps = s.traps := rfl
@[simp] theorem State.updStrand_seip (s : State) (k i : Nat) (f : Strand → Strand) : (s.updStrand k i f).seip = s.seip := rfl
@[simp] theorem State.updStrand_ply (s : State) (k i : Nat) (f : Strand → Strand) : (s.updStrand k i f).ply = s.ply := rfl
@[simp] theorem State.updStrand_queues (s : State) (k i : Nat) (f : Strand → Strand) : (s.updStrand k i f).queues = s.queues := rfl
@[simp] theorem State.updStrand_launches (s : State) (k i : Nat) (f : Strand → Strand) : (s.updStrand k i f).launches = s.launches := rfl
@[simp] theorem State.updStrand_lastServed (s : State) (k i : Nat) (f : Strand → Strand) : (s.updStrand k i f).lastServed = s.lastServed := rfl
@[simp] theorem State.updStrand_halted (s : State) (k i : Nat) (f : Strand → Strand) : (s.updStrand k i f).halted = s.halted := rfl
@[simp] theorem State.updStrand_lastMismatch (s : State) (k i : Nat) (f : Strand → Strand) : (s.updStrand k i f).lastMismatch = s.lastMismatch := rfl
@[simp] theorem State.updStrand_bte (s : State) (k i : Nat) (f : Strand → Strand) : (s.updStrand k i f).bte = s.bte := rfl
@[simp] theorem State.updStrand_slots (s : State) (k i : Nat) (f : Strand → Strand) : (s.updStrand k i f).slots = s.slots := rfl
@[simp] theorem State.updStrand_link (s : State) (k i : Nat) (f : Strand → Strand) : (s.updStrand k i f).link = s.link := rfl
@[simp] theorem State.updStrand_outbox (s : State) (k i : Nat) (f : Strand → Strand) : (s.updStrand k i f).outbox = s.outbox := rfl
@[simp] theorem State.updStrand_power (s : State) (k i : Nat) (f : Strand → Strand) : (s.updStrand k i f).power = s.power := rfl
@[simp] theorem State.updStrand_fabric (s : State) (k i : Nat) (f : Strand → Strand) : (s.updStrand k i f).fabric = s.fabric := rfl
@[simp] theorem State.updStrand_debugUnit (s : State) (k i : Nat) (f : Strand → Strand) : (s.updStrand k i f).debugUnit = s.debugUnit := rfl

@[simp] theorem State.updPath_agenda (s : State) (id : PathId) (f : PathState → PathState) : (s.updPath id f).agenda = s.agenda := rfl
@[simp] theorem State.updPath_turn (s : State) (id : PathId) (f : PathState → PathState) : (s.updPath id f).turn = s.turn := rfl
@[simp] theorem State.updPath_tick (s : State) (id : PathId) (f : PathState → PathState) : (s.updPath id f).tick = s.tick := rfl
@[simp] theorem State.updPath_again (s : State) (id : PathId) (f : PathState → PathState) : (s.updPath id f).again = s.again := rfl
@[simp] theorem State.updPath_blocked (s : State) (id : PathId) (f : PathState → PathState) : (s.updPath id f).blocked = s.blocked := rfl
@[simp] theorem State.updPath_clock (s : State) (id : PathId) (f : PathState → PathState) : (s.updPath id f).clock = s.clock := rfl
@[simp] theorem State.updPath_regs (s : State) (id : PathId) (f : PathState → PathState) : (s.updPath id f).regs = s.regs := rfl
@[simp] theorem State.updPath_measData (s : State) (id : PathId) (f : PathState → PathState) : (s.updPath id f).measData = s.measData := rfl
@[simp] theorem State.updPath_mem (s : State) (id : PathId) (f : PathState → PathState) : (s.updPath id f).mem = s.mem := rfl
@[simp] theorem State.updPath_poison (s : State) (id : PathId) (f : PathState → PathState) : (s.updPath id f).poison = s.poison := rfl
@[simp] theorem State.updPath_resv (s : State) (id : PathId) (f : PathState → PathState) : (s.updPath id f).resv = s.resv := rfl
@[simp] theorem State.updPath_tlb (s : State) (id : PathId) (f : PathState → PathState) : (s.updPath id f).tlb = s.tlb := rfl
@[simp] theorem State.updPath_sram (s : State) (id : PathId) (f : PathState → PathState) : (s.updPath id f).sram = s.sram := rfl
@[simp] theorem State.updPath_sramPoison (s : State) (id : PathId) (f : PathState → PathState) : (s.updPath id f).sramPoison = s.sramPoison := rfl
@[simp] theorem State.updPath_roles (s : State) (id : PathId) (f : PathState → PathState) : (s.updPath id f).roles = s.roles := rfl
@[simp] theorem State.updPath_l1 (s : State) (id : PathId) (f : PathState → PathState) : (s.updPath id f).l1 = s.l1 := rfl
@[simp] theorem State.updPath_fifos (s : State) (id : PathId) (f : PathState → PathState) : (s.updPath id f).fifos = s.fifos := rfl
@[simp] theorem State.updPath_rotations (s : State) (id : PathId) (f : PathState → PathState) : (s.updPath id f).rotations = s.rotations := rfl
@[simp] theorem State.updPath_bolts (s : State) (id : PathId) (f : PathState → PathState) : (s.updPath id f).bolts = s.bolts := rfl
@[simp] theorem State.updPath_boltOrder (s : State) (id : PathId) (f : PathState → PathState) : (s.updPath id f).boltOrder = s.boltOrder := rfl
@[simp] theorem State.updPath_placements (s : State) (id : PathId) (f : PathState → PathState) : (s.updPath id f).placements = s.placements := rfl
@[simp] theorem State.updPath_ops (s : State) (id : PathId) (f : PathState → PathState) : (s.updPath id f).ops = s.ops := rfl
@[simp] theorem State.updPath_copies (s : State) (id : PathId) (f : PathState → PathState) : (s.updPath id f).copies = s.copies := rfl
@[simp] theorem State.updPath_nextOp (s : State) (id : PathId) (f : PathState → PathState) : (s.updPath id f).nextOp = s.nextOp := rfl
@[simp] theorem State.updPath_remotes (s : State) (id : PathId) (f : PathState → PathState) : (s.updPath id f).remotes = s.remotes := rfl
@[simp] theorem State.updPath_arrived (s : State) (id : PathId) (f : PathState → PathState) : (s.updPath id f).arrived = s.arrived := rfl
@[simp] theorem State.updPath_faults (s : State) (id : PathId) (f : PathState → PathState) : (s.updPath id f).faults = s.faults := rfl
@[simp] theorem State.updPath_upcalls (s : State) (id : PathId) (f : PathState → PathState) : (s.updPath id f).upcalls = s.upcalls := rfl
@[simp] theorem State.updPath_traps (s : State) (id : PathId) (f : PathState → PathState) : (s.updPath id f).traps = s.traps := rfl
@[simp] theorem State.updPath_seip (s : State) (id : PathId) (f : PathState → PathState) : (s.updPath id f).seip = s.seip := rfl
@[simp] theorem State.updPath_ply (s : State) (id : PathId) (f : PathState → PathState) : (s.updPath id f).ply = s.ply := rfl
@[simp] theorem State.updPath_queues (s : State) (id : PathId) (f : PathState → PathState) : (s.updPath id f).queues = s.queues := rfl
@[simp] theorem State.updPath_launches (s : State) (id : PathId) (f : PathState → PathState) : (s.updPath id f).launches = s.launches := rfl
@[simp] theorem State.updPath_lastServed (s : State) (id : PathId) (f : PathState → PathState) : (s.updPath id f).lastServed = s.lastServed := rfl
@[simp] theorem State.updPath_halted (s : State) (id : PathId) (f : PathState → PathState) : (s.updPath id f).halted = s.halted := rfl
@[simp] theorem State.updPath_lastMismatch (s : State) (id : PathId) (f : PathState → PathState) : (s.updPath id f).lastMismatch = s.lastMismatch := rfl
@[simp] theorem State.updPath_bte (s : State) (id : PathId) (f : PathState → PathState) : (s.updPath id f).bte = s.bte := rfl
@[simp] theorem State.updPath_slots (s : State) (id : PathId) (f : PathState → PathState) : (s.updPath id f).slots = s.slots := rfl
@[simp] theorem State.updPath_link (s : State) (id : PathId) (f : PathState → PathState) : (s.updPath id f).link = s.link := rfl
@[simp] theorem State.updPath_outbox (s : State) (id : PathId) (f : PathState → PathState) : (s.updPath id f).outbox = s.outbox := rfl
@[simp] theorem State.updPath_power (s : State) (id : PathId) (f : PathState → PathState) : (s.updPath id f).power = s.power := rfl
@[simp] theorem State.updPath_fabric (s : State) (id : PathId) (f : PathState → PathState) : (s.updPath id f).fabric = s.fabric := rfl
@[simp] theorem State.updPath_debugUnit (s : State) (id : PathId) (f : PathState → PathState) : (s.updPath id f).debugUnit = s.debugUnit := rfl

@[simp] theorem State.setS_agenda (s : State) (id : PathId) (r : Nat) (v : W64) (bad : Bool) : (s.setS id r v bad).agenda = s.agenda := rfl
@[simp] theorem State.setS_turn (s : State) (id : PathId) (r : Nat) (v : W64) (bad : Bool) : (s.setS id r v bad).turn = s.turn := rfl
@[simp] theorem State.setS_tick (s : State) (id : PathId) (r : Nat) (v : W64) (bad : Bool) : (s.setS id r v bad).tick = s.tick := rfl
@[simp] theorem State.setS_again (s : State) (id : PathId) (r : Nat) (v : W64) (bad : Bool) : (s.setS id r v bad).again = s.again := rfl
@[simp] theorem State.setS_blocked (s : State) (id : PathId) (r : Nat) (v : W64) (bad : Bool) : (s.setS id r v bad).blocked = s.blocked := rfl
@[simp] theorem State.setS_clock (s : State) (id : PathId) (r : Nat) (v : W64) (bad : Bool) : (s.setS id r v bad).clock = s.clock := rfl
@[simp] theorem State.setS_regs (s : State) (id : PathId) (r : Nat) (v : W64) (bad : Bool) : (s.setS id r v bad).regs = s.regs := rfl
@[simp] theorem State.setS_measData (s : State) (id : PathId) (r : Nat) (v : W64) (bad : Bool) : (s.setS id r v bad).measData = s.measData := rfl
@[simp] theorem State.setS_mem (s : State) (id : PathId) (r : Nat) (v : W64) (bad : Bool) : (s.setS id r v bad).mem = s.mem := rfl
@[simp] theorem State.setS_poison (s : State) (id : PathId) (r : Nat) (v : W64) (bad : Bool) : (s.setS id r v bad).poison = s.poison := rfl
@[simp] theorem State.setS_resv (s : State) (id : PathId) (r : Nat) (v : W64) (bad : Bool) : (s.setS id r v bad).resv = s.resv := rfl
@[simp] theorem State.setS_tlb (s : State) (id : PathId) (r : Nat) (v : W64) (bad : Bool) : (s.setS id r v bad).tlb = s.tlb := rfl
@[simp] theorem State.setS_sram (s : State) (id : PathId) (r : Nat) (v : W64) (bad : Bool) : (s.setS id r v bad).sram = s.sram := rfl
@[simp] theorem State.setS_sramPoison (s : State) (id : PathId) (r : Nat) (v : W64) (bad : Bool) : (s.setS id r v bad).sramPoison = s.sramPoison := rfl
@[simp] theorem State.setS_roles (s : State) (id : PathId) (r : Nat) (v : W64) (bad : Bool) : (s.setS id r v bad).roles = s.roles := rfl
@[simp] theorem State.setS_l1 (s : State) (id : PathId) (r : Nat) (v : W64) (bad : Bool) : (s.setS id r v bad).l1 = s.l1 := rfl
@[simp] theorem State.setS_fifos (s : State) (id : PathId) (r : Nat) (v : W64) (bad : Bool) : (s.setS id r v bad).fifos = s.fifos := rfl
@[simp] theorem State.setS_rotations (s : State) (id : PathId) (r : Nat) (v : W64) (bad : Bool) : (s.setS id r v bad).rotations = s.rotations := rfl
@[simp] theorem State.setS_bolts (s : State) (id : PathId) (r : Nat) (v : W64) (bad : Bool) : (s.setS id r v bad).bolts = s.bolts := rfl
@[simp] theorem State.setS_boltOrder (s : State) (id : PathId) (r : Nat) (v : W64) (bad : Bool) : (s.setS id r v bad).boltOrder = s.boltOrder := rfl
@[simp] theorem State.setS_placements (s : State) (id : PathId) (r : Nat) (v : W64) (bad : Bool) : (s.setS id r v bad).placements = s.placements := rfl
@[simp] theorem State.setS_ops (s : State) (id : PathId) (r : Nat) (v : W64) (bad : Bool) : (s.setS id r v bad).ops = s.ops := rfl
@[simp] theorem State.setS_copies (s : State) (id : PathId) (r : Nat) (v : W64) (bad : Bool) : (s.setS id r v bad).copies = s.copies := rfl
@[simp] theorem State.setS_nextOp (s : State) (id : PathId) (r : Nat) (v : W64) (bad : Bool) : (s.setS id r v bad).nextOp = s.nextOp := rfl
@[simp] theorem State.setS_remotes (s : State) (id : PathId) (r : Nat) (v : W64) (bad : Bool) : (s.setS id r v bad).remotes = s.remotes := rfl
@[simp] theorem State.setS_arrived (s : State) (id : PathId) (r : Nat) (v : W64) (bad : Bool) : (s.setS id r v bad).arrived = s.arrived := rfl
@[simp] theorem State.setS_faults (s : State) (id : PathId) (r : Nat) (v : W64) (bad : Bool) : (s.setS id r v bad).faults = s.faults := rfl
@[simp] theorem State.setS_upcalls (s : State) (id : PathId) (r : Nat) (v : W64) (bad : Bool) : (s.setS id r v bad).upcalls = s.upcalls := rfl
@[simp] theorem State.setS_traps (s : State) (id : PathId) (r : Nat) (v : W64) (bad : Bool) : (s.setS id r v bad).traps = s.traps := rfl
@[simp] theorem State.setS_seip (s : State) (id : PathId) (r : Nat) (v : W64) (bad : Bool) : (s.setS id r v bad).seip = s.seip := rfl
@[simp] theorem State.setS_ply (s : State) (id : PathId) (r : Nat) (v : W64) (bad : Bool) : (s.setS id r v bad).ply = s.ply := rfl
@[simp] theorem State.setS_queues (s : State) (id : PathId) (r : Nat) (v : W64) (bad : Bool) : (s.setS id r v bad).queues = s.queues := rfl
@[simp] theorem State.setS_launches (s : State) (id : PathId) (r : Nat) (v : W64) (bad : Bool) : (s.setS id r v bad).launches = s.launches := rfl
@[simp] theorem State.setS_lastServed (s : State) (id : PathId) (r : Nat) (v : W64) (bad : Bool) : (s.setS id r v bad).lastServed = s.lastServed := rfl
@[simp] theorem State.setS_halted (s : State) (id : PathId) (r : Nat) (v : W64) (bad : Bool) : (s.setS id r v bad).halted = s.halted := rfl
@[simp] theorem State.setS_lastMismatch (s : State) (id : PathId) (r : Nat) (v : W64) (bad : Bool) : (s.setS id r v bad).lastMismatch = s.lastMismatch := rfl
@[simp] theorem State.setS_bte (s : State) (id : PathId) (r : Nat) (v : W64) (bad : Bool) : (s.setS id r v bad).bte = s.bte := rfl
@[simp] theorem State.setS_slots (s : State) (id : PathId) (r : Nat) (v : W64) (bad : Bool) : (s.setS id r v bad).slots = s.slots := rfl
@[simp] theorem State.setS_link (s : State) (id : PathId) (r : Nat) (v : W64) (bad : Bool) : (s.setS id r v bad).link = s.link := rfl
@[simp] theorem State.setS_outbox (s : State) (id : PathId) (r : Nat) (v : W64) (bad : Bool) : (s.setS id r v bad).outbox = s.outbox := rfl
@[simp] theorem State.setS_power (s : State) (id : PathId) (r : Nat) (v : W64) (bad : Bool) : (s.setS id r v bad).power = s.power := rfl
@[simp] theorem State.setS_fabric (s : State) (id : PathId) (r : Nat) (v : W64) (bad : Bool) : (s.setS id r v bad).fabric = s.fabric := rfl
@[simp] theorem State.setS_debugUnit (s : State) (id : PathId) (r : Nat) (v : W64) (bad : Bool) : (s.setS id r v bad).debugUnit = s.debugUnit := rfl

@[simp] theorem State.setMask_agenda (s : State) (x : Issuer) (k : Nat) (v : Mask) : (s.setMask x k v).agenda = s.agenda := rfl
@[simp] theorem State.setMask_turn (s : State) (x : Issuer) (k : Nat) (v : Mask) : (s.setMask x k v).turn = s.turn := rfl
@[simp] theorem State.setMask_tick (s : State) (x : Issuer) (k : Nat) (v : Mask) : (s.setMask x k v).tick = s.tick := rfl
@[simp] theorem State.setMask_again (s : State) (x : Issuer) (k : Nat) (v : Mask) : (s.setMask x k v).again = s.again := rfl
@[simp] theorem State.setMask_blocked (s : State) (x : Issuer) (k : Nat) (v : Mask) : (s.setMask x k v).blocked = s.blocked := rfl
@[simp] theorem State.setMask_clock (s : State) (x : Issuer) (k : Nat) (v : Mask) : (s.setMask x k v).clock = s.clock := rfl
@[simp] theorem State.setMask_regs (s : State) (x : Issuer) (k : Nat) (v : Mask) : (s.setMask x k v).regs = s.regs := rfl
@[simp] theorem State.setMask_measData (s : State) (x : Issuer) (k : Nat) (v : Mask) : (s.setMask x k v).measData = s.measData := rfl
@[simp] theorem State.setMask_mem (s : State) (x : Issuer) (k : Nat) (v : Mask) : (s.setMask x k v).mem = s.mem := rfl
@[simp] theorem State.setMask_poison (s : State) (x : Issuer) (k : Nat) (v : Mask) : (s.setMask x k v).poison = s.poison := rfl
@[simp] theorem State.setMask_resv (s : State) (x : Issuer) (k : Nat) (v : Mask) : (s.setMask x k v).resv = s.resv := rfl
@[simp] theorem State.setMask_tlb (s : State) (x : Issuer) (k : Nat) (v : Mask) : (s.setMask x k v).tlb = s.tlb := rfl
@[simp] theorem State.setMask_sram (s : State) (x : Issuer) (k : Nat) (v : Mask) : (s.setMask x k v).sram = s.sram := rfl
@[simp] theorem State.setMask_sramPoison (s : State) (x : Issuer) (k : Nat) (v : Mask) : (s.setMask x k v).sramPoison = s.sramPoison := rfl
@[simp] theorem State.setMask_roles (s : State) (x : Issuer) (k : Nat) (v : Mask) : (s.setMask x k v).roles = s.roles := rfl
@[simp] theorem State.setMask_l1 (s : State) (x : Issuer) (k : Nat) (v : Mask) : (s.setMask x k v).l1 = s.l1 := rfl
@[simp] theorem State.setMask_fifos (s : State) (x : Issuer) (k : Nat) (v : Mask) : (s.setMask x k v).fifos = s.fifos := rfl
@[simp] theorem State.setMask_rotations (s : State) (x : Issuer) (k : Nat) (v : Mask) : (s.setMask x k v).rotations = s.rotations := rfl
@[simp] theorem State.setMask_bolts (s : State) (x : Issuer) (k : Nat) (v : Mask) : (s.setMask x k v).bolts = s.bolts := rfl
@[simp] theorem State.setMask_boltOrder (s : State) (x : Issuer) (k : Nat) (v : Mask) : (s.setMask x k v).boltOrder = s.boltOrder := rfl
@[simp] theorem State.setMask_placements (s : State) (x : Issuer) (k : Nat) (v : Mask) : (s.setMask x k v).placements = s.placements := rfl
@[simp] theorem State.setMask_ops (s : State) (x : Issuer) (k : Nat) (v : Mask) : (s.setMask x k v).ops = s.ops := rfl
@[simp] theorem State.setMask_copies (s : State) (x : Issuer) (k : Nat) (v : Mask) : (s.setMask x k v).copies = s.copies := rfl
@[simp] theorem State.setMask_nextOp (s : State) (x : Issuer) (k : Nat) (v : Mask) : (s.setMask x k v).nextOp = s.nextOp := rfl
@[simp] theorem State.setMask_remotes (s : State) (x : Issuer) (k : Nat) (v : Mask) : (s.setMask x k v).remotes = s.remotes := rfl
@[simp] theorem State.setMask_arrived (s : State) (x : Issuer) (k : Nat) (v : Mask) : (s.setMask x k v).arrived = s.arrived := rfl
@[simp] theorem State.setMask_faults (s : State) (x : Issuer) (k : Nat) (v : Mask) : (s.setMask x k v).faults = s.faults := rfl
@[simp] theorem State.setMask_upcalls (s : State) (x : Issuer) (k : Nat) (v : Mask) : (s.setMask x k v).upcalls = s.upcalls := rfl
@[simp] theorem State.setMask_traps (s : State) (x : Issuer) (k : Nat) (v : Mask) : (s.setMask x k v).traps = s.traps := rfl
@[simp] theorem State.setMask_seip (s : State) (x : Issuer) (k : Nat) (v : Mask) : (s.setMask x k v).seip = s.seip := rfl
@[simp] theorem State.setMask_ply (s : State) (x : Issuer) (k : Nat) (v : Mask) : (s.setMask x k v).ply = s.ply := rfl
@[simp] theorem State.setMask_queues (s : State) (x : Issuer) (k : Nat) (v : Mask) : (s.setMask x k v).queues = s.queues := rfl
@[simp] theorem State.setMask_launches (s : State) (x : Issuer) (k : Nat) (v : Mask) : (s.setMask x k v).launches = s.launches := rfl
@[simp] theorem State.setMask_lastServed (s : State) (x : Issuer) (k : Nat) (v : Mask) : (s.setMask x k v).lastServed = s.lastServed := rfl
@[simp] theorem State.setMask_halted (s : State) (x : Issuer) (k : Nat) (v : Mask) : (s.setMask x k v).halted = s.halted := rfl
@[simp] theorem State.setMask_lastMismatch (s : State) (x : Issuer) (k : Nat) (v : Mask) : (s.setMask x k v).lastMismatch = s.lastMismatch := rfl
@[simp] theorem State.setMask_bte (s : State) (x : Issuer) (k : Nat) (v : Mask) : (s.setMask x k v).bte = s.bte := rfl
@[simp] theorem State.setMask_slots (s : State) (x : Issuer) (k : Nat) (v : Mask) : (s.setMask x k v).slots = s.slots := rfl
@[simp] theorem State.setMask_link (s : State) (x : Issuer) (k : Nat) (v : Mask) : (s.setMask x k v).link = s.link := rfl
@[simp] theorem State.setMask_outbox (s : State) (x : Issuer) (k : Nat) (v : Mask) : (s.setMask x k v).outbox = s.outbox := rfl
@[simp] theorem State.setMask_power (s : State) (x : Issuer) (k : Nat) (v : Mask) : (s.setMask x k v).power = s.power := rfl
@[simp] theorem State.setMask_fabric (s : State) (x : Issuer) (k : Nat) (v : Mask) : (s.setMask x k v).fabric = s.fabric := rfl
@[simp] theorem State.setMask_debugUnit (s : State) (x : Issuer) (k : Nat) (v : Mask) : (s.setMask x k v).debugUnit = s.debugUnit := rfl

@[simp] theorem State.push_agenda (s : State) (l : List Instr) : (s.push l).agenda = s.agenda ++ l := rfl
@[simp] theorem State.wait_again (s : State) : s.wait.again = true := rfl
@[simp] theorem State.draw_tick (s : State) : s.draw.tick = s.tick + 1 := rfl
@[simp] theorem State.send_outbox (s : State) (m : OutMsg) : (s.send m).outbox = m :: s.outbox := rfl
@[simp] theorem State.poke_mem (s : State) (pa : Nat) (l : List Byte) (bad : Bool) :
    (s.poke pa l bad).mem = Tab.setRun Config.blank s.mem pa l := rfl
@[simp] theorem State.setReg_regs (s : State) (a : Nat) (v : W64) : (s.setReg a v).regs = Tab.set (regReset a) s.regs a v := rfl
@[simp] theorem State.updCoil_coils (s : State) (k : Nat) (f : Coil → Coil) : (s.updCoil k f).coils = Dict.upd s.coils k f := rfl

end Sys2Proof.Machine
end

