-- ==== Sys2Proof/Laws/Tab.lean ====
section
/-! SUPPORT. Reads after writes of tables and dictionaries, and the canonical form of tables. -/

namespace Sys2Proof

section
variable {α : Type}

theorem Tab.get_dropWhile (d : α) (k j : Nat) (h : k < j) (r : Tab α) :
    Tab.get d (r.dropWhile (fun e => decide (e.1 ≤ k))) j = Tab.get d r j := by
  induction r with
  | nil => rfl
  | cons e r ih =>
    obtain ⟨a, x⟩ := e
    by_cases hk : a ≤ k
    · rw [List.dropWhile_cons_of_pos (by simpa using hk), ih]
      simp only [Tab.get]
      rw [if_neg (by omega), if_neg (by omega)]
    · rw [List.dropWhile_cons_of_neg (by simpa using hk)]

theorem Tab.get_dropWhile_le (d : α) (k j : Nat) (h : j ≤ k) (r : Tab α) :
    Tab.get d (r.dropWhile (fun e => decide (e.1 ≤ k))) j = d := by
  induction r with
  | nil => rfl
  | cons e r ih =>
    obtain ⟨a, x⟩ := e
    by_cases hk : a ≤ k
    · rw [List.dropWhile_cons_of_pos (by simpa using hk), ih]
    · rw [List.dropWhile_cons_of_neg (by simpa using hk)]
      simp only [Tab.get]
      rw [if_neg (by omega), if_pos (by omega)]

/-- A key reads as what was written to it last. -/
theorem Tab.get_set_same [DecidableEq α] (d : α) (t : Tab α) (k : Nat) (v : α) : Tab.get d (Tab.set d t k v) k = v := by
  induction t with
  | nil => by_cases h : v = d <;> simp [Tab.set, Tab.get, h]
  | cons e r ih =>
    obtain ⟨a, x⟩ := e
    simp only [Tab.set]
    by_cases h1 : k < a
    · rw [if_pos h1]
      by_cases h : v = d
      · rw [if_pos h]; simp only [Tab.get]; rw [if_neg (by omega), if_pos h1, h]
      · rw [if_neg h]; simp [Tab.get]
    · rw [if_neg h1]
      by_cases h2 : a = k
      · rw [if_pos h2]
        by_cases h : v = d
        · rw [if_pos h, Tab.get_dropWhile_le d k k (Nat.le_refl k), h]
        · rw [if_neg h]; simp [Tab.get]
      · rw [if_neg h2]; simp only [Tab.get]; rw [if_neg h2, if_neg h1, ih]

/-- A write leaves every other key alone, whatever an unlisted key reads as. -/
theorem Tab.get_set_ne [DecidableEq α] (d e : α) (t : Tab α) (k j : Nat) (v : α) (hj : j ≠ k) :
    Tab.get e (Tab.set d t k v) j = Tab.get e t j := by
  induction t with
  | nil =>
    by_cases h : v = d
    · simp [Tab.set, h]
    · simp only [Tab.set, if_neg h, Tab.get]
      rw [if_neg (by omega)]; split <;> rfl
  | cons p r ih =>
    obtain ⟨a, x⟩ := p
    simp only [Tab.set]
    by_cases h1 : k < a
    · rw [if_pos h1]
      by_cases h : v = d
      · rw [if_pos h]
      · rw [if_neg h]; simp only [Tab.get]; rw [if_neg (by omega)]
        by_cases h3 : j < k
        · rw [if_pos h3, if_neg (by omega), if_pos (by omega)]
        · rw [if_neg h3]
    · rw [if_neg h1]
      by_cases h2 : a = k
      · rw [if_pos h2]
        by_cases h : v = d
        · rw [if_pos h]
          simp only [Tab.get]
          rw [if_neg (by omega)]
          by_cases h3 : j < a
          · rw [if_pos h3, Tab.get_dropWhile_le e k j (by omega)]
          · rw [if_neg h3, Tab.get_dropWhile e k j (by omega)]
        · rw [if_neg h]; subst h2; simp [Tab.get, Ne.symm hj]
      · rw [if_neg h2]; simp only [Tab.get]; rw [ih]

/-- A write leaves every other key alone. -/
theorem Tab.get_set_other [DecidableEq α] (d : α) (t : Tab α) (k j : Nat) (v : α) (hj : j ≠ k) :
    Tab.get d (Tab.set d t k v) j = Tab.get d t j := Tab.get_set_ne d d t k j v hj

theorem Tab.get_set [DecidableEq α] (d : α) (t : Tab α) (k j : Nat) (v : α) :
    Tab.get d (Tab.set d t k v) j = if j = k then v else Tab.get d t j := by
  by_cases h : j = k
  · rw [if_pos h, h, Tab.get_set_same]
  · rw [if_neg h, Tab.get_set_other d t k j v h]

/-- The canonical form from a later key on is the canonical form from an earlier one. -/
theorem Tab.wfFrom_mono [DecidableEq α] (d : α) {b c : Nat} (h : b ≤ c) : ∀ {t : Tab α}, Tab.wfFrom d c t = true → Tab.wfFrom d b t = true
  | [], _ => rfl
  | (a, x) :: r, hw => by
    simp only [Tab.wfFrom, Bool.and_eq_true, decide_eq_true_eq] at hw ⊢
    exact ⟨⟨by omega, hw.1.2⟩, hw.2⟩

theorem Tab.dropWhile_wf [DecidableEq α] (d : α) {b k : Nat} (h : k < b) : ∀ {t : Tab α}, Tab.wfFrom d b t = true →
    t.dropWhile (fun e => decide (e.1 ≤ k)) = t
  | [], _ => rfl
  | (a, x) :: r, hw => by
    simp only [Tab.wfFrom, Bool.and_eq_true, decide_eq_true_eq] at hw
    rw [List.dropWhile_cons_of_neg]
    simpa using Nat.lt_of_lt_of_le h hw.1.1

/-- A write keeps the canonical form. -/
theorem Tab.wfFrom_set [DecidableEq α] (d : α) (k : Nat) (v : α) : ∀ {b : Nat} {t : Tab α}, b ≤ k → Tab.wfFrom d b t = true →
    Tab.wfFrom d b (Tab.set d t k v) = true
  | b, [], hb, _ => by
    by_cases h : v = d <;> simp [Tab.set, Tab.wfFrom, h, hb]
  | b, (a, x) :: r, hb, hw => by
    have hw' := hw
    simp only [Tab.wfFrom, Bool.and_eq_true, decide_eq_true_eq] at hw'
    simp only [Tab.set]
    by_cases h1 : k < a
    · rw [if_pos h1]
      by_cases h : v = d
      · rw [if_pos h]; exact hw
      · rw [if_neg h]
        simp only [Tab.wfFrom, Bool.and_eq_true, decide_eq_true_eq]
        exact ⟨⟨hb, by simp [h]⟩, ⟨by omega, hw'.1.2⟩, hw'.2⟩
    · rw [if_neg h1]
      by_cases h2 : a = k
      · rw [if_pos h2]
        by_cases h : v = d
        · rw [if_pos h, Tab.dropWhile_wf d (b := a + 1) (by omega) hw'.2]
          exact Tab.wfFrom_mono d (by omega) hw'.2
        · rw [if_neg h]
          simp only [Tab.wfFrom, Bool.and_eq_true, decide_eq_true_eq]
          exact ⟨⟨hb, by simp [h]⟩, by rw [← h2]; exact hw'.2⟩
      · rw [if_neg h2]
        simp only [Tab.wfFrom, Bool.and_eq_true, decide_eq_true_eq]
        exact ⟨hw'.1, Tab.wfFrom_set d k v (by omega) hw'.2⟩

theorem Tab.wf_set [DecidableEq α] (d : α) (t : Tab α) (k : Nat) (v : α) (h : Tab.wf d t = true) : Tab.wf d (Tab.set d t k v) = true :=
  Tab.wfFrom_set d k v (Nat.zero_le k) h

theorem Tab.wf_setRun [DecidableEq α] (d : α) : ∀ (l : List α) (t : Tab α) (k : Nat), Tab.wf d t = true → Tab.wf d (Tab.setRun d t k l) = true
  | [], _, _, h => h
  | v :: r, t, k, h => Tab.wf_setRun d r _ _ (Tab.wf_set d t k v h)

theorem Tab.wf_setAll [DecidableEq α] (d : α) : ∀ (l : List (Nat × α)) (t : Tab α), Tab.wf d t = true → Tab.wf d (Tab.setAll d t l) = true
  | [], _, h => h
  | (k, v) :: r, t, h => Tab.wf_setAll d r _ (Tab.wf_set d t k v h)

/-- A run of writes leaves every key outside it alone. -/
theorem Tab.get_setRun_other [DecidableEq α] (d : α) : ∀ (l : List α) (t : Tab α) (k j : Nat), (j < k ∨ k + l.length ≤ j) →
    Tab.get d (Tab.setRun d t k l) j = Tab.get d t j
  | [], _, _, _, _ => rfl
  | v :: r, t, k, j, h => by
    simp only [Tab.setRun, List.length_cons] at h ⊢
    rw [Tab.get_setRun_other d r _ _ _ (by omega), Tab.get_set_other d t k j v (by omega)]

/-- A run of writes reads back. -/
theorem Tab.get_setRun_at [DecidableEq α] (d : α) : ∀ (l : List α) (t : Tab α) (k i : Nat) (h : i < l.length),
    Tab.get d (Tab.setRun d t k l) (k + i) = l[i]
  | v :: r, t, k, 0, _ => by
    simp only [Tab.setRun, Nat.add_zero, List.getElem_cons_zero]
    rw [Tab.get_setRun_other d r _ _ _ (by omega), Tab.get_set_same]
  | v :: r, t, k, i + 1, h => by
    simp only [Tab.setRun, List.getElem_cons_succ]
    have := Tab.get_setRun_at d r (Tab.set d t k v) (k + 1) i (by simpa using h)
    rwa [show k + 1 + i = k + (i + 1) by omega] at this

/-- What was put is found. -/
theorem Dict.find_put_same (t : Dict α) (k : Nat) (v : α) : Dict.find? (Dict.put t k v) k = some v := by
  induction t with
  | nil => simp [Dict.put, Dict.find?]
  | cons e r ih =>
    obtain ⟨a, x⟩ := e
    simp only [Dict.put]
    split
    · simp [Dict.find?]
    · split
      · simp [Dict.find?]
      · simp only [Dict.find?]; rw [if_neg ‹_›, ih]

theorem Dict.find_put_other (t : Dict α) (k j : Nat) (v : α) (h : j ≠ k) : Dict.find? (Dict.put t k v) j = Dict.find? t j := by
  induction t with
  | nil => simp [Dict.put, Dict.find?, Ne.symm h]
  | cons e r ih =>
    obtain ⟨a, x⟩ := e
    simp only [Dict.put]
    split
    · simp [Dict.find?, Ne.symm h]
    · split
      · rename_i h2; simp [Dict.find?, Ne.symm h, h2]
      · simp only [Dict.find?]; rw [ih]

/-- A change applies to the value that is found. -/
theorem Dict.find_upd_same (t : Dict α) (k : Nat) (f : α → α) : Dict.find? (Dict.upd t k f) k = (Dict.find? t k).map f := by
  induction t with
  | nil => rfl
  | cons e r ih =>
    obtain ⟨a, x⟩ := e
    simp only [Dict.upd]
    split
    · rename_i h; simp [Dict.find?, h]
    · rename_i h; simp only [Dict.find?]; rw [if_neg h, if_neg h, ih]

theorem Dict.find_upd_other (t : Dict α) (k j : Nat) (f : α → α) (h : j ≠ k) : Dict.find? (Dict.upd t k f) j = Dict.find? t j := by
  induction t with
  | nil => rfl
  | cons e r ih =>
    obtain ⟨a, x⟩ := e
    simp only [Dict.upd]
    split
    · rename_i h2; simp only [Dict.find?]; rw [if_neg (by omega), if_neg (by omega)]
    · simp only [Dict.find?]; rw [ih]

theorem Dict.find_del_same (t : Dict α) (k : Nat) : Dict.find? (Dict.del t k) k = none := by
  induction t with
  | nil => rfl
  | cons e r ih =>
    obtain ⟨a, x⟩ := e
    simp only [Dict.del]
    split
    · exact ih
    · rename_i h; simp only [Dict.find?]; rw [if_neg h, ih]

theorem Dict.find_del_other (t : Dict α) (k j : Nat) (h : j ≠ k) : Dict.find? (Dict.del t k) j = Dict.find? t j := by
  induction t with
  | nil => rfl
  | cons e r ih =>
    obtain ⟨a, x⟩ := e
    simp only [Dict.del]
    split
    · rename_i h2; simp only [Dict.find?]; rw [if_neg (by omega), ih]
    · simp only [Dict.find?]; rw [ih]

end

end Sys2Proof
end

