-- ==== Sys2Proof/Laws/Mem.lean ====
section
/-! SUPPORT. Reads after writes of device memory and of registers, and the canonical form of memory. -/

namespace Sys2Proof.Machine

open Sys2Proof

/-- The one operation that writes device memory keeps its canonical form. -/
theorem State.poke_wf (s : State) (pa : Nat) (l : List Byte) (bad : Bool) (h : Memory.wf s.mem = true) : Memory.wf (s.poke pa l bad).mem = true :=
  Tab.wf_setRun Config.blank l s.mem pa h

theorem State.reset_wf : Memory.wf State.reset.mem = true := rfl

/-- Bytes outside those written read as before. -/
theorem State.byte_poke_other (s : State) (pa : Nat) (l : List Byte) (bad : Bool) (a : Nat) (h : a < pa ∨ pa + l.length ≤ a) :
    (s.poke pa l bad).byte a = s.byte a :=
  Tab.get_setRun_other Config.blank l s.mem pa a h

/-- Bytes written read back. -/
theorem State.byte_poke_at (s : State) (pa : Nat) (l : List Byte) (bad : Bool) (i : Nat) (h : i < l.length) :
    (s.poke pa l bad).byte (pa + i) = l[i] :=
  Tab.get_setRun_at Config.blank l s.mem pa i h

/-- A register reads as what was set, and every other as before. -/
theorem State.reg_setReg (s : State) (a b : Nat) (v : W64) : (s.setReg a v).reg b = if b = a then v else s.reg b := by
  unfold State.reg State.setReg
  by_cases h : b = a
  · subst h; rw [if_pos rfl]; exact Tab.get_set_same _ _ _ _
  · rw [if_neg h]; exact Tab.get_set_ne _ _ _ _ _ _ h

end Sys2Proof.Machine
end

