-- ==== Sys2Proof/Laws/Issue.lean ====
section
/-! SUPPORT. What the issue of a scalar instruction comes to, said once. -/

namespace Sys2Proof.Machine

open Sys2Proof

/-- The issuer stands where its state holds it. -/
theorem State.issuer_at {s : State} {x : Issuer} (h : s.issuer = some x) : s.issuerAt x.id = some x := by
  unfold State.issuer at h
  split at h
  · cases h
  · rename_i t _
    have : x.id = t.id := by
      unfold State.issuerAt at h
      split at h
      · cases h
      · split at h
        · simp only [Option.map_eq_some_iff] at h
          obtain ⟨p, _, rfl⟩ := h
          rfl
        · cases h
    rw [this]; exact h

/-- What an issuer is made of. -/
theorem State.issuerAt_some {s : State} {id : PathId} {x : Issuer} :
    s.issuerAt id = some x ↔ x.id = id ∧ s.coil? id.coil = some x.coil ∧ x.coil.strands[id.strand]? = some x.strand
      ∧ Dict.find? s.bolts x.coil.bolt = some x.bolt ∧ x.strand.path? id.path = some x.path := by
  unfold State.issuerAt
  constructor
  · intro h
    split at h
    · cases h
    · rename_i c hc
      split at h
      · rename_i st b hst hb
        simp only [Option.map_eq_some_iff] at h
        obtain ⟨p, hp, rfl⟩ := h
        exact ⟨rfl, hc, hst, hb, hp⟩
      · cases h
  · rintro ⟨h1, h2, h3, h4, h5⟩
    simp only [h2, h3, h4, h5, Option.map_some]
    rw [← h1]

/-- Where it executes normally, a scalar instruction has its own effect. -/
theorem scalarAct_ready {s : State} {x : Issuer} {n : Needs} (h : Ready s x n) (body : Issuer → Act) : scalarAct s x n body = body x := by
  unfold scalarAct
  rw [if_neg, if_neg h.role, if_neg, if_neg, if_neg (by simp [h.named]), if_neg]
  · simp only [List.any_eq_true, not_exists, not_and, Bool.not_eq_true]
    exact fun r hr => h.clean r hr
  · simp only [Bool.or_eq_true, not_or, Bool.and_eq_true, not_and, Bool.not_eq_true]
    exact ⟨⟨h.courses, h.masks⟩, h.values⟩
  · simp only [List.any_eq_true, not_exists, not_and, decide_eq_true_eq, Nat.not_le]
    exact fun r hr => h.reserved r hr
  · simp only [List.any_eq_true, not_exists, not_and, Bool.and_eq_true, Bool.or_eq_true, Bool.not_eq_true', beq_iff_eq, not_or]
    intro e he hp
    have := h.quiet e he hp
    simp [this.1, this.2]

theorem scalar_ready {s : State} {x : Issuer} {n : Needs} (h : Ready s x n) (i : Instr) (body : Issuer → Act) :
    scalar s i n body = .next (settleScalar x i (body x)) := by
  unfold scalar
  rw [h.turn]
  simp only [scalarAct_ready h body]

theorem Dict.upd_upd {α : Type} (t : Dict α) (k : Nat) (f g : α → α) : Dict.upd (Dict.upd t k f) k g = Dict.upd t k (fun c => g (f c)) := by
  induction t with
  | nil => rfl
  | cons e r ih =>
    obtain ⟨a, x⟩ := e
    by_cases h : a = k
    · simp [Dict.upd, h]
    · simp only [Dict.upd, if_neg h, ih]

theorem State.updCoil_updCoil (s : State) (k : Nat) (f g : Coil → Coil) : (s.updCoil k f).updCoil k g = s.updCoil k (fun c => g (f c)) := by
  simp only [State.updCoil, Dict.upd_upd]

theorem State.push_updCoil (s : State) (l : List Instr) (k : Nat) (f : Coil → Coil) : (s.push l).updCoil k f = (s.updCoil k f).push l := rfl

theorem State.push_nil (s : State) : s.push [] = s := by simp [State.push]

/-- What comes to hand when a coil's instruction budget expires with one more instruction (R137). -/
def State.expiry (s : State) (k : Nat) : List Instr :=
  match s.coilBolt? k with
  | some (c, b) => if b.desc.insnBudget ≠ 0 ∧ c.insnUsed + 1 = b.desc.insnBudget * 2 ^ 16 then [.watchdogInsnExpiry k] else []
  | none => []

theorem State.count_eq (s : State) (k : Nat) : s.count k = (s.updCoil k (fun c => { c with insnUsed := c.insnUsed + 1 })).push (s.expiry k) := by
  unfold State.count State.expiry
  cases h : s.coilBolt? k with
  | none => exact (State.push_nil _).symm
  | some p =>
    obtain ⟨c, b⟩ := p
    by_cases hb : b.desc.insnBudget ≠ 0 ∧ c.insnUsed + 1 = b.desc.insnBudget * 2 ^ 16
    · simp only [if_pos hb]
    · simp only [if_neg hb]; exact (State.push_nil _).symm

/-- What the issue of a scalar instruction that goes on does to its coil. -/
def Coil.stepped (id : PathId) (pc : W64) (c : Coil) : Coil :=
  { c with
    insnUsed := c.insnUsed + 1
    stepOnly := c.stepOnly.map (fun t => (t.1, t.2.1, true))
    strands := c.strands.modify id.strand (fun st => st.updPath id.path (fun p => { p with bpPass := false, pc := pc })) }

theorem Strand.updPath_updPath (st : Strand) (p : Nat) (f g : PathState → PathState) :
    (st.updPath p f).updPath p g = st.updPath p (fun q => g (f q)) := by
  unfold Strand.updPath
  by_cases h : p = 15
  · simp [h]
  · simp [h, Dict.upd_upd]

theorem State.issuedS_pc (s : State) (id : PathId) (pc : W64) :
    (s.issuedS id).updPath id (fun p => { p with pc := pc }) = (s.updCoil id.coil (Coil.stepped id pc)).push (s.expiry id.coil) := by
  unfold State.issuedS State.updPath State.updStrand
  rw [State.count_eq]
  simp only [State.push_updCoil, State.updCoil_updCoil]
  congr 2
  funext c
  simp only [Coil.stepped, List.modify_modify_eq]
  congr 1
  congr 1
  funext st
  simp [Function.comp, Strand.updPath_updPath]

/-- After `.go`, the path goes on behind its instruction. -/
theorem settle_go (x : Issuer) (i : Instr) (s1 : State) :
    settleScalar x i (.go s1) = (s1.updCoil x.id.coil (Coil.stepped x.id (x.path.pc + BitVec.ofNat 64 (insnBytes i)))).push (s1.expiry x.id.coil) :=
  State.issuedS_pc s1 x.id _

/-- After `.jump`, it goes on at the address. -/
theorem settle_jump (x : Issuer) (i : Instr) (s1 : State) (pc : W64) :
    settleScalar x i (.jump s1 pc) = (s1.updCoil x.id.coil (Coil.stepped x.id pc)).push (s1.expiry x.id.coil) :=
  State.issuedS_pc s1 x.id _

theorem Strand.path_updPath_same (st : Strand) (p : Nat) (f : PathState → PathState) : (st.updPath p f).path? p = (st.path? p).map f := by
  unfold Strand.updPath Strand.path?
  by_cases h : p = 15
  · simp only [h, if_true]; split <;> rfl
  · simp only [h, if_false]; exact Dict.find_upd_same _ _ _

theorem Strand.path_updPath_other (st : Strand) (p q : Nat) (f : PathState → PathState) (h : q ≠ p) : (st.updPath p f).path? q = st.path? q := by
  unfold Strand.updPath Strand.path?
  by_cases h1 : p = 15
  · subst h1; simp [h]
  · by_cases h2 : q = 15
    · simp [h1, h2]
    · simp only [h1, h2, if_false]; exact Dict.find_upd_other _ _ _ _ h

/-- A coil whose strand and path are known to stand as said has that issuer. -/
theorem State.issuerAt_updCoil {s : State} {x : Issuer} (hx : s.issuerAt x.id = some x) (F : Coil → Coil) (st : Strand) (p : PathState)
    (hb : (F x.coil).bolt = x.coil.bolt) (hs : (F x.coil).strands[x.id.strand]? = some st) (hp : st.path? x.id.path = some p) (l : List Instr) :
    ((s.updCoil x.id.coil F).push l).issuerAt x.id = some { id := x.id, coil := F x.coil, strand := st, path := p, bolt := x.bolt } := by
  rw [State.issuerAt_some] at hx ⊢
  refine ⟨rfl, ?_, hs, ?_, hp⟩
  · show Dict.find? (Dict.upd s.coils x.id.coil F) x.id.coil = _
    rw [Dict.find_upd_same, show Dict.find? s.coils x.id.coil = some x.coil from hx.2.1]; rfl
  · show Dict.find? s.bolts (F x.coil).bolt = _
    rw [hb]; exact hx.2.2.2.1

/-- A strand after a scalar result and the issue that follows. -/
def Strand.resulted (p d : Nat) (v : W64) (bad : Bool) (c : Scc) (pc : W64) (st : Strand) : Strand :=
  ((st.updPath p (fun q => { q with scc := c })).setS p d v bad).updPath p (fun q => { q with bpPass := false, pc := pc })

theorem Strand.setS_path (st : Strand) (p d q : Nat) (v : W64) (bad : Bool) : (st.setS p d v bad).path? q = st.path? q := by
  unfold Strand.setS; split <;> rfl

theorem Strand.updPath_sregs (st : Strand) (p : Nat) (f : PathState → PathState) : (st.updPath p f).sregs = st.sregs := by
  unfold Strand.updPath; split <;> rfl

theorem Strand.updPath_spoison (st : Strand) (p : Nat) (f : PathState → PathState) : (st.updPath p f).spoison = st.spoison := by
  unfold Strand.updPath; split <;> rfl

theorem Strand.updPath_rest (st : Strand) (p : Nat) (f : PathState → PathState) :
    { st.updPath p f with root := st.root, entries := st.entries } = st := by
  unfold Strand.updPath; split <;> rfl

theorem Strand.setS_rest (st : Strand) (p d : Nat) (v : W64) (bad : Bool) :
    { st.setS p d v bad with sregs := st.sregs, spoison := st.spoison } = st := by
  unfold Strand.setS; split <;> rfl

theorem Strand.resulted_sregs (p d : Nat) (v : W64) (bad : Bool) (c : Scc) (pc : W64) (st : Strand) :
    (Strand.resulted p d v bad c pc st).sregs = (st.setS p d v bad).sregs := by
  unfold Strand.resulted
  rw [Strand.updPath_sregs]
  unfold Strand.setS Strand.putS
  split
  · exact Strand.updPath_sregs _ _ _
  · rw [Strand.updPath_sregs]

theorem Strand.resulted_spoison (p d : Nat) (v : W64) (bad : Bool) (c : Scc) (pc : W64) (st : Strand) :
    (Strand.resulted p d v bad c pc st).spoison = (st.setS p d v bad).spoison := by
  unfold Strand.resulted
  rw [Strand.updPath_spoison]
  unfold Strand.setS Strand.putS
  split
  · exact Strand.updPath_spoison _ _ _
  · rw [Strand.updPath_spoison]

theorem Strand.resulted_rest (p d : Nat) (v : W64) (bad : Bool) (c : Scc) (pc : W64) (st : Strand) :
    { Strand.resulted p d v bad c pc st with root := st.root, entries := st.entries, sregs := st.sregs, spoison := st.spoison } = st := by
  unfold Strand.resulted Strand.setS Strand.updPath
  by_cases h : p = 15 <;> by_cases hd : d = 0 <;> simp only [h, hd, if_true, if_false] <;> rfl

/-- The whole outcome of a scalar instruction that goes on at `pc` with one register and `scc` written. -/
theorem wrote_of {s : State} {x : Issuer} (hx : s.issuer = some x) (d : Nat) (v : W64) (bad : Bool) (c : Scc) (pc : W64) (l : List Instr)
    (hl : l = [] ∨ l = [.watchdogInsnExpiry x.id.coil]) :
    Wrote s ((((s.setScc x.id c).setS x.id d v bad).updCoil x.id.coil (Coil.stepped x.id pc)).push l) x d v bad c pc := by
  have hx := State.issuer_at hx
  have h := State.issuerAt_some.mp hx
  let g1 : Strand → Strand := fun st => st.updPath x.id.path (fun p => { p with scc := c })
  let g2 : Strand → Strand := fun st => st.setS x.id.path d v bad
  let F : Coil → Coil := fun c0 =>
    Coil.stepped x.id pc { c0 with strands := (c0.strands.modify x.id.strand g1).modify x.id.strand g2 }
  have hF : ((s.setScc x.id c).setS x.id d v bad).updCoil x.id.coil (Coil.stepped x.id pc) = s.updCoil x.id.coil F := by
    unfold State.setScc State.setS State.updPath State.updStrand
    simp only [State.updCoil_updCoil]
    rfl
  have hst : (F x.coil).strands = x.coil.strands.modify x.id.strand (Strand.resulted x.id.path d v bad c pc) := by
    simp only [F, Coil.stepped, List.modify_modify_eq]
    congr 1
  have hs : (F x.coil).strands[x.id.strand]? = some (Strand.resulted x.id.path d v bad c pc x.strand) := by
    rw [hst, List.getElem?_modify_eq, h.2.2.1]; rfl
  have hp : (Strand.resulted x.id.path d v bad c pc x.strand).path? x.id.path
      = some { x.path with scc := c, bpPass := false, pc := pc } := by
    unfold Strand.resulted
    rw [Strand.path_updPath_same, Strand.setS_path, Strand.path_updPath_same, h.2.2.2.2]; rfl
  have hi := State.issuerAt_updCoil hx F _ _ rfl hs hp l
  rw [hF]
  refine ⟨⟨rfl, ?_, ?_⟩, ⟨_, hi, ⟨rfl, rfl, rfl, rfl, ?_⟩, ⟨?_, ?_, rfl⟩, ⟨?_, ?_, ?_, ?_⟩, rfl, rfl⟩⟩
  · rcases hl with rfl | rfl
    · left; rw [State.push_nil]; rfl
    · right; rfl
  · intro j hj; exact Dict.find_upd_other _ _ _ _ hj
  · intro j hj
    show (F x.coil).strands[j]? = _
    rw [hst, List.getElem?_modify_ne]; exact Ne.symm hj
  · show { Strand.resulted x.id.path d v bad c pc x.strand with
        root := x.strand.root, entries := x.strand.entries, sregs := x.strand.sregs, spoison := x.strand.spoison } = x.strand
    exact Strand.resulted_rest _ _ _ _ _ _ _
  · intro q hq
    show (Strand.resulted _ _ _ _ _ _ _).path? q = _
    unfold Strand.resulted
    rw [Strand.path_updPath_other _ _ _ _ hq, Strand.setS_path, Strand.path_updPath_other _ _ _ _ hq]
  · intro hd
    show (Strand.resulted x.id.path d v bad c pc x.strand).getS x.id.path d = v
    unfold Strand.getS
    rw [if_neg hd, Strand.resulted_sregs]
    unfold Strand.setS Strand.putS
    rw [if_neg hd]; exact Tab.get_set_same _ _ _ _
  · intro hd
    show (Strand.resulted x.id.path d v bad c pc x.strand).badS x.id.path d = bad
    unfold Strand.badS
    rw [if_neg hd, Strand.resulted_spoison]
    unfold Strand.setS Strand.putS
    rw [if_neg hd]; exact Tab.get_set_same _ _ _ _
  · show (Strand.resulted x.id.path d v bad c pc x.strand).getS x.id.path 0 = 0
    rfl
  · intro key hk
    show Tab.get 0 (Strand.resulted x.id.path d v bad c pc x.strand).sregs key = _ ∧
      Tab.get false (Strand.resulted x.id.path d v bad c pc x.strand).spoison key = _
    rw [Strand.resulted_sregs, Strand.resulted_spoison]
    unfold Strand.setS Strand.putS
    by_cases hd : d = 0
    · simp [hd]
    · rw [if_neg hd]
      have hk := hk.resolve_left hd
      exact ⟨Tab.get_set_other _ _ _ _ _ hk, Tab.get_set_other _ _ _ _ _ hk⟩

theorem State.expiry_cases (s : State) (k : Nat) : s.expiry k = [] ∨ s.expiry k = [.watchdogInsnExpiry k] := by
  unfold State.expiry
  split
  · split
    · exact .inr rfl
    · exact .inl rfl
  · exact .inl rfl

theorem Dict.upd_self {α : Type} (t : Dict α) (k : Nat) (f : α → α) (v : α) (h : Dict.find? t k = some v) (hf : f v = v) : Dict.upd t k f = t := by
  induction t with
  | nil => rfl
  | cons e r ih =>
    obtain ⟨a, x⟩ := e
    simp only [Dict.find?] at h
    simp only [Dict.upd]
    by_cases ha : a = k
    · rw [if_pos ha] at h ⊢
      cases h; rw [hf]
    · rw [if_neg ha] at h ⊢
      rw [ih h]

theorem modify_self {α : Type} (f : α → α) : ∀ (l : List α) (i : Nat) (v : α), l[i]? = some v → f v = v → l.modify i f = l
  | [], _, _, h, _ => by simp at h
  | a :: r, 0, v, h, hf => by simp at h; subst h; simp [hf]
  | a :: r, i + 1, v, h, hf => by
    simp only [List.getElem?_cons_succ] at h
    simp [modify_self f r i v h hf]

theorem Strand.updPath_self (st : Strand) (p : Nat) (f : PathState → PathState) (v : PathState) (h : st.path? p = some v) (hf : f v = v) :
    st.updPath p f = st := by
  unfold Strand.path? at h
  unfold Strand.updPath
  by_cases hp : p = 15
  · rw [if_pos hp] at h ⊢
    split at h
    · cases h
    · simp only [Option.some.injEq] at h; rw [h, hf, ← h]
  · rw [if_neg hp] at h ⊢
    rw [Dict.upd_self _ _ _ _ h hf]

theorem State.updStrand_self {s : State} {x : Issuer} (hx : s.issuer = some x) (f : Strand → Strand) (hf : f x.strand = x.strand) :
    s.updStrand x.id.coil x.id.strand f = s := by
  have h := State.issuerAt_some.mp (State.issuer_at hx)
  unfold State.updStrand State.updCoil
  rw [Dict.upd_self _ _ _ _ h.2.1]
  rw [modify_self _ _ _ _ h.2.2.1 hf]

theorem State.setScc_self {s : State} {x : Issuer} (hx : s.issuer = some x) : s.setScc x.id x.path.scc = s :=
  State.updStrand_self hx _ (Strand.updPath_self _ _ _ _ (State.issuerAt_some.mp (State.issuer_at hx)).2.2.2.2 rfl)

theorem State.coilBolt_updCoil (s : State) (k : Nat) (F : Coil → Coil) (hb : ∀ c, (F c).bolt = c.bolt) :
    (s.updCoil k F).coilBolt? k = (s.coilBolt? k).map (fun e => (F e.1, e.2)) := by
  unfold State.coilBolt? State.coil?
  rw [show (s.updCoil k F).coils = Dict.upd s.coils k F from rfl, Dict.find_upd_same]
  cases Dict.find? s.coils k with
  | none => rfl
  | some c =>
    simp only [Option.map_some]
    rw [show (s.updCoil k F).bolts = s.bolts from rfl, hb]
    cases Dict.find? s.bolts c.bolt <;> rfl

/-- A scalar instruction whose effect is one register and `scc` writes them and goes on behind itself. -/
theorem settle_wrote {s : State} {x : Issuer} (hx : s.issuer = some x) (i : Instr) (d : Nat) (v : W64) (bad : Bool) (c : Scc) :
    Wrote s (settleScalar x i (.go ((s.setScc x.id c).setS x.id d v bad))) x d v bad c (x.path.pc + BitVec.ofNat 64 (insnBytes i)) := by
  rw [settle_go]
  exact wrote_of hx d v bad c _ _ (State.expiry_cases _ _)

theorem jump_wrote {s : State} {x : Issuer} (hx : s.issuer = some x) (i : Instr) (d : Nat) (v : W64) (bad : Bool) (c : Scc) (pc : W64) :
    Wrote s (settleScalar x i (.jump ((s.setScc x.id c).setS x.id d v bad) pc)) x d v bad c pc := by
  rw [settle_jump]
  exact wrote_of hx d v bad c _ _ (State.expiry_cases _ _)

/-- The integer forms: result, flags where the form sets them, and nothing else. -/
theorem aluPut_wrote {s : State} {x : Issuer} {n : Needs} (h : Ready s x n) (i : Instr) (d : BitVec 6) (f : Bool) (k : FlagKind) (a b r : W64) :
    ∃ t, scalar s i n (fun x => aluPut s x d f k a b r) = .next t ∧
      Wrote s t x d.toNat r false (if f then setFlags k a b r else x.path.scc) (x.path.pc + BitVec.ofNat 64 (insnBytes i)) := by
  refine ⟨_, scalar_ready h i _, ?_⟩
  unfold aluPut
  cases f with
  | true => exact settle_wrote h.turn i _ _ _ _
  | false =>
    have := settle_wrote h.turn i d.toNat r false x.path.scc
    rwa [State.setScc_self h.turn] at this

end Sys2Proof.Machine
end

