-- ==== Sys2Proof/Laws/L1.lean ====
section
/-! SUPPORT. What the operations on an L1 do to the rest of the state, and that memory stays canonical through them. -/

namespace Sys2Proof.Machine

open Sys2Proof

/-- From `s` to `t` only device memory, its poison, the reservations on it and the L1s differ, and canonical memory stays canonical. -/
structure ByL1 (s t : State) : Prop where
  rest : { t with mem := s.mem, poison := s.poison, resv := s.resv, l1 := s.l1 } = s
  wf : Memory.wf s.mem = true → Memory.wf t.mem = true

theorem ByL1.refl (s : State) : ByL1 s s := ⟨rfl, id⟩

theorem ByL1.trans {s t u : State} (h : ByL1 s t) (k : ByL1 t u) : ByL1 s u := by
  refine ⟨?_, fun w => k.wf (h.wf w)⟩
  have e := k.rest
  rw [← h.rest, ← e]

theorem ByL1.foldl {α : Type} (f : State → α → State) (hf : ∀ s a, ByL1 s (f s a)) : ∀ (l : List α) (s : State), ByL1 s (l.foldl f s)
  | [], s => .refl s
  | a :: l, s => (hf s a).trans (ByL1.foldl f hf l (f s a))

theorem State.poke_byL1 (s : State) (pa : Nat) (l : List Byte) (bad : Bool) : ByL1 s (s.poke pa l bad) := ⟨rfl, State.poke_wf s pa l bad⟩

theorem State.writeGranule_byL1 (s : State) (b : L1Block) (g : Nat) : ByL1 s (s.writeGranule b g) := by
  unfold State.writeGranule
  dsimp only
  split
  · exact State.poke_byL1 ..
  · exact ByL1.foldl _ (fun s o => State.poke_byL1 ..) _ _

theorem State.writeLines_byL1 (s : State) (b : L1Block) (ks : List Nat) : ByL1 s (s.writeLines b ks) := by
  refine ByL1.foldl _ (fun s g => ?_) _ _
  split
  · exact .refl s
  · exact State.writeGranule_byL1 ..

/-- A write-back changes only memory, poison and the L1s. -/
theorem State.l1Write_byL1 (s : State) (b : L1Block) (ks : List Nat) (b1 : L1Block) : ByL1 s (s.l1Write b ks b1) := by
  have h := State.writeLines_byL1 s b ks
  unfold State.l1Write
  dsimp only
  split
  · exact h.trans ⟨rfl, id⟩
  · exact h.trans ⟨rfl, id⟩

theorem State.l1Evict_byL1 (s : State) (h sb : Nat) : ByL1 s (s.l1Evict h sb) := by
  unfold State.l1Evict
  split
  · exact State.l1Write_byL1 ..
  · exact .refl s

theorem State.l1Flush_byL1 (s : State) (h pa n : Nat) : ByL1 s (s.l1Flush h pa n) := by
  refine ByL1.foldl _ (fun s line => ?_) _ _
  split
  · exact State.l1Write_byL1 ..
  · exact .refl s

theorem State.l1Clean_byL1 (s : State) (h pa n : Nat) : ByL1 s (s.l1Clean h pa n) := by
  refine ByL1.foldl _ (fun s line => ?_) _ _
  dsimp only
  split
  · exact State.l1Write_byL1 ..
  · exact .refl s

theorem State.l1Renew_byL1 (s : State) (h pa n : Nat) : ByL1 s (s.l1Renew h pa n) := by
  refine ByL1.foldl _ (fun s line => ?_) _ _
  split
  · split
    · exact State.l1Write_byL1 ..
    · exact .refl s
  · exact .refl s

/-- An acquire changes only memory, poison and the L1s (R150). -/
theorem State.l1Acquire_byL1 (s : State) (h : Nat) : ByL1 s (s.l1Acquire h) := by
  refine ByL1.foldl _ (fun s sb => ?_) _ _
  dsimp only
  split
  · exact State.l1Write_byL1 ..
  · exact .refl s

theorem State.l1Back_byL1 (s : State) (h sb : Nat) : ByL1 s (s.l1Back h sb) := by
  unfold State.l1Back
  split
  · exact State.l1Write_byL1 ..
  · exact .refl s

/-- A release changes only memory, poison and the L1s (R150). -/
theorem State.l1Release_byL1 (s : State) (h : Nat) : ByL1 s (s.l1Release h) := ByL1.foldl _ (fun s sb => State.l1Back_byL1 s h sb) _ _

theorem State.l1Alloc_byL1 (s : State) (h sb : Nat) : ByL1 s (s.l1Alloc h sb).2 := by
  unfold State.l1Alloc
  split
  · exact .refl s
  · dsimp only
    split
    · exact .refl s
    · split
      · exact State.l1Evict_byL1 ..
      · exact .refl s

theorem State.l1Put_byL1 (s : State) (b : L1Block) : ByL1 s (s.l1Put b) := ⟨rfl, id⟩

/-- A read changes only memory, poison and the L1s (R148). -/
theorem State.l1Touch_byL1 (s : State) (h pa n : Nat) : ByL1 s (s.l1Touch h pa n) :=
  (State.l1Alloc_byL1 s h (pa / 512)).trans (State.l1Put_byL1 ..)

/-- A store changes only memory, poison and the L1s (R149). -/
theorem State.l1Store_byL1 (s : State) (h pa : Nat) (l : List Byte) (bad : Bool) : ByL1 s (s.l1Store h pa l bad) :=
  (State.l1Alloc_byL1 s h (pa / 512)).trans (State.l1Put_byL1 ..)

theorem State.l1Leave_byL1 (s : State) (h way : Nat) : ByL1 s (s.l1Leave h way) :=
  ByL1.foldl _ (fun s sb => State.l1Evict_byL1 s h sb) _ _

theorem State.l1Purge_byL1 (s : State) (pa n : Nat) : ByL1 s (s.l1Purge pa n) :=
  ByL1.foldl _ (fun s (e : Nat × Nat) => State.l1Evict_byL1 s e.1 e.2) _ _

theorem State.l1Settle_byL1 (s : State) (pa n : Nat) : ByL1 s (s.l1Settle pa n) :=
  ByL1.foldl _ (fun s (e : Nat × Nat) => State.l1Back_byL1 s e.1 e.2) _ _

theorem State.acquireAll_byL1 (s : State) (c : Coil) (d : Desc) : ByL1 s (s.acquireAll c d) := ByL1.foldl _ State.l1Acquire_byL1 _ _
theorem State.releaseAll_byL1 (s : State) (c : Coil) (d : Desc) : ByL1 s (s.releaseAll c d) := ByL1.foldl _ State.l1Release_byL1 _ _

/-- A block that an L1 gives is one of its own. -/
theorem State.l1At_some {s : State} {h sb : Nat} {b : L1Block} (e : s.l1At h sb = some b) : b ∈ s.l1 ∧ b.hamper = h ∧ b.base = sb := by
  have k := List.find?_some e
  simp only [Bool.and_eq_true, beq_iff_eq] at k
  exact ⟨List.mem_of_find?_eq_some e, k⟩

/-- What an L1 with no block of a superblock gives is what the L2 holds. -/
theorem State.seen_none {s : State} {h a : Nat} (e : s.l1At h (a / 512) = none) : s.seen h a = s.byte a := by
  unfold State.seen
  rw [e]

end Sys2Proof.Machine
end

