-- ==== Sys2Proof/Laws/PerInstr.lean ====
section
/-! SUPPORT. For every instruction: its encoding is at most three words, each of 32 bits (R285, R286). -/

namespace Sys2Proof.Laws.WordsFit

open Sys2Proof Sys2Proof.Machine

/-- The words of an instruction are at most three, and each fits in 32 bits. -/
def Statement (i : Instr) : Prop := (encode i).length ≤ 3 ∧ ∀ w ∈ encode i, w < 2 ^ 32

theorem b2n_le (b : Bool) : b2n b ≤ 1 := by cases b <;> decide

theorem none_fits {i : Instr} (h : encode i = []) : Statement i := by
  constructor <;> simp [h]

theorem one_fits {i : Instr} {w : Nat} (h : encode i = [w]) (hw : w < 2 ^ 32) : Statement i := by
  refine ⟨by simp [h], ?_⟩
  simpa [h] using hw

theorem two_fit {i : Instr} {w x : Nat} (h : encode i = [w, x]) (hw : w < 2 ^ 32) (hx : x < 2 ^ 32) : Statement i := by
  refine ⟨by simp [h], ?_⟩
  simpa [h] using ⟨hw, hx⟩

theorem three_fit {i : Instr} {w x y : Nat} (h : encode i = [w, x, y]) (hw : w < 2 ^ 32) (hx : x < 2 ^ 32) (hy : y < 2 ^ 32) :
    Statement i := by
  refine ⟨by simp [h], ?_⟩
  simpa [h] using ⟨hw, hx, hy⟩

theorem swap4_lt (w : Nat) : swap4 w < 2 ^ 32 := by
  simp only [swap4, ofElems, bits]; omega

theorem lane_fits {i : Instr} (op : Nat) (o : Lane) (hop : op < 256) (h : encode i = laneWords op o) : Statement i := by
  have := o.sub.isLt; have := o.ty.isLt; have := o.la.isLt; have := o.msel.isLt; have := o.mod.isLt; have := b2n_le o.mneg
  have := o.d.isLt; have := o.a.isLt; have := o.b.isLt; have := o.c.isLt
  exact three_fit h (by omega) (by omega) o.imm.isLt

theorem add (d a b : BitVec 6) (f : Bool) : Statement (.add d a b f) := one_fits rfl (by have := d.isLt; have := a.isLt; have := b.isLt; have := b2n_le f; unfold wordSr; omega)
theorem sub (d a b : BitVec 6) (f : Bool) : Statement (.sub d a b f) := one_fits rfl (by have := d.isLt; have := a.isLt; have := b.isLt; have := b2n_le f; unfold wordSr; omega)
theorem and (d a b : BitVec 6) (f : Bool) : Statement (.and d a b f) := one_fits rfl (by have := d.isLt; have := a.isLt; have := b.isLt; have := b2n_le f; unfold wordSr; omega)
theorem or (d a b : BitVec 6) (f : Bool) : Statement (.or d a b f) := one_fits rfl (by have := d.isLt; have := a.isLt; have := b.isLt; have := b2n_le f; unfold wordSr; omega)
theorem xor (d a b : BitVec 6) (f : Bool) : Statement (.xor d a b f) := one_fits rfl (by have := d.isLt; have := a.isLt; have := b.isLt; have := b2n_le f; unfold wordSr; omega)
theorem andn (d a b : BitVec 6) (f : Bool) : Statement (.andn d a b f) := one_fits rfl (by have := d.isLt; have := a.isLt; have := b.isLt; have := b2n_le f; unfold wordSr; omega)
theorem shl (d a b : BitVec 6) (f : Bool) : Statement (.shl d a b f) := one_fits rfl (by have := d.isLt; have := a.isLt; have := b.isLt; have := b2n_le f; unfold wordSr; omega)
theorem shr (d a b : BitVec 6) (f : Bool) : Statement (.shr d a b f) := one_fits rfl (by have := d.isLt; have := a.isLt; have := b.isLt; have := b2n_le f; unfold wordSr; omega)
theorem sra (d a b : BitVec 6) (f : Bool) : Statement (.sra d a b f) := one_fits rfl (by have := d.isLt; have := a.isLt; have := b.isLt; have := b2n_le f; unfold wordSr; omega)
theorem minS (d a b : BitVec 6) : Statement (.minS d a b) := one_fits rfl (by have := d.isLt; have := a.isLt; have := b.isLt; unfold wordSr; omega)
theorem maxS (d a b : BitVec 6) : Statement (.maxS d a b) := one_fits rfl (by have := d.isLt; have := a.isLt; have := b.isLt; unfold wordSr; omega)
theorem minN (d a b : BitVec 6) : Statement (.minN d a b) := one_fits rfl (by have := d.isLt; have := a.isLt; have := b.isLt; unfold wordSr; omega)
theorem maxN (d a b : BitVec 6) : Statement (.maxN d a b) := one_fits rfl (by have := d.isLt; have := a.isLt; have := b.isLt; unfold wordSr; omega)
theorem sadd2 (d a b : BitVec 6) : Statement (.sadd2 d a b) := one_fits rfl (by have := d.isLt; have := a.isLt; have := b.isLt; unfold wordSr; omega)
theorem sadd4 (d a b : BitVec 6) : Statement (.sadd4 d a b) := one_fits rfl (by have := d.isLt; have := a.isLt; have := b.isLt; unfold wordSr; omega)
theorem sadd8 (d a b : BitVec 6) : Statement (.sadd8 d a b) := one_fits rfl (by have := d.isLt; have := a.isLt; have := b.isLt; unfold wordSr; omega)
theorem sextS8 (d a : BitVec 6) : Statement (.sextS8 d a) := one_fits rfl (by have := d.isLt; have := a.isLt; unfold wordSr; omega)
theorem sextS16 (d a : BitVec 6) : Statement (.sextS16 d a) := one_fits rfl (by have := d.isLt; have := a.isLt; unfold wordSr; omega)
theorem sextS32 (d a : BitVec 6) : Statement (.sextS32 d a) := one_fits rfl (by have := d.isLt; have := a.isLt; unfold wordSr; omega)
theorem zextN8 (d a : BitVec 6) : Statement (.zextN8 d a) := one_fits rfl (by have := d.isLt; have := a.isLt; unfold wordSr; omega)
theorem zextN16 (d a : BitVec 6) : Statement (.zextN16 d a) := one_fits rfl (by have := d.isLt; have := a.isLt; unfold wordSr; omega)
theorem zextN32 (d a : BitVec 6) : Statement (.zextN32 d a) := one_fits rfl (by have := d.isLt; have := a.isLt; unfold wordSr; omega)
theorem popc (d a : BitVec 6) : Statement (.popc d a) := one_fits rfl (by have := d.isLt; have := a.isLt; unfold wordSr; omega)
theorem clz (d a : BitVec 6) : Statement (.clz d a) := one_fits rfl (by have := d.isLt; have := a.isLt; unfold wordSr; omega)
theorem ctz (d a : BitVec 6) : Statement (.ctz d a) := one_fits rfl (by have := d.isLt; have := a.isLt; unfold wordSr; omega)
theorem mul (d a b : BitVec 6) : Statement (.mul d a b) := one_fits rfl (by have := d.isLt; have := a.isLt; have := b.isLt; unfold wordSr; omega)
theorem mulhS (d a b : BitVec 6) : Statement (.mulhS d a b) := one_fits rfl (by have := d.isLt; have := a.isLt; have := b.isLt; unfold wordSr; omega)
theorem mulhN (d a b : BitVec 6) : Statement (.mulhN d a b) := one_fits rfl (by have := d.isLt; have := a.isLt; have := b.isLt; unfold wordSr; omega)
theorem mulhSn (d a b : BitVec 6) : Statement (.mulhSn d a b) := one_fits rfl (by have := d.isLt; have := a.isLt; have := b.isLt; unfold wordSr; omega)
theorem divS (d a b : BitVec 6) : Statement (.divS d a b) := one_fits rfl (by have := d.isLt; have := a.isLt; have := b.isLt; unfold wordSr; omega)
theorem divN (d a b : BitVec 6) : Statement (.divN d a b) := one_fits rfl (by have := d.isLt; have := a.isLt; have := b.isLt; unfold wordSr; omega)
theorem remS (d a b : BitVec 6) : Statement (.remS d a b) := one_fits rfl (by have := d.isLt; have := a.isLt; have := b.isLt; unfold wordSr; omega)
theorem remN (d a b : BitVec 6) : Statement (.remN d a b) := one_fits rfl (by have := d.isLt; have := a.isLt; have := b.isLt; unfold wordSr; omega)
theorem addi (d a : BitVec 6) (imm : BitVec 14) : Statement (.addi d a imm) := one_fits rfl (by have := d.isLt; have := a.isLt; have := imm.isLt; unfold wordSi; omega)
theorem andi (d a : BitVec 6) (imm : BitVec 14) : Statement (.andi d a imm) := one_fits rfl (by have := d.isLt; have := a.isLt; have := imm.isLt; unfold wordSi; omega)
theorem ori (d a : BitVec 6) (imm : BitVec 14) : Statement (.ori d a imm) := one_fits rfl (by have := d.isLt; have := a.isLt; have := imm.isLt; unfold wordSi; omega)
theorem xori (d a : BitVec 6) (imm : BitVec 14) : Statement (.xori d a imm) := one_fits rfl (by have := d.isLt; have := a.isLt; have := imm.isLt; unfold wordSi; omega)
theorem shli (d a n : BitVec 6) : Statement (.shli d a n) := one_fits rfl (by have := d.isLt; have := a.isLt; have := n.isLt; unfold wordSi; omega)
theorem shri (d a n : BitVec 6) : Statement (.shri d a n) := one_fits rfl (by have := d.isLt; have := a.isLt; have := n.isLt; unfold wordSi; omega)
theorem srai (d a n : BitVec 6) : Statement (.srai d a n) := one_fits rfl (by have := d.isLt; have := a.isLt; have := n.isLt; unfold wordSi; omega)
theorem cmpi (a : BitVec 6) (imm : BitVec 14) : Statement (.cmpi a imm) := one_fits rfl (by have := a.isLt; have := imm.isLt; unfold wordSi; omega)
theorem ldN8 (d a : BitVec 6) (imm : BitVec 14) : Statement (.ldN8 d a imm) := one_fits rfl (by have := d.isLt; have := a.isLt; have := imm.isLt; unfold wordSi; omega)
theorem ldN16 (d a : BitVec 6) (imm : BitVec 14) : Statement (.ldN16 d a imm) := one_fits rfl (by have := d.isLt; have := a.isLt; have := imm.isLt; unfold wordSi; omega)
theorem ldN32 (d a : BitVec 6) (imm : BitVec 14) : Statement (.ldN32 d a imm) := one_fits rfl (by have := d.isLt; have := a.isLt; have := imm.isLt; unfold wordSi; omega)
theorem ldB64 (d a : BitVec 6) (imm : BitVec 14) : Statement (.ldB64 d a imm) := one_fits rfl (by have := d.isLt; have := a.isLt; have := imm.isLt; unfold wordSi; omega)
theorem stB8 (d a : BitVec 6) (imm : BitVec 14) : Statement (.stB8 d a imm) := one_fits rfl (by have := d.isLt; have := a.isLt; have := imm.isLt; unfold wordSi; omega)
theorem stB16 (d a : BitVec 6) (imm : BitVec 14) : Statement (.stB16 d a imm) := one_fits rfl (by have := d.isLt; have := a.isLt; have := imm.isLt; unfold wordSi; omega)
theorem stB32 (d a : BitVec 6) (imm : BitVec 14) : Statement (.stB32 d a imm) := one_fits rfl (by have := d.isLt; have := a.isLt; have := imm.isLt; unfold wordSi; omega)
theorem stB64 (d a : BitVec 6) (imm : BitVec 14) : Statement (.stB64 d a imm) := one_fits rfl (by have := d.isLt; have := a.isLt; have := imm.isLt; unfold wordSi; omega)
theorem atom (d a b : BitVec 6) (p s : BitVec 3) (q : BitVec 2) : Statement (.atom d a b p s q) := one_fits rfl (by have := d.isLt; have := a.isLt; have := b.isLt; have := p.isLt; have := s.isLt; have := q.isLt; unfold wordSr; omega)
theorem b (c : BitVec 5) (off : BitVec 21) : Statement (.b c off) := one_fits rfl (by have := c.isLt; have := off.isLt; unfold wordSb; omega)
theorem bz (k : BitVec 4) (off : BitVec 21) : Statement (.bz k off) := one_fits rfl (by have := k.isLt; have := off.isLt; unfold wordSb; omega)
theorem bnz (k : BitVec 4) (off : BitVec 21) : Statement (.bnz k off) := one_fits rfl (by have := k.isLt; have := off.isLt; unfold wordSb; omega)
theorem call (off : BitVec 21) : Statement (.call off) := one_fits rfl (by have := off.isLt; unfold wordSb; omega)
theorem jalr (d a : BitVec 6) (imm : BitVec 14) : Statement (.jalr d a imm) := one_fits rfl (by have := d.isLt; have := a.isLt; have := imm.isLt; unfold wordSi; omega)
theorem kand (d a b : BitVec 4) : Statement (.kand d a b) := one_fits rfl (by have := d.isLt; have := a.isLt; have := b.isLt; unfold wordSk; omega)
theorem kor (d a b : BitVec 4) : Statement (.kor d a b) := one_fits rfl (by have := d.isLt; have := a.isLt; have := b.isLt; unfold wordSk; omega)
theorem kxor (d a b : BitVec 4) : Statement (.kxor d a b) := one_fits rfl (by have := d.isLt; have := a.isLt; have := b.isLt; unfold wordSk; omega)
theorem kandn (d a b : BitVec 4) : Statement (.kandn d a b) := one_fits rfl (by have := d.isLt; have := a.isLt; have := b.isLt; unfold wordSk; omega)
theorem knot (d a : BitVec 4) : Statement (.knot d a) := one_fits rfl (by have := d.isLt; have := a.isLt; unfold wordSk; omega)
theorem kmov (d a : BitVec 4) : Statement (.kmov d a) := one_fits rfl (by have := d.isLt; have := a.isLt; unfold wordSk; omega)
theorem kfroms (d : BitVec 4) (s : BitVec 6) : Statement (.kfroms d s) := one_fits rfl (by have := d.isLt; have := s.isLt; unfold wordSk; omega)
theorem ktos (a : BitVec 4) (s : BitVec 6) : Statement (.ktos a s) := one_fits rfl (by have := a.isLt; have := s.isLt; unfold wordSk; omega)
theorem kpopc (a : BitVec 4) (s : BitVec 6) : Statement (.kpopc a s) := one_fits rfl (by have := a.isLt; have := s.isLt; unfold wordSk; omega)
theorem kffs (a : BitVec 4) (s : BitVec 6) : Statement (.kffs a s) := one_fits rfl (by have := a.isLt; have := s.isLt; unfold wordSk; omega)
theorem ktest (a b : BitVec 4) : Statement (.ktest a b) := one_fits rfl (by have := a.isLt; have := b.isLt; unfold wordSk; omega)
theorem split (k : BitVec 4) (off : BitVec 21) : Statement (.split k off) := one_fits rfl (by have := k.isLt; have := off.isLt; unfold wordSb; omega)
theorem join (off : BitVec 21) : Statement (.join off) := one_fits rfl (by have := off.isLt; unfold wordSb; omega)
theorem nop : Statement .nop := one_fits rfl (by unfold wordSr; omega)
theorem endPath : Statement .endPath := one_fits rfl (by unfold wordSr; omega)
theorem trap (n : BitVec 6) : Statement (.trap n) := one_fits rfl (by have := n.isLt; unfold wordSr; omega)
theorem waitPath (a : BitVec 6) (c : BitVec 4) : Statement (.waitPath a c) := one_fits rfl (by have := a.isLt; have := c.isLt; unfold wordSr; omega)
theorem waitMx (a : BitVec 6) (s : BitVec 3) : Statement (.waitMx a s) := one_fits rfl (by have := a.isLt; have := s.isLt; unfold wordSr; omega)
theorem waitTrv (a : BitVec 6) (s : BitVec 3) : Statement (.waitTrv a s) := one_fits rfl (by have := a.isLt; have := s.isLt; unfold wordSr; omega)
theorem waitCov (a : BitVec 6) (s : BitVec 3) : Statement (.waitCov a s) := one_fits rfl (by have := a.isLt; have := s.isLt; unfold wordSr; omega)
theorem waitMem (a b : BitVec 6) (s : BitVec 3) : Statement (.waitMem a b s) := one_fits rfl (by have := a.isLt; have := b.isLt; have := s.isLt; unfold wordSr; omega)
theorem srd (d : BitVec 6) (n : BitVec 8) : Statement (.srd d n) := one_fits rfl (by have := d.isLt; have := n.isLt; unfold wordSr; omega)
theorem swr (a : BitVec 6) (n : BitVec 8) : Statement (.swr a n) := one_fits rfl (by have := a.isLt; have := n.isLt; unfold wordSr; omega)
theorem fence (s : BitVec 3) (q : BitVec 2) : Statement (.fence s q) := one_fits rfl (by have := s.isLt; have := q.isLt; unfold wordSr; omega)
theorem barInit (a : BitVec 6) (b : BitVec 4) : Statement (.barInit a b) := one_fits rfl (by have := a.isLt; have := b.isLt; unfold wordSr; omega)
theorem barDrop (b : BitVec 4) : Statement (.barDrop b) := one_fits rfl (by have := b.isLt; unfold wordSr; omega)
theorem barArrive (d : BitVec 6) (b : BitVec 4) : Statement (.barArrive d b) := one_fits rfl (by have := d.isLt; have := b.isLt; unfold wordSr; omega)
theorem barWait (a : BitVec 6) (b : BitVec 4) : Statement (.barWait a b) := one_fits rfl (by have := a.isLt; have := b.isLt; unfold wordSr; omega)
theorem barSync (d : BitVec 6) (b : BitVec 4) : Statement (.barSync d b) := one_fits rfl (by have := d.isLt; have := b.isLt; unfold wordSr; omega)
theorem hoopInit (a : BitVec 6) (h : BitVec 4) : Statement (.hoopInit a h) := one_fits rfl (by have := a.isLt; have := h.isLt; unfold wordSr; omega)
theorem hoopWfill (d a b : BitVec 6) (h : BitVec 4) : Statement (.hoopWfill d a b h) := one_fits rfl (by have := d.isLt; have := a.isLt; have := b.isLt; have := h.isLt; unfold wordSr; omega)
theorem hoopFilled (a : BitVec 6) (h : BitVec 4) : Statement (.hoopFilled a h) := one_fits rfl (by have := a.isLt; have := h.isLt; unfold wordSr; omega)
theorem hoopWtake (d a b : BitVec 6) (h : BitVec 4) : Statement (.hoopWtake d a b h) := one_fits rfl (by have := d.isLt; have := a.isLt; have := b.isLt; have := h.isLt; unfold wordSr; omega)
theorem hoopTaken (a : BitVec 6) (h : BitVec 4) : Statement (.hoopTaken a h) := one_fits rfl (by have := a.isLt; have := h.isLt; unfold wordSr; omega)
theorem hoopRd (d : BitVec 6) (h : BitVec 4) : Statement (.hoopRd d h) := one_fits rfl (by have := d.isLt; have := h.isLt; unfold wordSr; omega)
theorem twait (d a b : BitVec 6) (c : BitVec 4) : Statement (.twait d a b c) := one_fits rfl (by have := d.isLt; have := a.isLt; have := b.isLt; have := c.isLt; unfold wordSr; omega)
theorem mxMma (d a b : BitVec 6) (l : Bool) (f : BitVec 4) : Statement (.mxMma d a b l f) := one_fits rfl (by have := d.isLt; have := a.isLt; have := b.isLt; have := b2n_le l; have := f.isLt; unfold wordSr; omega)
theorem mxGang (d a b : BitVec 6) (l : Bool) (f : BitVec 4) : Statement (.mxGang d a b l f) := one_fits rfl (by have := d.isLt; have := a.isLt; have := b.isLt; have := b2n_le l; have := f.isLt; unfold wordSr; omega)
theorem mxCbld (d a : BitVec 6) (s : BitVec 3) : Statement (.mxCbld d a s) := one_fits rfl (by have := d.isLt; have := a.isLt; have := s.isLt; unfold wordSr; omega)
theorem mxClr (d : BitVec 6) (t : BitVec 4) : Statement (.mxClr d t) := one_fits rfl (by have := d.isLt; have := t.isLt; unfold wordSr; omega)
theorem mxDrain (d a b : BitVec 6) (x : Bool) (r : Bool) : Statement (.mxDrain d a b x r) := one_fits rfl (by have := d.isLt; have := a.isLt; have := b.isLt; have := b2n_le x; have := b2n_le r; unfold wordSr; omega)
theorem cpPush (d a b : BitVec 6) : Statement (.cpPush d a b) := one_fits rfl (by have := d.isLt; have := a.isLt; have := b.isLt; unfold wordSr; omega)
theorem cpTest (d a b : BitVec 6) (s : BitVec 3) : Statement (.cpTest d a b s) := one_fits rfl (by have := d.isLt; have := a.isLt; have := b.isLt; have := s.isLt; unfold wordSr; omega)
theorem cpWait (d a b : BitVec 6) (s : BitVec 3) : Statement (.cpWait d a b s) := one_fits rfl (by have := d.isLt; have := a.isLt; have := b.isLt; have := s.isLt; unfold wordSr; omega)
theorem cpCancel (d a b : BitVec 6) : Statement (.cpCancel d a b) := one_fits rfl (by have := d.isLt; have := a.isLt; have := b.isLt; unfold wordSr; omega)
theorem rqBuild (d a : BitVec 6) : Statement (.rqBuild d a) := one_fits rfl (by have := d.isLt; have := a.isLt; unfold wordSr; omega)
theorem rqRefit (d a : BitVec 6) : Statement (.rqRefit d a) := one_fits rfl (by have := d.isLt; have := a.isLt; unfold wordSr; omega)
theorem covTile (d a : BitVec 6) : Statement (.covTile d a) := one_fits rfl (by have := d.isLt; have := a.isLt; unfold wordSr; omega)
theorem covTileClr (d a : BitVec 6) : Statement (.covTileClr d a) := one_fits rfl (by have := d.isLt; have := a.isLt; unfold wordSr; omega)
theorem covResolve (d a : BitVec 6) (r : BitVec 2) : Statement (.covResolve d a r) := one_fits rfl (by have := d.isLt; have := a.isLt; have := r.isLt; unfold wordSr; omega)
theorem plyBegin (d a : BitVec 6) (c : BitVec 2) : Statement (.plyBegin d a c) := one_fits rfl (by have := d.isLt; have := a.isLt; have := c.isLt; unfold wordSr; omega)
theorem plyBeginCoil (d a : BitVec 6) (c : BitVec 2) : Statement (.plyBeginCoil d a c) := one_fits rfl (by have := d.isLt; have := a.isLt; have := c.isLt; unfold wordSr; omega)
theorem plyCommit (d : BitVec 6) : Statement (.plyCommit d) := one_fits rfl (by have := d.isLt; unfold wordSr; omega)
theorem plyCommitCoil (d : BitVec 6) : Statement (.plyCommitCoil d) := one_fits rfl (by have := d.isLt; unfold wordSr; omega)
theorem plyAbort (d : BitVec 6) : Statement (.plyAbort d) := one_fits rfl (by have := d.isLt; unfold wordSr; omega)
theorem plyAbortCoil (d : BitVec 6) : Statement (.plyAbortCoil d) := one_fits rfl (by have := d.isLt; unfold wordSr; omega)
theorem plySnap (d : BitVec 6) : Statement (.plySnap d) := one_fits rfl (by have := d.isLt; unfold wordSr; omega)
theorem plyDrop (a : BitVec 6) : Statement (.plyDrop a) := one_fits rfl (by have := a.isLt; unfold wordSr; omega)
theorem plyStamp (d a : BitVec 6) (c : BitVec 2) : Statement (.plyStamp d a c) := one_fits rfl (by have := d.isLt; have := a.isLt; have := c.isLt; unfold wordSr; omega)
theorem plyClock (d : BitVec 6) : Statement (.plyClock d) := one_fits rfl (by have := d.isLt; unfold wordSr; omega)
theorem li (d : BitVec 6) (imm : W32) : Statement (.li d imm) := two_fit rfl (by have := d.isLt; have := imm.isLt; unfold wordSr; omega) (BitVec.isLt _)
theorem lih (d : BitVec 6) (imm : W32) : Statement (.lih d imm) := two_fit rfl (by have := d.isLt; have := imm.isLt; unfold wordSr; omega) (BitVec.isLt _)
theorem addx (d a : BitVec 6) (imm : W32) : Statement (.addx d a imm) := two_fit rfl (by have := d.isLt; have := a.isLt; have := imm.isLt; unfold wordSr; omega) (BitVec.isLt _)
theorem crs (a : BitVec 6) (n : BitVec 4) (off : W32) : Statement (.crs a n off) := two_fit rfl (by have := a.isLt; have := n.isLt; have := off.isLt; unfold wordSr; omega) (BitVec.isLt _)
theorem upcall (d a : BitVec 6) (service : W16) : Statement (.upcall d a service) := two_fit rfl (by have := d.isLt; have := a.isLt; have := service.isLt; unfold wordSr; omega) (by first | exact BitVec.isLt _ | (have := BitVec.isLt service; omega))
theorem courseTrailer (n : BitVec 4) (kind : BitVec 8) (yield : Bool) (slots : W64) : Statement (.courseTrailer n kind yield slots) := three_fit rfl (by have := n.isLt; have := kind.isLt; have := b2n_le yield; have := slots.isLt; omega) (swap4_lt _) (swap4_lt _)
theorem vAdd (o : Lane) : Statement (.vAdd o) := lane_fits 0x01 o (by decide) rfl
theorem vSub (o : Lane) : Statement (.vSub o) := lane_fits 0x02 o (by decide) rfl
theorem vMul (o : Lane) : Statement (.vMul o) := lane_fits 0x03 o (by decide) rfl
theorem vMulh (o : Lane) : Statement (.vMulh o) := lane_fits 0x04 o (by decide) rfl
theorem vMad (o : Lane) : Statement (.vMad o) := lane_fits 0x05 o (by decide) rfl
theorem vMin (o : Lane) : Statement (.vMin o) := lane_fits 0x06 o (by decide) rfl
theorem vMax (o : Lane) : Statement (.vMax o) := lane_fits 0x07 o (by decide) rfl
theorem vAbs (o : Lane) : Statement (.vAbs o) := lane_fits 0x08 o (by decide) rfl
theorem vNeg (o : Lane) : Statement (.vNeg o) := lane_fits 0x09 o (by decide) rfl
theorem vAdds (o : Lane) : Statement (.vAdds o) := lane_fits 0x0A o (by decide) rfl
theorem vSubs (o : Lane) : Statement (.vSubs o) := lane_fits 0x0B o (by decide) rfl
theorem vDiv (o : Lane) : Statement (.vDiv o) := lane_fits 0x0C o (by decide) rfl
theorem vRem (o : Lane) : Statement (.vRem o) := lane_fits 0x0D o (by decide) rfl
theorem vSad (o : Lane) : Statement (.vSad o) := lane_fits 0x0E o (by decide) rfl
theorem vDot4 (o : Lane) : Statement (.vDot4 o) := lane_fits 0x0F o (by decide) rfl
theorem vAnd (o : Lane) : Statement (.vAnd o) := lane_fits 0x10 o (by decide) rfl
theorem vOr (o : Lane) : Statement (.vOr o) := lane_fits 0x11 o (by decide) rfl
theorem vXor (o : Lane) : Statement (.vXor o) := lane_fits 0x12 o (by decide) rfl
theorem vNot (o : Lane) : Statement (.vNot o) := lane_fits 0x13 o (by decide) rfl
theorem vShl (o : Lane) : Statement (.vShl o) := lane_fits 0x14 o (by decide) rfl
theorem vShr (o : Lane) : Statement (.vShr o) := lane_fits 0x15 o (by decide) rfl
theorem vBfx (o : Lane) : Statement (.vBfx o) := lane_fits 0x16 o (by decide) rfl
theorem vBfi (o : Lane) : Statement (.vBfi o) := lane_fits 0x17 o (by decide) rfl
theorem vPopc (o : Lane) : Statement (.vPopc o) := lane_fits 0x18 o (by decide) rfl
theorem vClz (o : Lane) : Statement (.vClz o) := lane_fits 0x19 o (by decide) rfl
theorem vCmp (o : Lane) : Statement (.vCmp o) := lane_fits 0x1A o (by decide) rfl
theorem vTest (o : Lane) : Statement (.vTest o) := lane_fits 0x1B o (by decide) rfl
theorem vFadd (o : Lane) : Statement (.vFadd o) := lane_fits 0x20 o (by decide) rfl
theorem vFsub (o : Lane) : Statement (.vFsub o) := lane_fits 0x21 o (by decide) rfl
theorem vFmul (o : Lane) : Statement (.vFmul o) := lane_fits 0x22 o (by decide) rfl
theorem vFma (o : Lane) : Statement (.vFma o) := lane_fits 0x23 o (by decide) rfl
theorem vFmin (o : Lane) : Statement (.vFmin o) := lane_fits 0x24 o (by decide) rfl
theorem vFmax (o : Lane) : Statement (.vFmax o) := lane_fits 0x25 o (by decide) rfl
theorem vFabs (o : Lane) : Statement (.vFabs o) := lane_fits 0x26 o (by decide) rfl
theorem vFneg (o : Lane) : Statement (.vFneg o) := lane_fits 0x27 o (by decide) rfl
theorem vFsgn (o : Lane) : Statement (.vFsgn o) := lane_fits 0x28 o (by decide) rfl
theorem vFint (o : Lane) : Statement (.vFint o) := lane_fits 0x29 o (by decide) rfl
theorem vFscl (o : Lane) : Statement (.vFscl o) := lane_fits 0x2A o (by decide) rfl
theorem vFcls (o : Lane) : Statement (.vFcls o) := lane_fits 0x2B o (by decide) rfl
theorem vFdiv (o : Lane) : Statement (.vFdiv o) := lane_fits 0x2C o (by decide) rfl
theorem vFsqrt (o : Lane) : Statement (.vFsqrt o) := lane_fits 0x2D o (by decide) rfl
theorem vFrcp (o : Lane) : Statement (.vFrcp o) := lane_fits 0x2E o (by decide) rfl
theorem vFrsq (o : Lane) : Statement (.vFrsq o) := lane_fits 0x2F o (by decide) rfl
theorem vFexp2 (o : Lane) : Statement (.vFexp2 o) := lane_fits 0x30 o (by decide) rfl
theorem vFlog2 (o : Lane) : Statement (.vFlog2 o) := lane_fits 0x31 o (by decide) rfl
theorem vFsin (o : Lane) : Statement (.vFsin o) := lane_fits 0x32 o (by decide) rfl
theorem vFcos (o : Lane) : Statement (.vFcos o) := lane_fits 0x33 o (by decide) rfl
theorem vFcmp (o : Lane) : Statement (.vFcmp o) := lane_fits 0x40 o (by decide) rfl
theorem vCvt (o : Lane) : Statement (.vCvt o) := lane_fits 0x48 o (by decide) rfl
theorem vPack (o : Lane) : Statement (.vPack o) := lane_fits 0x49 o (by decide) rfl
theorem vUnpack (o : Lane) : Statement (.vUnpack o) := lane_fits 0x4A o (by decide) rfl
theorem vBscl (o : Lane) : Statement (.vBscl o) := lane_fits 0x4B o (by decide) rfl
theorem vMov (o : Lane) : Statement (.vMov o) := lane_fits 0x58 o (by decide) rfl
theorem vSel (o : Lane) : Statement (.vSel o) := lane_fits 0x59 o (by decide) rfl
theorem vKmov (o : Lane) : Statement (.vKmov o) := lane_fits 0x5A o (by decide) rfl
theorem vShfl (o : Lane) : Statement (.vShfl o) := lane_fits 0x60 o (by decide) rfl
theorem vBcast (o : Lane) : Statement (.vBcast o) := lane_fits 0x61 o (by decide) rfl
theorem vRot (o : Lane) : Statement (.vRot o) := lane_fits 0x62 o (by decide) rfl
theorem vVote (o : Lane) : Statement (.vVote o) := lane_fits 0x63 o (by decide) rfl
theorem vSred (o : Lane) : Statement (.vSred o) := lane_fits 0x64 o (by decide) rfl
theorem vScan (o : Lane) : Statement (.vScan o) := lane_fits 0x65 o (by decide) rfl
theorem vTos (o : Lane) : Statement (.vTos o) := lane_fits 0x66 o (by decide) rfl
theorem vFroms (o : Lane) : Statement (.vFroms o) := lane_fits 0x67 o (by decide) rfl
theorem vXtr (o : Lane) : Statement (.vXtr o) := lane_fits 0x68 o (by decide) rfl
theorem vIns (o : Lane) : Statement (.vIns o) := lane_fits 0x69 o (by decide) rfl
theorem reorder (o : Lane) : Statement (.reorder o) := lane_fits 0x70 o (by decide) rfl
theorem vLd (o : Lane) : Statement (.vLd o) := lane_fits 0x80 o (by decide) rfl
theorem vSt (o : Lane) : Statement (.vSt o) := lane_fits 0x90 o (by decide) rfl
theorem vAtom (o : Lane) : Statement (.vAtom o) := lane_fits 0xA0 o (by decide) rfl
theorem vRed (o : Lane) : Statement (.vRed o) := lane_fits 0xA1 o (by decide) rfl
theorem vCpa (o : Lane) : Statement (.vCpa o) := lane_fits 0xB0 o (by decide) rfl
theorem vFpush (o : Lane) : Statement (.vFpush o) := lane_fits 0xB1 o (by decide) rfl
theorem vFpop (o : Lane) : Statement (.vFpop o) := lane_fits 0xB2 o (by decide) rfl
theorem mxPeek (o : Lane) : Statement (.mxPeek o) := lane_fits 0xC0 o (by decide) rfl
theorem mxRd (o : Lane) : Statement (.mxRd o) := lane_fits 0xC1 o (by decide) rfl
theorem mxWr (o : Lane) : Statement (.mxWr o) := lane_fits 0xC2 o (by decide) rfl
theorem rqRay (o : Lane) : Statement (.rqRay o) := lane_fits 0xC8 o (by decide) rfl
theorem rqBeam (o : Lane) : Statement (.rqBeam o) := lane_fits 0xC9 o (by decide) rfl
theorem covSeg (o : Lane) : Statement (.covSeg o) := lane_fits 0xCC o (by decide) rfl
theorem covBin (o : Lane) : Statement (.covBin o) := lane_fits 0xCD o (by decide) rfl
theorem atlReq (o : Lane) : Statement (.atlReq o) := lane_fits 0xD0 o (by decide) rfl
theorem upcallPost (u : UpcallReq) : Statement (.upcallPost u) := none_fits rfl
theorem quadrantPick (hamper quadrant : Nat) : Statement (.quadrantPick hamper quadrant) := none_fits rfl
theorem courseBegin (coil strand : Nat) : Statement (.courseBegin coil strand) := none_fits rfl
theorem laneLongComplete (op : Nat) : Statement (.laneLongComplete op) := none_fits rfl
theorem laneAccessFinish (op : Nat) : Statement (.laneAccessFinish op) := none_fits rfl
theorem btePoll (q : Nat) : Statement (.btePoll q) := none_fits rfl
theorem bteChunk (q number k : Nat) : Statement (.bteChunk q number k) := none_fits rfl
theorem mxKStep (op : Nat) : Statement (.mxKStep op) := none_fits rfl
theorem mxCbldComplete (op : Nat) : Statement (.mxCbldComplete op) := none_fits rfl
theorem mxClrComplete (op : Nat) : Statement (.mxClrComplete op) := none_fits rfl
theorem mxDrainComplete (op : Nat) : Statement (.mxDrainComplete op) := none_fits rfl
theorem deferredTrap (t : DeferredTrap) : Statement (.deferredTrap t) := none_fits rfl
theorem rayLaneComplete (op : Nat) : Statement (.rayLaneComplete op) := none_fits rfl
theorem beamComplete (op : Nat) : Statement (.beamComplete op) := none_fits rfl
theorem buildComplete (op : Nat) : Statement (.buildComplete op) := none_fits rfl
theorem refitComplete (op : Nat) : Statement (.refitComplete op) := none_fits rfl
theorem covOpComplete (op : Nat) : Statement (.covOpComplete op) := none_fits rfl
theorem coilPlace : Statement .coilPlace := none_fits rfl
theorem launchAccept (q : Nat) : Statement (.launchAccept q) := none_fits rfl
theorem coilSave (coil : Nat) : Statement (.coilSave coil) := none_fits rfl
theorem coilRestore (coil : Nat) : Statement (.coilRestore coil) := none_fits rfl
theorem watchdogInsnExpiry (coil : Nat) : Statement (.watchdogInsnExpiry coil) := none_fits rfl
theorem watchdogTimeExpiry (coil : Nat) : Statement (.watchdogTimeExpiry coil) := none_fits rfl
theorem scannerPoll (q : Nat) : Statement (.scannerPoll q) := none_fits rfl
theorem workerAssign : Statement .workerAssign := none_fits rfl
theorem waitPacketPoll (q : Nat) : Statement (.waitPacketPoll q) := none_fits rfl
theorem nopPacket (q : Nat) : Statement (.nopPacket q) := none_fits rfl
theorem launch (q : Nat) : Statement (.launch q) := none_fits rfl
theorem indirect (q : Nat) : Statement (.indirect q) := none_fits rfl
theorem predicate (q : Nat) : Statement (.predicate q) := none_fits rfl
theorem loop (q : Nat) : Statement (.loop q) := none_fits rfl
theorem waitPacket (q : Nat) : Statement (.waitPacket q) := none_fits rfl
theorem signal (q : Nat) : Statement (.signal q) := none_fits rfl
theorem fetchFence (q : Nat) : Statement (.fetchFence q) := none_fits rfl
theorem bankRoleChange (hamper bank : Nat) : Statement (.bankRoleChange hamper bank) := none_fits rfl
theorem plyRgnRetire (i : Nat) : Statement (.plyRgnRetire i) := none_fits rfl
theorem pwrModeChange : Statement .pwrModeChange := none_fits rfl
theorem waitMemRecheck (p : PathId) : Statement (.waitMemRecheck p) := none_fits rfl
theorem cpWaitRecheck (p : PathId) : Statement (.cpWaitRecheck p) := none_fits rfl
theorem bteDrainExpiry (q : Nat) : Statement (.bteDrainExpiry q) := none_fits rfl
theorem pickerFree : Statement .pickerFree := none_fits rfl
theorem twaitHintExpiry (p : PathId) : Statement (.twaitHintExpiry p) := none_fits rfl
theorem moduleReset : Statement .moduleReset := none_fits rfl
theorem flr : Statement .flr := none_fits rfl
theorem bootStageAdvance (selfTestOk trainOk : Bool) : Statement (.bootStageAdvance selfTestOk trainOk) := none_fits rfl
theorem hstRecoverGo : Statement .hstRecoverGo := none_fits rfl
theorem ping (r : MbxReq) : Statement (.ping r) := none_fits rfl
theorem mbxAlloc (r : MbxReq) : Statement (.mbxAlloc r) := none_fits rfl
theorem mbxFree (r : MbxReq) : Statement (.mbxFree r) := none_fits rfl
theorem queueOpen (r : MbxReq) : Statement (.queueOpen r) := none_fits rfl
theorem queueClose (r : MbxReq) : Statement (.queueClose r) := none_fits rfl
theorem mbxUnknownKind (r : MbxReq) : Statement (.mbxUnknownKind r) := none_fits rfl
theorem getVersion (r : SpdmReq) : Statement (.getVersion r) := none_fits rfl
theorem getCapabilities (r : SpdmReq) : Statement (.getCapabilities r) := none_fits rfl
theorem negotiateAlgorithms (r : SpdmReq) : Statement (.negotiateAlgorithms r) := none_fits rfl
theorem getDigests (r : SpdmReq) : Statement (.getDigests r) := none_fits rfl
theorem getCertificate (r : SpdmReq) : Statement (.getCertificate r) := none_fits rfl
theorem challenge (r : SpdmReq) : Statement (.challenge r) := none_fits rfl
theorem getMeasurements (r : SpdmReq) : Statement (.getMeasurements r) := none_fits rfl
theorem keyExchange (r : SpdmReq) : Statement (.keyExchange r) := none_fits rfl
theorem finish (r : SpdmReq) : Statement (.finish r) := none_fits rfl
theorem heartbeat (r : SpdmReq) : Statement (.heartbeat r) := none_fits rfl
theorem keyUpdate (r : SpdmReq) : Statement (.keyUpdate r) := none_fits rfl
theorem endSession (r : SpdmReq) : Statement (.endSession r) := none_fits rfl
theorem spdmUnsupportedRequest (r : SpdmReq) : Statement (.spdmUnsupportedRequest r) := none_fits rfl
theorem doeAbort : Statement .doeAbort := none_fits rfl
theorem hostBar2Read (off size : Nat) : Statement (.hostBar2Read off size) := none_fits rfl
theorem hostBar2Write (off : Nat) (w : Bar2Req) : Statement (.hostBar2Write off w) := none_fits rfl
theorem hostAtsInvalidate (page : Nat) : Statement (.hostAtsInvalidate page) := none_fits rfl
theorem hostWindowTimeout (req : Nat) : Statement (.hostWindowTimeout req) := none_fits rfl
theorem hostWindowCompletion (req : Nat) (status : CplStatus) (data : List Byte) : Statement (.hostWindowCompletion req status data) := none_fits rfl
theorem pwrModeWrite (value : W32) : Statement (.pwrModeWrite value) := none_fits rfl
theorem limiterLower (p : PowerReading) : Statement (.limiterLower p) := none_fits rfl
theorem limiterRaise (p : PowerHistory) : Statement (.limiterRaise p) := none_fits rfl
theorem currentTrip : Statement .currentTrip := none_fits rfl
theorem thermalThrottle (above : Bool) : Statement (.thermalThrottle above) := none_fits rfl
theorem hbmHotRefresh (above : Bool) : Statement (.hbmHotRefresh above) := none_fits rfl
theorem thermalTrip : Statement .thermalTrip := none_fits rfl
theorem healthRefresh (h : HealthReading) : Statement (.healthRefresh h) := none_fits rfl
theorem remoteRead (r : FabReq) : Statement (.remoteRead r) := none_fits rfl
theorem remoteWrite (r : FabReq) : Statement (.remoteWrite r) := none_fits rfl
theorem remoteAtomic (r : FabReq) : Statement (.remoteAtomic r) := none_fits rfl
theorem fabricResponse (req : Nat) (status : FabStatus) (data : List Byte) (flags : BitVec 5) : Statement (.fabricResponse req status data flags) := none_fits rfl
theorem backInvalidate (home line : Nat) : Statement (.backInvalidate home line) := none_fits rfl
theorem biTimeout (line holder : Nat) : Statement (.biTimeout line holder) := none_fits rfl
theorem fabricTimeout (req : Nat) : Statement (.fabricTimeout req) := none_fits rfl
theorem portNarrow (q : Nat) : Statement (.portNarrow q) := none_fits rfl
theorem portDown (q : Nat) : Statement (.portDown q) := none_fits rfl
theorem portRemap (q : Nat) : Statement (.portRemap q) := none_fits rfl
theorem homePathLoss (home : Nat) : Statement (.homePathLoss home) := none_fits rfl
theorem rdmaWriteArrival (r : RdmaReq) : Statement (.rdmaWriteArrival r) := none_fits rfl
theorem rdmaReadArrival (r : RdmaReq) : Statement (.rdmaReadArrival r) := none_fits rfl
theorem qpRetryLimit (pod conn : Nat) : Statement (.qpRetryLimit pod conn) := none_fits rfl
theorem congestionNotification (conn : Nat) : Statement (.congestionNotification conn) := none_fits rfl
theorem qpRateRecover (conn : Nat) : Statement (.qpRateRecover conn) := none_fits rfl
theorem yokeMemoryAccess (a : YokeAccess) : Statement (.yokeMemoryAccess a) := none_fits rfl
theorem yokUpcDone (index : W32) : Statement (.yokUpcDone index) := none_fits rfl
theorem yokFltResume (index : W32) (deny : Bool) : Statement (.yokFltResume index deny) := none_fits rfl
theorem yokSvnCommit (kind : BitVec 3) : Statement (.yokSvnCommit kind) := none_fits rfl
theorem yokMeasExtend (hart : Nat) (index : BitVec 3) : Statement (.yokMeasExtend hart index) := none_fits rfl
theorem yokRingEnable (fault : Bool) (value : W64) : Statement (.yokRingEnable fault value) := none_fits rfl
theorem registerWrite (hart pa size : Nat) (value : W64) : Statement (.registerWrite hart pa size value) := none_fits rfl
theorem registerReadClear (pa size : Nat) : Statement (.registerReadClear pa size) := none_fits rfl
theorem qrcOpen (q : Nat) : Statement (.qrcOpen q) := none_fits rfl
theorem qrcClose (q : Nat) : Statement (.qrcClose q) := none_fits rfl
theorem lockstepMismatch (withinMs : Bool) : Statement (.lockstepMismatch withinMs) := none_fits rfl
theorem timeSliceExpiry (coil : Nat) : Statement (.timeSliceExpiry coil) := none_fits rfl
theorem coilResume : Statement .coilResume := none_fits rfl
theorem coilKill : Statement .coilKill := none_fits rfl
theorem urgencyUpdate (coil : Nat) : Statement (.urgencyUpdate coil) := none_fits rfl
theorem pageWalk (asid : Nat) (va : W64) (kind : AccessKind) : Statement (.pageWalk asid va kind) := none_fits rfl
theorem tlbInvPage (asid : Nat) (va : W64) : Statement (.tlbInvPage asid va) := none_fits rfl
theorem tlbInvAsid (asid : Nat) : Statement (.tlbInvAsid asid) := none_fits rfl
theorem tlbInvAll : Statement .tlbInvAll := none_fits rfl
theorem bankRoleWrite (hamper : Nat) (value : W64) : Statement (.bankRoleWrite hamper value) := none_fits rfl
theorem uncorrectableError (site : ErrorSite) : Statement (.uncorrectableError site) := none_fits rfl
theorem ceThreshold (channel rate : Nat) : Statement (.ceThreshold channel rate) := none_fits rfl
theorem patrolScrub : Statement .patrolScrub := none_fits rfl
theorem plyRgnDeclare (i : Nat) (value : W64) : Statement (.plyRgnDeclare i value) := none_fits rfl
theorem plySlotWaitRevoke : Statement .plySlotWaitRevoke := none_fits rfl
theorem plyRevokeTimer : Statement .plyRevokeTimer := none_fits rfl
theorem bteOpen (q : Nat) : Statement (.bteOpen q) := none_fits rfl
theorem bteClose (q : Nat) : Statement (.bteClose q) := none_fits rfl
theorem bteMove (q engine : Nat) : Statement (.bteMove q engine) := none_fits rfl
theorem fwxTrapRetry (index : W32) : Statement (.fwxTrapRetry index) := none_fits rfl
theorem fwxTrapSkip (index : W32) : Statement (.fwxTrapSkip index) := none_fits rfl
theorem fwxTrapRetryOthers (index : W32) : Statement (.fwxTrapRetryOthers index) := none_fits rfl
theorem fwxTrapKill (index : W32) : Statement (.fwxTrapKill index) := none_fits rfl
theorem dbgStop : Statement .dbgStop := none_fits rfl
theorem dbgResume : Statement .dbgResume := none_fits rfl
theorem dbgStep : Statement .dbgStep := none_fits rfl
theorem pcSample (hamper : Nat) : Statement (.pcSample hamper) := none_fits rfl
theorem traceLossRecover (hamper : Nat) : Statement (.traceLossRecover hamper) := none_fits rfl
theorem traceBlockFlush (hamper : Nat) : Statement (.traceBlockFlush hamper) := none_fits rfl
theorem preemptPriority : Statement .preemptPriority := none_fits rfl
theorem mailboxPoll : Statement .mailboxPoll := none_fits rfl
theorem ualinkPortTraining (q : Nat) (ext : Bool) : Statement (.ualinkPortTraining q ext) := none_fits rfl
theorem configurationRequest (r : ConfigReq) : Statement (.configurationRequest r) := none_fits rfl
theorem ideKmRequest (r : IdeReq) : Statement (.ideKmRequest r) := none_fits rfl
theorem biAcknowledgement (line holder : Nat) : Statement (.biAcknowledgement line holder) := none_fits rfl
theorem rdmaResponseArrival (r : RdmaResp) : Statement (.rdmaResponseArrival r) := none_fits rfl

end Sys2Proof.Laws.WordsFit
end

