-- ==== Sys2Proof/Machine/Assembly.lean ====
section
/-! DEFINITION. What `phzas` fixes of a kernel beyond its instructions' encodings: names, expressions, lookahead, courses, directives and the
descriptor template (R305-R310, R350). It has no part in a step: the machine meets its output in memory. -/

namespace Sys2Proof.Machine

open Sys2Proof

/-- A decimal number of a register name. -/
def decimalOf (l : List Char) : Option Nat :=
  if l.isEmpty || !l.all Char.isDigit || (l.head? == some '0' && l.length != 1) then none
  else some (l.foldl (fun n c => 10 * n + (c.toNat - 48)) 0)

/-- The registers that a letter names: its first number and how many (R306). -/
def regLetter (c : Char) : Option (Nat × Nat) :=
  if c = 's' then some (0, 64) else if c = 'v' then some (0, 240) else if c = 't' then some (0, 8) else if c = 'p' then some (0, 4)
  else if c = 'k' then some (1, 15) else if c = 'a' then some (0, 16) else if c = 'm' then some (0, 4) else none

/-- A register name (R306). -/
def isRegName : List Char → Bool
  | c :: l => (match regLetter c, decimalOf l with
    | some (lo, n), some i => decide (lo ≤ i) && decide (i < lo + n)
    | _, _ => false)
  | [] => false

/-- An identifier (R305). -/
def isIdentifier (l : List Char) : Bool :=
  let start (c : Char) : Bool := c.isAlpha || c == '_' || c == '.'
  match l with
  | [] => false
  | c :: r => start c && r.all (fun d => start d || d.isDigit) && !isRegName l
      && !(["lane", "zero", "ones", "em", "la"].any (fun w => w.toList == l))

/-- An expression of the source language (R306). -/
inductive Expr where
  | num (v : W64)
  | add (a b : Expr)
  | sub (a b : Expr)
  | mul (a b : Expr)
  | shl (a b : Expr)
  | shr (a b : Expr)
  | and (a b : Expr)
  | or (a b : Expr)
  | not (a : Expr)
  deriving DecidableEq, Repr

/-- A shift of the 64-bit pattern: 0 by 64 or more, refused by a negative amount (R306). -/
def exprShift (up : Bool) (v n : W64) : Option W64 :=
  if n.msb then none else some (if up then v <<< n.toNat else v >>> n.toNat)

/-- The value of an expression in 64-bit two's complement; none where it is refused (R306). -/
def Expr.eval : Expr → Option W64
  | .num v => some v
  | .add a b => do return (← a.eval) + (← b.eval)
  | .sub a b => do return (← a.eval) - (← b.eval)
  | .mul a b => do return (← a.eval) * (← b.eval)
  | .shl a b => do exprShift true (← a.eval) (← b.eval)
  | .shr a b => do exprShift false (← a.eval) (← b.eval)
  | .and a b => do return (← a.eval) &&& (← b.eval)
  | .or a b => do return (← a.eval) ||| (← b.eval)
  | .not a => do return ~~~(← a.eval)

/-- Word 2 of a number in a lane instruction of floating type: RNE to the type, to FP32 for `.f64`; refused when infinite (R306). -/
def floatImm (ty : Nat) (v : FVal) : Option Nat :=
  let f := fmtOf (if ty = 11 then 10 else ty)
  let x := (f.arith { rm := 0 } v).1
  if (f.decode x).isInf then none else some x

/-- The aliases `mov`, `neg`, `cmp` and `ret`, as their base forms (R350). -/
def aliasMov (d a : BitVec 6) : Instr := .or d a 0 false
def aliasNeg (d a : BitVec 6) : Instr := .sub d 0 a false
def aliasCmp (a b : BitVec 6) : Instr := .sub 0 a b true
def aliasRet : Instr := .jalr 0 63 0

/-- `la=auto`: the registers that each instruction left in the course reads or writes, against the long instruction's destinations (R306). -/
def laAuto (dests : List Nat) (left : List (List Nat)) : Nat :=
  ((left.take 15).takeWhile (fun regs => regs.all (fun r => !dests.contains r))).length

/-- An entry of a trailer's list: a lane register, or a mask with 0 for `em` (R308). -/
inductive Awaited where
  | lane (v : Nat)
  | mask (k : Nat)
  deriving DecidableEq, Repr

/-- Its slot and its KIND bit; none where it may not be listed (R300, R308). -/
def Awaited.slot : Awaited → Option (Nat × Nat)
  | .lane v => if v < 240 then some (v, 0) else none
  | .mask k => if k = 0 then some (16, 1) else if k < 16 then some (k, 1) else none

/-- The trailer of a list: slots in list order, NAWAIT the list's length; none where it is refused (R308). -/
def trailerOf (l : List Awaited) (yield : Bool) : Option Instr :=
  match l.mapM Awaited.slot with
  | none => none
  | some e => if 8 < l.length then none
      else some (.courseTrailer (BitVec.ofNat 4 l.length) (BitVec.ofNat 8 (ofElems 1 (e.map Prod.snd))) yield (BitVec.ofNat 64 (ofElems 8 (e.map Prod.fst))))

/-- A course: 1 to 24 instructions and its trailer, one after the other (R286, R308). -/
def courseOf (body : List Instr) (l : List Awaited) (yield : Bool) : Option (List W96) :=
  if body.isEmpty || decide (24 < body.length) then none else (trailerOf l yield).map (fun t => (body ++ [t]).map insnWords)

/-- The sections of a kernel (R307). -/
inductive Section where
  | scode | lcode | data
  deriving DecidableEq, Repr

/-- `.align`: bytes put in at an offset, `nop` words in `.scode` and zeros elsewhere; none for no power of two (R309). -/
def alignPad (k : Section) (off n : Nat) : Option (List Byte) :=
  if n = 0 ∨ n ≠ 2 ^ n.log2 then none
  else
    let m := (n - off % n) % n
    some (if k = .scode then (List.replicate (m / 4) (toBytes 4 0x68000000)).flatten ++ List.replicate (m % 4) 0 else List.replicate m 0)

/-- `.byte`, `.half`, `.word` and `.dword`: expressions of 1, 2, 4 or 8 bytes (R309). -/
def dataBytes (size : Nat) (l : List W64) : List Byte := l.flatMap (fun v => toBytes size v.toNat)

/-- The directives of a kernel (R309): `.lanes` must be given, the others stand at what an omitted one takes. -/
structure Kernel where
  lanes : Option Nat := none
  vregs : Nat := 16
  sregs : Nat := 16
  copy : Nat := 0
  matrix : Nat := 0
  vector : Nat := 0
  pair : Bool := false
  splits : Nat := 0
  scratch : Nat := 0
  barrier : Nat := 0
  hoop : Nat := 0
  acc : Nat := 0
  codebooks : Nat := 0
  deriving DecidableEq, Repr

/-- Every argument lies within its range (R309). -/
def Kernel.inRange (k : Kernel) : Bool :=
  [some 16, some 32, some 64].contains k.lanes && decide (16 ≤ k.vregs) && decide (k.vregs ≤ 240) && k.vregs % 16 == 0
    && [16, 32, 48, 64].contains k.sregs && decide (k.splits ≤ 8) && decide (k.scratch ≤ 480) && decide (k.barrier ≤ 16)
    && decide (k.hoop ≤ 8) && decide (k.acc ≤ 16) && decide (k.codebooks ≤ 8) && decide (k.copy + k.matrix + k.vector < 256)

/-- LAYOUT: LANES and PAIR (R97, R310). -/
def Kernel.layout (k : Kernel) : Nat := (match k.lanes with | some 32 => 1 | some 64 => 2 | _ => 0) + 4 * b2n k.pair

/-- The 64-byte descriptor template at `name.desc`: bytes [44:32] from the directives, SCODE and LCODE as placed, every other byte zero
(R310). -/
def Kernel.template (k : Kernel) (scode lcode : W64) : List Byte :=
  toBytes 8 scode.toNat ++ toBytes 8 lcode.toNat ++ List.replicate 16 0
    ++ [k.layout, k.copy + k.matrix + k.vector, k.copy, k.matrix, k.vregs, k.sregs, k.splits, k.barrier].flatMap (toBytes 1)
    ++ toBytes 2 k.scratch ++ [k.hoop, k.acc, k.codebooks].flatMap (toBytes 1) ++ List.replicate 19 0

/-- The kernel is accepted: its arguments in range, and R97 and R98 hold of the descriptor that a launch of one coil makes of the template (R309,
R310). -/
def Kernel.accepted (k : Kernel) (scode lcode : W64) : Bool :=
  let t := k.template scode lcode
  k.inRange && (parseDesc (t.take 24 ++ [1, 0, 0, 0, 1, 0, 1, 0] ++ t.drop 32) 0).isSome

end Sys2Proof.Machine
end

