-- ==== Sys2Proof/Tests/Slice0.lean ====
section
/-! SUPPORT. Decoding of words written out from the spec's encodings, ill-formed terms refused, single steps, and states that meet the
hypotheses of the statements. -/

namespace Sys2Proof.Tests

open Sys2Proof Sys2Proof.Machine

-- One proof after another: proofs that wait for each other side by side take a stack each.
set_option Elab.async false

/-- Fields of a lane instruction in the order of R295. -/
def ln (sub ty la msel : Nat) (mneg : Bool) (mod d a b c imm : Nat) : Lane :=
  { sub := BitVec.ofNat 4 sub, ty := BitVec.ofNat 4 ty, la := BitVec.ofNat 4 la, msel := BitVec.ofNat 4 msel, mneg := mneg
    mod := BitVec.ofNat 7 mod, d := BitVec.ofNat 8 d, a := BitVec.ofNat 8 a, b := BitVec.ofNat 8 b, c := BitVec.ofNat 8 c
    imm := BitVec.ofNat 32 imm }

/-- A lane instruction of three words. -/
def lw (w0 w1 w2 : Nat) : Option Instr := decodeTableWord 96 (w0 + 2 ^ 32 * w1 + 2 ^ 64 * w2)

/-! Words of the spec's own listings (chapters 21 to 26) and templates. -/

theorem test_decode_moves : decodeTableWord 32 0x05404003 = some (.or 20 1 0 false) ∧ decodeTableWord 32 0x0D604100 = some (.addi 22 1 0x100) ∧
    decodeTableWord 32 0x0F0C3FFF = some (.addi 48 48 0x3FFF) ∧ decodeTableWord 32 0x1C914002 = some (.shli 9 5 2) ∧
    decodeTableWord 32 0x200C0000 = some (.cmpi 48 0) := by decide
theorem test_decode_alu : decodeTableWord 32 0x04510381 = some (.sub 5 4 3 true) ∧ decodeTableWord 32 0x08510305 = some (.divN 5 4 3) ∧
    decodeTableWord 32 0x10510FFF = some (.andi 5 4 0xFFF) ∧ decodeTableWord 32 0x04510017 = some (.clz 5 4) := by decide
theorem test_decode_branches : decodeTableWord 32 0x48000003 = some (.b 0 3) ∧ decodeTableWord 32 0x485FFFFC = some (.b 2 0x1FFFFC) ∧
    decodeTableWord 32 0x4C200004 = some (.bz 1 4) ∧ decodeTableWord 32 0x4E200004 = some (.bnz 1 4) ∧
    decodeTableWord 32 0x50000002 = some (.call 2) ∧ decodeTableWord 32 0x540FC000 = some (.jalr 0 63 0) := by decide
theorem test_decode_paths : decodeTableWord 32 0x60200004 = some (.split 1 4) ∧ decodeTableWord 32 0x64000001 = some (.join 1) ∧
    decodeTableWord 32 0x68000001 = some .endPath ∧ decodeTableWord 32 0x68000702 = some (.trap 7) ∧
    decodeTableWord 32 0x68000000 = some .nop := by decide
theorem test_decode_memory : decodeTableWord 32 0x24514003 = some (.ldN8 5 5 3) ∧ decodeTableWord 32 0x40514008 = some (.stB64 5 5 8) ∧
    decodeTableWord 32 0x44518708 = some (.atom 5 6 7 0 2 0) := by decide
theorem test_decode_masks : decodeTableWord 32 0x5C400800 = some (.kfroms 1 8) ∧ decodeTableWord 32 0x5C040C02 = some (.kpopc 1 12) ∧
    decodeTableWord 32 0x58448003 = some (.kandn 1 1 2) := by decide
theorem test_decode_waits : decodeTableWord 32 0x6C000003 = some (.waitPath 0 3) ∧ decodeTableWord 32 0x6C044018 = some (.waitMx 17 1) ∧
    decodeTableWord 32 0x6C05D61B = some (.waitMem 23 22 1) ∧ decodeTableWord 32 0x6C02401A = some (.waitCov 9 1) := by decide
theorem test_decode_special : decodeTableWord 32 0x7150001E = some (.srd 21 0x1E) ∧ decodeTableWord 32 0x74020004 = some (.swr 8 4) ∧
    decodeTableWord 32 0x78000009 = some (.fence 2 1) ∧ decodeTableWord 32 0x78000005 = some (.fence 1 1) := by decide
theorem test_decode_sync : decodeTableWord 32 0x7C400014 = some (.barSync 4 1) ∧ decodeTableWord 32 0x80020000 = some (.hoopInit 8 0) ∧
    decodeTableWord 32 0x81600001 = some (.hoopWfill 22 0 0 0) ∧ decodeTableWord 32 0x80000003 = some (.hoopWtake 0 0 0 0) ∧
    decodeTableWord 32 0x80000002 = some (.hoopFilled 0 0) := by decide
theorem test_decode_matrix : decodeTableWord 32 0x90054000 = some (.mxCbld 0 21 0) ∧ decodeTableWord 32 0x8C02901A = some (.mxGang 0 10 16 true 10) ∧
    decodeTableWord 32 0x98061103 = some (.mxDrain 0 24 17 true true) ∧ decodeTableWord 32 0x94400003 = some (.mxClr 4 3) := by decide
theorem test_decode_copy : decodeTableWord 32 0xA0519000 = some (.cpPush 5 6 16) ∧ decodeTableWord 32 0xA0718503 = some (.cpCancel 7 6 5) ∧
    decodeTableWord 32 0xA0928B22 = some (.cpWait 9 10 11 2) := by decide
theorem test_decode_engines : decodeTableWord 32 0xA8900000 = some (.covTile 9 0) ∧ decodeTableWord 32 0xA8958000 = some (.covTile 9 22) ∧
    decodeTableWord 32 0xA8958011 = some (.covResolve 9 22 1) ∧ decodeTableWord 32 0xA4514001 = some (.rqRefit 5 5) ∧
    decodeTableWord 32 0xAC400002 = some (.plyCommit 4) ∧ decodeTableWord 32 0xAC400009 = some (.plyClock 4) := by decide
theorem test_decode_long : decodeTableWord 64 0x0000000BFC800100 = some (.li 8 0xB) ∧ decodeTableWord 64 0x00000908FD000200 = some (.lih 16 0x908) ∧
    decodeTableWord 64 0x00000054FC050403 = some (.crs 20 3 0x54) ∧ decodeTableWord 64 0x00000003FC518500 = some (.upcall 5 6 3) := by decide
theorem test_decode_lane_alu : lw 0x01030000 0x0201F900 0 = some (.vAdd (ln 0 3 0 0 false 0 2 1 0xF9 0 0)) ∧
    lw 0x14030000 0x0AFCFF00 3 = some (.vShl (ln 0 3 0 0 false 0 10 0xFC 0xFF 0 3)) ∧
    lw 0x1A230000 0x01FCFF00 0x10 = some (.vCmp (ln 2 3 0 0 false 0 1 0xFC 0xFF 0 16)) ∧
    lw 0x58000000 0x09FF0000 0xEE = some (.vMov (ln 0 0 0 0 false 0 9 0xFF 0 0 0xEE)) ∧
    lw 0x4A0A0009 0x03020000 0 = some (.vUnpack (ln 0 10 0 0 false 9 3 2 0 0 0)) := by decide
theorem test_decode_lane_memory : lw 0x80120000 0x01F8FC00 0x02000000 = some (.vLd (ln 1 2 0 0 false 0 1 0xF8 0xFC 0 0x02000000)) ∧
    lw 0x90020000 0x00020003 0 = some (.vSt (ln 0 2 0 0 false 0 0 2 0 3 0)) ∧
    lw 0xB0030100 0x00010203 0 = some (.vCpa (ln 0 3 0 1 false 0 0 1 2 3 0)) ∧
    lw 0xCC160100 0x0201FDFD 0 = some (.covSeg (ln 1 6 0 1 false 0 2 1 0xFD 0xFD 0)) := by decide
theorem test_decode_trailers : lw 0xFF100000 0x02000000 0 = some (.courseTrailer 1 0 false 2) ∧
    lw 0xFF000000 0 0 = some (.courseTrailer 0 0 false 0) ∧ lw 0xFF200001 0x02030000 0 = some (.courseTrailer 2 0 true 0x302) := by decide
theorem test_encode_is_the_listing : encode (.crs 20 3 0x54) = [0xFC050403, 0x54] ∧ encode (.cpCancel 7 6 5) = [0xA0718503] ∧
    encode (.vSt (ln 0 2 0 0 false 0 0 2 0 3 0)) = [0x90020000, 0x00020003, 0] := by decide

/-! Undefined encodings, and terms that no check of well-formedness lets through. -/

theorem test_undefined_words : decodeTableWord 32 0 = none ∧ decodeTableWord 32 0x04510389 = none ∧ decodeTableWord 32 0x04510019 = none ∧
    decodeTableWord 32 0x08510308 = none ∧ decodeTableWord 32 0x1C917002 = none ∧ decodeTableWord 32 0x62200004 = none ∧
    decodeTableWord 32 0x20900000 = none ∧ lw 0 0 0 = none ∧ lw 0x01030001 0x0201F900 0 = none ∧ lw 0x01030000 0x0201F900 1 = none := by decide
theorem test_ill_formed_scope : (Instr.atom 1 2 3 0 5 0).wellFormed = false ∧ (Instr.fence 5 0).wellFormed = false ∧
    (Instr.waitMx 1 5).wellFormed = false ∧ (Instr.waitTrv 1 5).wellFormed = false ∧ (Instr.waitCov 1 5).wellFormed = false ∧
    (Instr.waitMem 1 2 5).wellFormed = false ∧ (Instr.cpTest 1 2 3 5).wellFormed = false ∧ (Instr.cpWait 1 2 3 5).wellFormed = false := by decide
theorem test_ill_formed_fields : (Instr.b 15 0).wellFormed = false ∧ (Instr.waitPath 1 7).wellFormed = false ∧ (Instr.srd 1 5).wellFormed = false ∧
    (Instr.swr 1 0x1F).wellFormed = false ∧ (Instr.twait 1 2 3 12).wellFormed = false ∧ (Instr.mxMma 0 61 0 false 4).wellFormed = false ∧
    (Instr.mxGang 0 0 0 true 0).wellFormed = false ∧ (Instr.mxDrain 0 57 0 false false).wellFormed = false ∧ (Instr.cpPush 0 0 57).wellFormed = false ∧
    (Instr.rqBuild 0 61).wellFormed = false ∧ (Instr.rqRefit 0 61).wellFormed = false := by decide
theorem test_ill_formed_groups : (Instr.plyBegin 0 0 3).wellFormed = false ∧ (Instr.plyBeginCoil 0 1 0).wellFormed = false ∧
    (Instr.plyStamp 0 1 1).wellFormed = false ∧ (Instr.crs 0 5 0).wellFormed = false ∧ (Instr.crs 62 3 0).wellFormed = false ∧
    (Instr.crs 1 0 0).wellFormed = false ∧ (Instr.crs 0 0 2).wellFormed = false ∧ (Instr.upcall 0 61 0).wellFormed = false ∧
    (Instr.courseTrailer 9 0 false 0).wellFormed = false ∧ (Instr.courseTrailer 0 1 false 0).wellFormed = false ∧
    (Instr.courseTrailer 1 0 false 0xF0).wellFormed = false ∧ (Instr.courseTrailer 1 1 false 0x11).wellFormed = false := by decide
theorem test_ill_formed_lane : (Instr.vAdd (ln 0 8 0 0 false 0 1 2 3 0 0)).wellFormed = false ∧ (Instr.vAdd (ln 0 3 1 0 false 0 1 2 3 0 0)).wellFormed = false ∧
    (Instr.vAdd (ln 0 3 0 0 true 0 1 2 3 0 0)).wellFormed = false ∧ (Instr.vAdd (ln 0 3 0 0 false 0 0xF8 2 3 0 0)).wellFormed = false ∧
    (Instr.vAdd (ln 0 3 0 0 false 0 1 2 3 1 0)).wellFormed = false ∧ (Instr.vAdd (ln 0 3 0 0 false 0 1 2 3 0 1)).wellFormed = false ∧
    (Instr.vCmp (ln 6 3 0 0 false 0 1 2 3 0 0)).wellFormed = false ∧ (Instr.vBfx (ln 0 3 0 0 false 0 1 2 0 0 0)).wellFormed = false ∧
    (Instr.vLd (ln 2 3 0 0 false 1 4 4 0 0 0)).wellFormed = false ∧ (Instr.rqRay (ln 0 10 0 0 false 0 2 4 0xFF 0 0)).wellFormed = false := by decide

/-! Single steps: an instruction placed at the fetch, and one or two fields of what it leaves (expected values by hand from the rules). -/

/-- The path of the probe after one step on a placed instruction. -/
def after (nbits w : Nat) : Option Issuer :=
  match step (State.reset.withFetchWord nbits w) with
  | .next t => t.issuerAt { coil := 0, strand := 0, path := 15 }
  | _ => none

/-- The path after one scalar instruction on a state. -/
def did (i : Instr) (s : State) : Option Issuer :=
  match exec i s with
  | .next t => t.issuerAt { coil := 0, strand := 0, path := 15 }
  | _ => none

/-- A path of a role with the turn, with some of its scalar registers set. -/
def scal (role : Nat) (l : List (Nat × W64)) : State :=
  let s := l.foldl (fun s e => s.setS { coil := 0, strand := 0, path := 15 } e.1 e.2 false) (State.reset.probe role false [])
  { s with tlb := s.tlb ++ s.tlb.map (fun e => { e with level := .shared 0 }) }

theorem test_step_li : (after 64 0x0000000BFC800100).map (fun y => (y.sAt 8, y.path.pc)) = some (0xB, 0x1008) := by decide
theorem test_step_addi_negative : (after 32 0x0C503FFF).map (fun y => (y.sAt 5, y.path.pc)) = some (-1, 0x1004) := by decide
theorem test_step_branch_back : (after 32 0x481FFFFE).map (fun y => y.path.pc) = some 0xFF8 := by decide
theorem test_step_call : (after 32 0x50000004).map (fun y => (y.sAt 63, y.path.pc)) = some (0x1004, 0x1010) := by decide
theorem test_step_trap : (after 32 0x68000702).map (fun y => match y.path.park with | .trap t _ _ => (t.cause, t.ipc, t.insn) | _ => (.poison, 0, 0)) =
    some (.trapInsn, 0x1000, 0x68000702) := by decide
theorem test_step_undefined : (after 32 0).map (fun y => match y.path.park with | .trap t _ _ => t.cause | _ => .poison) =
    some .illegalInstruction := by decide
theorem test_step_lane_mov : (after 96 0x000000EE09FF000058000000).map (fun y => Tab.get 0 y.strand.vregs (vKey 9 31)) =
    some 0xEEEEEEEEEEEEEEEE := by decide
theorem test_step_lane_add_lane_number : (after 96 0x0000200003FCFF0001020000).map (fun y => Tab.get 0 y.strand.vregs (vKey 3 5)) =
    some 0x0000200500002005 := by decide
theorem test_step_trailer : (after 96 0x0000000000000000FF000000).map (fun y => y.strand.running) = some none := by decide
theorem test_add_wraps : (did (.add 3 1 2 true) (scal 4 [(1, -1), (2, 1)])).map (fun y => (y.sAt 3, y.path.scc)) = some (0, 0b0101) := by decide
theorem test_sub_overflows : (did (.sub 3 1 2 true) (scal 4 [(1, 0x8000000000000000), (2, 1)])).map (fun y => (y.sAt 3, y.path.scc)) =
    some (0x7FFFFFFFFFFFFFFF, 0b1000) := by decide
theorem test_shift_by_64 : (did (.shl 3 1 2 false) (scal 4 [(1, 5), (2, 64)])).map (fun y => y.sAt 3) = some 5 := by decide
theorem test_sra_fills : (did (.sra 3 1 2 false) (scal 4 [(1, 0x8000000000000000), (2, 63)])).map (fun y => y.sAt 3) = some (-1) := by decide
theorem test_div_by_zero : (did (.divS 3 1 2) (scal 4 [(1, 7)])).map (fun y => y.sAt 3) = some (-1) := by decide
theorem test_div_overflow : (did (.divS 3 1 2) (scal 4 [(1, 0x8000000000000000), (2, -1)])).map (fun y => y.sAt 3) = some 0x8000000000000000 := by decide
theorem test_rem_sign : (did (.remS 3 1 2) (scal 4 [(1, -7), (2, 2)])).map (fun y => y.sAt 3) = some (-1) := by decide
theorem test_mulh_sn : (did (.mulhSn 3 1 2) (scal 4 [(1, -1), (2, -1)])).map (fun y => y.sAt 3) = some (-1) := by decide
theorem test_s0_takes_no_write : (did (.add 0 1 1 true) (scal 4 [(1, 1)])).map (fun y => (y.sAt 0, y.path.scc)) = some (0, 0) := by decide
theorem test_jalr_source_is_destination : (did (.jalr 1 1 3) (scal 4 [(1, 0x2000)])).map (fun y => (y.sAt 1, y.path.pc)) = some (0x1004, 0x2000) := by
  decide
theorem test_store_then_load : (did (.ldN8 3 1 (-8)) (match exec (.stB16 2 1 (-8)) (scal 4 [(1, 0x1808), (2, 0x1F2)]) with
    | .next t => t | _ => State.reset)).map (fun y => y.sAt 3) = some 0xF2 := by decide
theorem test_misaligned_load : (did (.ldB64 3 1 0) (scal 4 [(1, 0x1804)])).map (fun y => match y.path.park with | .trap t _ _ => t.cause | _ => .poison) =
    some .misaligned := by decide
theorem test_role_violation : (did (.mxClr 3 0) (scal 4 [])).map (fun y => match y.path.park with | .trap t _ _ => t.cause | _ => .poison) =
    some .roleViolation := by decide
theorem test_kffs_of_nothing : (did (.kffs 1 3) (scal 4 [])).map (fun y => y.sAt 3) = some 64 := by decide
theorem test_split_takes_lanes : (did (.split 1 4) (match exec (.kfroms 1 2) (scal 4 [(2, 0xFF)]) with | .next t => t | _ => State.reset)).map
    (fun y => (y.path.em, (y.strand.path? 0).map (fun q => (q.em, q.pc)))) = some (0xFFFFFF00, some (0xFF, 0x1014)) := by decide
/-- The state after one scalar instruction. -/
def ran (i : Instr) (s : State) : State := match exec i s with | .next t => t | _ => State.reset
/-- A path has stored 0x1F2 at 0x1808. -/
def stored : State := ran (.stB16 2 1 8) (scal 4 [(1, 0x1800), (2, 0x1F2)])
/-- R149: a store stays in the L1 of its Hamper until a release of scope .dev (R150). -/
theorem test_store_stays_in_l1 : stored.byte 0x1808 = 0 ∧ stored.seen 0 0x1808 = 0xF2 ∧ stored.seen 1 0x1808 = 0 ∧
    (ran (.fence 2 1) stored).byte 0x1808 = 0xF2 ∧ (ran (.fence 2 1) stored).byte 0x1809 = 1 ∧ (ran (.fence 0 1) stored).byte 0x1808 = 0 := by decide +kernel
/-- R148, R150: a fetched line stays until an acquire of scope .dev, whatever another agent writes at the L2. -/
theorem test_stale_line : (did (.ldN8 3 1 0) ((ran (.ldN8 3 1 0) (scal 4 [(1, 0x1800)])).poke 0x1800 [9] false)).map (fun y => y.sAt 3) = some 0 ∧
    (did (.ldN8 3 1 0) (ran (.fence 2 0) ((ran (.ldN8 3 1 0) (scal 4 [(1, 0x1800)])).poke 0x1800 [9] false))).map (fun y => y.sAt 3) = some 9 := by
  decide +kernel
/-- R150, R169: an atomic at the L2 acts on what its own Hamper has stored. -/
theorem test_atom_after_store : (did (.atom 3 4 2 0 2 0) (stored.setS { coil := 0, strand := 0, path := 15 } 4 0x1808 false)).map (fun y => y.sAt 3) = some 0x1F2 ∧
    (ran (.atom 3 4 2 0 2 0) (stored.setS { coil := 0, strand := 0, path := 15 } 4 0x1808 false)).byte 0x1808 = 0xE4 := by decide +kernel

/-! States and operands that meet the hypotheses of the statements. -/

/-- The conditions of `Ready` besides the turn, for a path with no long access. -/
def readyB (s : State) (x : Issuer) (n : Needs) : Bool :=
  x.strand.longs.isEmpty && n.roles &&& x.role != 0 && (n.reads ++ n.moves ++ n.writes).all (fun r => decide (r < x.desc.sregs)) &&
    !n.unreserved x && !(n.courses && x.strand.hasCourses x.id.path) && !pendingK x n.masks &&
    !s.pendingS x (n.reads ++ n.moves ++ n.writes) && n.reads.all (fun r => !x.sBad r)

theorem ready_of {s : State} {h : s.issuer.isSome = true} {n : Needs} (hb : readyB s (s.issuer.get h) n = true) : Ready s (s.issuer.get h) n := by
  simp only [readyB, Bool.and_eq_true, Bool.not_eq_true', bne_iff_ne, List.all_eq_true, decide_eq_true_eq] at hb
  obtain ⟨⟨⟨⟨⟨⟨⟨h1, h2⟩, h3⟩, h4⟩, h5⟩, h6⟩, h7⟩, h8⟩ := hb
  refine ⟨(Option.some_get h).symm, ?_, h2, h3, h4, ?_, h6, h7, h8⟩
  · intro e he; rw [List.isEmpty_iff.mp h1] at he; cases he
  · intro hc; rw [hc] at h5; simpa using h5

theorem mayStop_of {s : State} {h : s.issuer.isSome = true} (h1 : (s.issuer.get h).coil.latches = [])
    (h2 : (s.issuer.get h).desc.trapKill = false) (h3 : bit (s.regN aDbgCfg) 0 = false) (h4 : s.traces (s.issuer.get h).asid = false) :
    MayStop s (s.issuer.get h) :=
  ⟨State.issuer_at (Option.some_get h).symm, h1, h2, h3, h4⟩

/-- Memory without ply regions, without a carve-out and without copies elsewhere is plain. -/
theorem plainRun_of {s : State} (pa n : Nat) (h1 : s.regions = []) (h2 : s.regF aPlyCfg 6 0 = 0) (h3 : s.fabric.snoop = []) : PlainRun s pa n := by
  intro a _ _
  refine ⟨?_, by simp [State.inRegion, h1], by rw [h3]; rfl⟩
  simp only [State.inCarve, State.carveBase, h2, Nat.zero_mul, Nat.sub_zero, Bool.and_eq_false_iff, decide_eq_false_iff_not, Nat.not_le, Nat.not_lt]
  omega

theorem plain_of {s : State} (pa n : Nat) (h : pa % n = 0) (h1 : s.regions = []) (h2 : s.regF aPlyCfg 6 0 = 0) (h3 : s.fabric.snoop = []) : Plain s pa n :=
  have p := plainRun_of (s := s) pa 1 h1 h2 h3 pa (Nat.le_refl _) (by omega)
  ⟨h, p.1, p.2.1, p.2.2⟩

/-- The root path of the probe's strand. -/
def root0 : PathId := { coil := 0, strand := 0, path := 15 }

/-- A vector strand: s1 an address of mapped memory, s2 a small number. -/
def sA : State := scal 4 [(1, 0x1800), (2, 5)]
theorem sA_turn : sA.issuer.isSome = true := by decide
def xA : Issuer := sA.issuer.get sA_turn

/-- The same with a scratchpad window at 2 MiB, of which s3 is the first byte, and masks k1, k2. -/
def sW : State := ((sA.setRegN (aSwin 0) (2 ^ 21 + 2 ^ 16)).setS root0 3 0x200000 false).updStrand 0 0 (fun st => { st with kregs := [(1, 0xFF)] })
theorem sW_turn : sW.issuer.isSome = true := by decide
def xW : Issuer := sW.issuer.get sW_turn

theorem witness_AluResults : ∃ (s : State) (x : Issuer), Ready s x { reads := [1, 63], writes := [63] } ∧ Ready s x { reads := [0, 0], writes := [0] } ∧
    Ready s x { reads := [1], writes := [2] } ∧ ∃ w n : Nat, n < 8 ∧ bits w 31 26 = 2 ∧ 8 ≤ bits w 7 0 :=
  ⟨sA, xA, ready_of (by decide), ready_of (by decide), ready_of (by decide), 0x08000008, 7, by decide⟩
theorem witness_FlagForms : ∃ (s : State) (x : Issuer), Ready s x { reads := [1, 63], writes := [0] } := ⟨sA, xA, ready_of (by decide)⟩
theorem witness_ImmediateForms : ∃ (s : State) (x : Issuer), Ready s x { reads := [1], writes := [63] } ∧ Ready s x { reads := [63] } ∧
    Ready s x { writes := [0] } ∧ Ready s x { reads := [2], writes := [2] } :=
  ⟨sA, xA, ready_of (by decide), ready_of (by decide), ready_of (by decide), ready_of (by decide)⟩
theorem witness_ScalarLoads : ∃ (s : State) (x : Issuer) (p : Place),
    let acc : Acc := { kind := .read, va := (x.s 1 + (-8 : BitVec 14).signExtend 64).toNat, size := 8 }
    Ready s x { reads := [1], writes := [3], courses := true } ∧ s.judge x.who acc = (.ok p, s) ∧ p.isRemote = false ∧
    s.refuses p .read = false ∧ meetsRevoked s x.view [(0, acc, p)] = false ∧ OttRoom s x [(0, acc, p)] ∧ s.inCarve 0x17F8 = false ∧
    s.inRegion 0x17F8 = false :=
  ⟨sA, xA, .l1 0 0x17F8, ready_of (by decide), by decide, rfl, by decide, by decide, by unfold OttRoom; decide, by decide, by decide⟩
theorem witness_ScalarStores :
    (∃ (s : State) (x : Issuer), Ready s x { reads := [1], moves := [2], courses := true } ∧
      s.judge x.who { kind := .write, va := (x.s 1 + (8 : BitVec 14).signExtend 64).toNat, size := 8 } = (.ok (.l1 x.hamper 0x1808), s) ∧
      Plain s 0x1808 8 ∧ OttRoom s x [(0, { kind := .write, va := (x.s 1 + (8 : BitVec 14).signExtend 64).toNat, size := 8 }, .l1 x.hamper 0x1808)]) ∧
    ∃ (s : State) (x : Issuer) (key : Nat), Ready s x { reads := [3], moves := [2], courses := true } ∧
      s.judge x.who { kind := .write, va := (x.s 3 + (8 : BitVec 14).signExtend 64).toNat, size := 8 } = (.ok (.scr key), s) ∧
      s.ottUsed x.hamper ≤ 512 :=
  ⟨⟨sA, xA, ready_of (by decide), by decide, plain_of _ _ (by decide) (by decide) (by decide) (by decide), by unfold OttRoom; decide⟩,
   sW, xW, 8, ready_of (by decide), by decide, by decide⟩
theorem witness_ScalarAtomics : ∃ (s : State) (x : Issuer), Ready s x { reads := [1, 2] ++ [4], writes := [4], courses := true } ∧
    ∀ sc : BitVec 3, let deep := decide (2 ≤ sc.toNat) || x.desc.pair
      let acc : Acc := { kind := .atomic, va := (x.s 1).toNat, size := 8, pcieAtomic := true, l2 := deep }
      s.judge x.who acc = (.ok (placeAt x deep 0x1800), s) ∧ OttRoom s x [(0, acc, placeAt x deep 0x1800)] ∧ Plain s 0x1800 8 ∧
      ∀ acq rel, ((s.ordered x.hamper acq rel [(0, acc, placeAt x deep 0x1800)]).load x.view (some x.coil) (placeAt x deep 0x1800) 8).2 = false :=
  ⟨sA, xA, ready_of (by decide), fun sc => ⟨by revert sc; decide +kernel, by revert sc; unfold OttRoom; decide +kernel,
    plain_of _ _ (by decide) (by decide) (by decide) (by decide), by revert sc; decide +kernel⟩⟩
theorem witness_Branching : ∃ (s : State) (x : Issuer), Ready s x {} ∧ isCanonical (targetOf x 0x100000) ∧ Ready s x { masks := [0], courses := true } ∧
    Ready s x { masks := [15], courses := true } ∧ Ready s x { writes := [63] } ∧ Ready s x { reads := [1], writes := [1] } :=
  ⟨sA, xA, ready_of (by decide), by unfold isCanonical; decide, ready_of (by decide), ready_of (by decide), ready_of (by decide), ready_of (by decide)⟩

/-- A path whose next word is the last below the addresses that are not canonical. -/
def sEdge : State := sA.updPath root0 (fun p => { p with pc := 0x00FFFFFFFFFFFFFC })
theorem sEdge_turn : sEdge.issuer.isSome = true := by decide
theorem witness_ScalarTraps : (∃ (s : State) (x : Issuer), Ready s x {} ∧ MayStop s x ∧ ¬ isCanonical (targetOf x 1)) :=
  ⟨sEdge, sEdge.issuer.get sEdge_turn, ready_of (by decide), mayStop_of (by decide) (by decide) (by decide) (by decide), by unfold isCanonical; decide⟩
theorem witness_MaskForms : ∃ (s : State) (x : Issuer), Ready s x { masks := [0, 1, 15], courses := true } ∧
    Ready s x { reads := [1], masks := [0], courses := true } ∧ Ready s x { writes := [0], masks := [1], courses := true } :=
  ⟨sW, xW, ready_of (by decide), ready_of (by decide), ready_of (by decide)⟩

/-- A strand with some split-table entries in use, and the turn of one of its paths. -/
def sSplit (n p : Nat) : State :=
  { sW.updStrand 0 0 (fun st => { st with entries := (upFrom 0 n).map (fun e => (e, freshPath 0x1000 (2 ^ (31 - e)))) }) with
    turn := some { id := { coil := 0, strand := 0, path := p }, lane := false } }
theorem sSplit_full : (sSplit 8 15).issuer.isSome = true := by decide
theorem sSplit_one : (sSplit 1 0).issuer.isSome = true := by decide
theorem witness_Splitting : (∃ (s : State) (x : Issuer) (off : BitVec 21), Ready s x { masks := [1, 0], courses := true } ∧
      Ready s x { masks := [2, 0], courses := true } ∧ Ready s x { masks := [0, 0], courses := true } ∧ x.desc.splits ≠ 0 ∧ isCanonical (targetOf x off) ∧
      x.mask 2 &&& x.path.em = 0 ∧ x.mask 0 &&& x.path.em ≠ 0 ∧ x.path.em &&& ~~~(x.mask 0) = 0 ∧ x.mask 1 &&& x.path.em ≠ 0 ∧
      x.path.em &&& ~~~(x.mask 1) ≠ 0 ∧ 0 < x.desc.splits ∧ x.strand.path? 0 = none) ∧
    ∃ (s : State) (x : Issuer) (off : BitVec 21), Ready s x { masks := [1, 0], courses := true } ∧ isCanonical (targetOf x off) ∧
      x.mask 1 &&& x.path.em ≠ 0 ∧ x.path.em &&& ~~~(x.mask 1) ≠ 0 ∧ x.desc.splits ≠ 0 ∧ x.desc.splits ≤ 8 ∧
      (∀ e, e < 8 → x.strand.path? e ≠ none) ∧ x.strand.ended = false ∧
      (∀ p ∈ x.strand.livePaths, p ≠ x.id.path → ∃ q, x.strand.path? p = some q ∧ q.park = .running) :=
  ⟨⟨sW, xW, 4, ready_of (by decide), ready_of (by decide), ready_of (by decide), by decide, by unfold isCanonical; decide, by decide⟩,
   sSplit 8 15, (sSplit 8 15).issuer.get sSplit_full, 4, ready_of (by decide), by unfold isCanonical; decide, by decide, by decide, by decide, by decide,
   by decide, by decide, by
    have h : ∀ p ∈ ((sSplit 8 15).issuer.get sSplit_full).strand.livePaths,
      (((sSplit 8 15).issuer.get sSplit_full).strand.path? p).any (fun q => q.park == .running) = true := by decide
    intro p hp _
    have := h p hp
    rw [Option.any_eq_true] at this
    exact this.imp fun q hq => ⟨hq.1, by simpa using hq.2⟩⟩
theorem witness_JoinsAndEnds : (∃ (s : State) (x : Issuer) (off : BitVec 21), Ready s x { masks := [0], courses := true } ∧ x.id.path = 15 ∧
      x.strand.entries = [] ∧ isCanonical (targetOf x off)) ∧
    ∃ (s : State) (x : Issuer), Ready s x { masks := [0], courses := true } ∧ x.id.path < 8 ∧ x.strand.ended = false ∧ x.strand.root.park = .running ∧
      (x.strand.entries.map Prod.fst).Nodup ∧
      ∀ e ∈ x.strand.entries, e.1 < 8 ∧ e.2.parent ≠ x.id.path ∧ (e.1 ≠ x.id.path → e.2.park = .running) :=
  ⟨⟨sA, xA, 4, ready_of (by decide), by decide, by decide, by unfold isCanonical; decide⟩,
   sSplit 1 0, (sSplit 1 0).issuer.get sSplit_one, ready_of (by decide), by decide⟩

/-- `n` entries of a list by number, as the state holds them. -/
def flightS : State := sA.updStrand 0 0 (fun st => { st with flight := [{ sel := 3, op := 9, done := false }] })
theorem flightS_turn : flightS.issuer.isSome = true := by decide
theorem witness_FencesAndWaits : (∃ (s : State) (x : Issuer), Ready s x {} ∧ Ready s x { courses := true } ∧ x.strand.longs = [] ∧
      (∀ e ∈ s.copies, ¬ (e.2.p.coil = x.id.coil ∧ e.2.p.strand = x.id.strand)) ∧ Ready s x { reads := [0] } ∧ Ready s x { reads := [0, 1], courses := true } ∧ x.strand.inFlight 3 ≤ (x.s 2).toNat % 2 ^ 16 ∧
      (x.s 0).toNat ≤ Tab.get 0 x.coil.tlCount 2 ∧ Tab.get 0 x.coil.tlCount 2 < (x.s 2).toNat ∧ Ready s x { reads := [0, 1] } ∧
      ∀ sc ∈ [(0 : BitVec 3), 2], ∃ p, let acc : Acc := { kind := .read, va := (x.s 1).toNat, size := 8, l2 := x.acts sc.toNat }
        let s2 := s.ordered x.hamper false false [(0, acc, p)]
        s.judge x.who acc = (.ok p, s) ∧ p.isRemote = false ∧ s2.refuses p .read = false ∧ (s2.load .current (some x.coil) p 8).2 = false ∧
        (x.s 0).toNat ≤ ofBytes (s2.load .current (some x.coil) p 8).1 ∧ ofBytes (s2.load .current (some x.coil) p 8).1 < 2 ^ 64) ∧
    (∃ (s : State) (x : Issuer), Ready s x { reads := [0] } ∧ (x.s 0).toNat % 2 ^ 16 < x.strand.inFlight 3) ∧
    ∃ (s : State) (x : Issuer), Ready s x { reads := [0, 2], writes := [3] } ∧ Ready s x { reads := [0], writes := [3] } ∧
      decide (x.strand.inFlight 6 ≤ (x.s 2).toNat % 2 ^ 16) = true ∧ decide ((x.s 2).toNat ≤ Tab.get 0 x.coil.tlCount 2) = false ∧
      (x.s 0).toNat % 2 ^ 32 = 0 ∧ (x.s 1).toNat % 2 ^ 32 ≠ 0 ∧ Ready s x { reads := [1, 2], writes := [3] } :=
  ⟨⟨sA, xA, ready_of (by decide), ready_of (by decide), by decide, by decide, ready_of (by decide), ready_of (by decide), by decide, by decide, by decide, ready_of (by decide),
    fun sc h => ⟨if xA.acts sc.toNat then .mem 0x1800 else .l1 0 0x1800, by revert h; revert sc; decide +kernel⟩⟩,
   ⟨flightS, flightS.issuer.get flightS_turn, ready_of (by decide), by decide⟩,
   sA, xA, ready_of (by decide), ready_of (by decide), by decide, by decide, by decide, by decide, ready_of (by decide)⟩
theorem witness_SpecialRegisters : ∃ (s : State) (x : Issuer), Ready s x { writes := [1], courses := true } ∧
    (∀ e ∈ x.strand.longs, e.2.path ≠ x.id.path) ∧ Ready s x { reads := [1], courses := true } ∧ Ready s x { reads := [1] } :=
  ⟨sA, xA, ready_of (by decide), by decide, ready_of (by decide), ready_of (by decide)⟩

/-- A strand with one course in its queue, a move and a trailer in memory. -/
def sCourse : State := (sA.poke 0x1800 (toBytes 12 0x000000EE09FF000058000000 ++ toBytes 12 0xFF000000) false).updStrand 0 0 (fun st =>
  { st with queue := [{ addr := 0x1800, params := [0, 0, 0, 0], path := 15, number := 0 }] })
theorem sCourse_at : (sCourse.issuerAt root0).isSome = true := by decide
/-- A long operation that writes v3 of lane 31. -/
def long0 : LongOp :=
  { path := 15, courseNumber := 0, pos := 0, la := 1, vWrites := [(vKey 3 31, 7, false)], kWrites := [], sWrites := [], flags := 1, remote := []
    awaited := true, ended := false }
def sLong : State := sA.updStrand 0 0 (fun st => { st with longs := [(5, long0)] })
/-- A running course of one word. -/
def sLane (role : Nat) (w : W96) : State := State.reset.probe role true [w, 0xFF000000]
theorem sLane_turn : (sLane 4 0xFF000000).issuer.isSome = true := by decide
theorem witness_Courses : (∃ (s : State) (x : Issuer), Ready s x { reads := upFrom 60 4 } ∧
      x.strand.queue.length + (if x.strand.running = none then 0 else 1) < 4) ∧
    (∃ (s s1 : State) (st : Strand) (c : Course) (rest : List Course) (x : Issuer) (l : List W96), s.strand? 0 0 = some st ∧ st.running = none ∧
      st.queue = c :: rest ∧ s.issuerAt { coil := 0, strand := 0, path := c.path } = some x ∧ lanesFree x = true ∧ st.emPending c.path = false ∧
      s.breakpoint x.asid 1 c.addr = none ∧ s.readCourse x c.addr.toNat 0 25 = (.words l, s1) ∧ courseCause x.desc l = none) ∧
    (∃ (s : State) (g : LongOp) (c : Coil) (b : Bolt) (st : Strand), s.longOf 5 = some (0, 0, g) ∧ g.remote = [] ∧ g.held = false ∧ g.fails = [] ∧ g.pos ≠ 255 ∧
      s.coilBolt? 0 = some (c, b) ∧ c.liveStrands ≠ [] ∧ s.strand? 0 0 = some st ∧ (g.vWrites.map Prod.fst).Nodup ∧ s.holdsBack 0 0 b.desc.lanes g.vWrites = false) ∧
    ∃ (s : State) (x : Issuer) (r : Running), s.issuer = some x ∧ x.strand.running = some r ∧ ∀ e ∈ x.strand.longs, e.2.remote = [] ∧ e.2.fails = [] :=
  ⟨⟨sA, xA, ready_of (by decide), by decide⟩,
   ⟨sCourse, sCourse, (sCourse.strand? 0 0).get (by decide), { addr := 0x1800, params := [0, 0, 0, 0], path := 15, number := 0 }, [],
    (sCourse.issuerAt root0).get sCourse_at, [0x000000EE09FF000058000000, 0xFF000000], by decide, by decide, by decide, (Option.some_get _).symm, by decide, by decide, by decide, rfl, by decide⟩,
   ⟨sLong, long0, (sLong.coilBolt? 0).get (by decide) |>.1, (sLong.coilBolt? 0).get (by decide) |>.2, (sLong.strand? 0 0).get (by decide), by decide⟩,
   sLane 4 0xFF000000, (sLane 4 0xFF000000).issuer.get sLane_turn, (((sLane 4 0xFF000000).issuer.get sLane_turn).strand.running).get (by decide),
   (Option.some_get _).symm, (Option.some_get _).symm, by intro e h; cases h⟩
def sUpc : State := sA.setRegN aUpcCfg 0x26
theorem sUpc_turn : sUpc.issuer.isSome = true := by decide
theorem witness_UpcallInstruction : (∃ (s : State) (x : Issuer), Ready s x { reads := upFrom 60 4, writes := [63], courses := true } ∧
      bit (s.regN aUpcCfg) 5 = true ∧ x.strand.longs = [] ∧ ∀ e ∈ s.copies, ¬ (e.2.p.coil = x.id.coil ∧ e.2.p.strand = x.id.strand)) ∧
    ∃ (s : State) (x : Issuer), Ready s x { reads := upFrom 60 4, writes := [63], courses := true } ∧ bit (s.regN aUpcCfg) 5 = false ∧ MayStop s x :=
  ⟨⟨sUpc, sUpc.issuer.get sUpc_turn, ready_of (by decide), by decide⟩, sA, xA, ready_of (by decide), by decide,
   mayStop_of (by decide) (by decide) (by decide) (by decide)⟩

/-- Barrier word 1 armed with an expectation, and hoop 15 initialised with its 16 slots. -/
def sBar (expect : Nat) : State := sW.updCoil 0 (fun c =>
  { c with bars := [(1, barWord 5 expect 0)], barArmed := [(1, true)], hoopInit := [(15, true)], hoops := [(15, BitVec.ofNat 64 (15 * 2 ^ 28 + 2 ^ 19))] })
theorem sBar2_turn : (sBar 2).issuer.isSome = true := by decide
theorem sBar1_turn : (sBar 1).issuer.isSome = true := by decide
def sHoop : State := sW.setS root0 4 0xF0080000 false
theorem sHoop_turn : sHoop.issuer.isSome = true := by decide
theorem witness_BarriersAndHoops : (∃ (s : State) (x : Issuer), 15 < x.desc.bars ∧ (s.swin x.asid).isSome ∧ x.coil.barCount 15 < 64 ∧
      Ready s x { reads := [1], courses := true } ∧ x.coil.armed 15 = false ∧ Ready s x { courses := true } ∧ x.coil.barCount 15 = 0) ∧
    (∃ (s : State) (x : Issuer), 1 < x.desc.bars ∧ (s.swin x.asid).isSome ∧ Ready s x { writes := [3], courses := true } ∧ x.coil.armed 1 = true ∧
      (Tab.get 0 x.coil.barArrived 1).getLsbD x.id.strand = false ∧ x.id.strand < 64 ∧ x.coil.barCount 1 + 1 < x.coil.barNeed 1 ∧
      Ready s x { reads := [1] } ∧ x.coil.phase 1 ≠ (x.s 1).toNat % 2 ^ 32 ∧ x.coil.phase 1 = (x.s 2).toNat % 2 ^ 32) ∧
    (∃ (s : State) (x : Issuer), 1 < x.desc.bars ∧ (s.swin x.asid).isSome ∧ Ready s x { writes := [3], courses := true } ∧ x.coil.armed 1 = true ∧
      (Tab.get 0 x.coil.barArrived 1).getLsbD x.id.strand = false ∧ x.coil.barNeed 1 = x.coil.barCount 1 + 1) ∧
    (∃ (s : State) (x : Issuer), Ready s x { reads := [4] } ∧ 0 < x.desc.hoops ∧ (s.swin x.asid).isSome ∧ 1 ≤ bits ((x.s 4).toNat % 2 ^ 32) 27 19 ∧
      bits ((x.s 4).toNat % 2 ^ 32) 27 19 ≤ 480 ∧ bits ((x.s 4).toNat % 2 ^ 32) 18 0 % 64 = 0 ∧ bits ((x.s 4).toNat % 2 ^ 32) 18 0 +
        64 * bits ((x.s 4).toNat % 2 ^ 32) 27 19 * (bits ((x.s 4).toNat % 2 ^ 32) 31 28 + 1) ≤ x.desc.scratch * 1024) :=
  ⟨⟨sW, xW, by decide, by decide, by decide, ready_of (by decide), by decide, ready_of (by decide), by decide⟩,
   ⟨sBar 2, (sBar 2).issuer.get sBar2_turn, by decide, by decide, ready_of (by decide), by decide, by decide, by decide, by decide, ready_of (by decide),
    by decide⟩,
   ⟨sBar 1, (sBar 1).issuer.get sBar1_turn, by decide, by decide, ready_of (by decide), by decide⟩,
   sHoop, sHoop.issuer.get sHoop_turn, ready_of (by decide), by decide⟩
def sHoop2 : State := sW.updCoil 0 (fun c =>
  { c with hoopInit := [(7, true)], hoops := [(7, BitVec.ofNat 64 (2 ^ 48 * 0x8000 + 15 * 2 ^ 28 + 2 ^ 19))] })
theorem sHoop2_turn : sHoop2.issuer.isSome = true := by decide
theorem witness_Hoops : ∃ (s : State) (x : Issuer), Ready s x { reads := [1, 0], writes := [3] } ∧ Ready s x { reads := [1], courses := true } ∧
    Ready s x { writes := [3] } ∧ HoopReady s x 7 15 ∧ HoopReady s x 7 0 ∧ bit (x.coil.hoop 7) (32 + 15) = bit (x.s 0).toNat 0 ∧
    bit (x.coil.hoop 7) (48 + 15) ≠ bit (x.s 0).toNat 0 :=
  ⟨sHoop2, sHoop2.issuer.get sHoop2_turn, ready_of (by decide), ready_of (by decide), ready_of (by decide), ⟨by decide, by decide, by decide, by decide⟩,
   ⟨by decide, by decide, by decide, by decide⟩, by decide⟩

/-- A matrix strand: shapes, strides and a control word in its registers. -/
def sM : State := scal 2 [(8, 0x100), (9, 0x200), (11, 64)]
theorem sM_turn : sM.issuer.isSome = true := by decide
def xM : Issuer := sM.issuer.get sM_turn
theorem witness_MatrixForms : ∃ (s : State) (x : Issuer), Ready s x { reads := upFrom 20 4 ++ [8], writes := [3], courses := true, roles := 2 } ∧
    s.intakeFull x.hamper = false ∧ mmaCause s x 8 false false (x.s 20) (x.sAt 21) (x.sAt 22) (x.sAt 23) (x.s 8) = none ∧
    Ready s x { reads := [11], writes := [3], courses := true, roles := 2, unreserved := fun d => decide (d.desc.cbslot ≤ 7) } ∧
    (x.s 11).toNat % 32 = 0 ∧ meetsPeer (rangesOf (x.s 11).toNat 32) = false ∧ meetsHole (rangesOf (x.s 11).toNat 32) = false ∧
    s.meetsScratch x.asid x.desc x.half (rangesOf (x.s 11).toNat 32) = false ∧
    Ready s x { writes := [3], courses := true, roles := 2, unreserved := fun d => decide (d.desc.acc ≤ 15) } ∧
    Ready s x { reads := upFrom 20 8 ++ [9], writes := [3], courses := true, roles := 2 } ∧ drainCause s x ((upFrom 20 8).map x.sAt) (x.s 9) false = none :=
  ⟨sM, xM, ready_of (by decide), by decide, by decide, ready_of (by decide), by decide, by decide, by decide, by decide, ready_of (by decide),
   ready_of (by decide), by decide⟩

/-- A coil of two matrix strands that name each other as a gang; `l` have come to its latch. -/
def sGang (l : List (Mask × List GangArrival)) : State :=
  let two (c : Coil) : Coil := { c with strands := c.strands.map (fun st => { st with gang := 514 }) ++ [{ freshStrand 1 0x1000 0xFFFFFFFF with gang := 514 }], latches := l }
  { sM.updCoil 0 two with bolts := Dict.upd sM.bolts 0 (fun b => { b with desc := { b.desc with nstr := 2, nmtx := 2 } }) }

/-- What strand 1 has brought: its own panel and tile, and the same B. -/
def arrival1 : GangArrival :=
  { strand := 1, d := 3, gang := 514, fmt := 8, scl := false, a := 0, sa := 0, b := 0, sb := 0, shape := 0x110, word := 0, pc := 0x1000 }
theorem sGang_turn : (sGang []).issuer.isSome = true := by decide
theorem sGang1_turn : (sGang [(3, [arrival1])]).issuer.isSome = true := by decide
theorem witness_Gangs : (∃ (s : State) (x : Issuer), Ready s x { reads := upFrom 20 4 ++ [8], writes := [3], courses := true, roles := 2 } ∧
      mmaCause s x 8 false true (x.s 20) (x.sAt 21) (x.sAt 22) (x.sAt 23) (x.s 8) = none ∧
      (∀ m ∈ gangMembers x.strand.gang, (x.coil.strands[m]?).all (fun st => !st.gangAbsent) = true) ∧
      x.coil.latches.find? (fun e => e.1 == maskOf (gangMembers x.strand.gang)) = none ∧ 1 < (gangMembers x.strand.gang).length) ∧
    ∃ (s : State) (x : Issuer) (me : GangArrival), Ready s x { reads := upFrom 20 4 ++ [8], writes := [3], courses := true, roles := 2 } ∧
      mmaCause s x 8 false true me.a me.sa me.b me.sb me.shape = none ∧
      x.coil.latches.find? (fun e => e.1 == maskOf (gangMembers x.strand.gang)) = some (maskOf (gangMembers x.strand.gang), [arrival1]) ∧
      [arrival1].length + 1 = (gangMembers x.strand.gang).length ∧ (∀ o ∈ [arrival1], o.strand ≠ x.id.strand) ∧
      gangDiffers x.desc ([arrival1] ++ [me]) = false ∧ s.intakeFull x.hamper = false :=
  ⟨⟨sGang [], (sGang []).issuer.get sGang_turn, ready_of (by decide), by decide, by decide, by decide, by decide⟩,
   sGang [(3, [arrival1])], (sGang [(3, [arrival1])]).issuer.get sGang1_turn, { arrival1 with strand := 0, shape := 0x100 }, ready_of (by decide), by decide,
   by decide, by decide, by decide, by decide, by decide⟩

/-- A packet of a copy-engine queue that has been accepted and has not begun. -/
def packet0 (n : Nat) : BtePacket :=
  { number := n, bytes := List.replicate 64 0, started := false, waiting := false, recs := [], chunks := 1, done := 0, err := 0, begun := 0, writing := 0
    results := [], failAll := 0, noRecord := true, held := false }
def bte0 (l : List BtePacket) : BteQueue :=
  { accAtOpen := 40, packets := l, cancels := [], draining := none, waiting := false, seenWr := 2, due := [], kept := [] }
/-- A copy strand, and queue 5 open with its entry at 0x3280, its ring at 0x1000 and its header at 0x40; a completion record at 0x1800. -/
def sC (l : List BtePacket) : State :=
  let regs := ((scal 1 [(6, 5), (7, 43), (10, 0x1800), (11, 0xF)]).setRegN aBteQtab 0x3000).setRegN aBteCfg 8
  let entry := toBytes 8 0x1000 ++ toBytes 8 0x40 ++ [0, 0, 6, 0, 1, 0, 0, 0, 2, 0, 0, 0, 0, 0, 0, 0] ++ toBytes 8 42 ++ toBytes 8 50
  { ((regs.poke 0x3280 entry false).poke 0x40 (toBytes 4 2 ++ toBytes 4 2) false).poke 0x1800 (toBytes 8 0x3F) false with bte := [(5, bte0 l)] }
theorem sC_turn : (sC []).issuer.isSome = true := by decide
theorem sC1_turn : (sC [packet0 43]).issuer.isSome = true := by decide
theorem sC_regions (l : List BtePacket) : (sC l).regions = [] ∧ (sC l).regF aPlyCfg 6 0 = 0 ∧ (sC l).fabric.snoop = [] := by
  have h : (sC []).regions = [] := by decide
  exact ⟨h, rfl, rfl⟩
theorem witness_CopyForms : (∃ (s : State) (x : Issuer), Ready s x { reads := [10, 11], writes := [9], courses := true } ∧ x.s 11 ≠ 0 ∧ x.s 0 = 0 ∧
      Plain s 0x1800 8 ∧ Plain s (0x1800 + 8) 8 ∧ ∀ sc ∈ [(0 : BitVec 3), 2],
        let deep := decide (2 ≤ sc.toNat) || (decide (sc = 1) && x.desc.pair)
        let done := numberOf (if deep then s.newest x.hamper else s.seen x.hamper) 0x1800 8
        let accD : Acc := { kind := .read, va := (x.s 10).toNat, size := 8, align := 32, l2 := deep }
        let accE : Acc := { kind := .read, va := (x.s 10 + 8).toNat, size := 8 }
        let p := placeAt x deep 0x1800
        let ps : List (Nat × Acc × Place) := [(0, accD, p), (0, accE, .l1 x.hamper (0x1800 + 8))]
        let s2 := s.ordered x.hamper false false ps
        OttRoom s x ps ∧ s.judge x.who accD = (.ok p, s) ∧ s.judge x.who accE = (.ok (.l1 x.hamper (0x1800 + 8)), s) ∧
        (s2.load x.view (some x.coil) p 8).2 = false ∧ ((s2.afterLoad p 8).load x.view (some x.coil) (.l1 x.hamper (0x1800 + 8)) 8).2 = false ∧
        done &&& x.s 11 = x.s 11 ∧ done &&& (x.s 7 + 0x40) ≠ x.s 7 + 0x40) ∧
    (∃ (s : State) (x : Issuer) (q : BteQueue), Ready s x { reads := [6, 7], writes := [9], courses := true, roles := 1 } ∧ s.bteRefusal x (x.s 6) = none ∧
      Dict.find? s.bte (x.s 6).toNat = some q ∧ (x.s 7).toNat ≤ s.bteAcc (x.s 6).toNat ∧
      q.packets.find? (fun p => p.number == (x.s 7).toNat) = none) ∧
    (∃ (s : State) (x : Issuer) (q : BteQueue) (p : BtePacket), Ready s x { reads := [6, 7], writes := [9], courses := true, roles := 1 } ∧
      s.bteRefusal x (x.s 6) = none ∧ Dict.find? s.bte (x.s 6).toNat = some q ∧ (x.s 7).toNat ≤ s.bteAcc (x.s 6).toNat ∧
      q.packets.find? (fun p => p.number == (x.s 7).toNat) = some p ∧ p.complete = false ∧ s.bteTl (x.s 6).toNat < (x.s 7).toNat) ∧
    ∃ (s : State) (x : Issuer) (q : BteQueue), Ready s x { reads := 6 :: upFrom 16 8, writes := [5], courses := true, roles := 1 } ∧
      s.bteRefusal x (x.s 6) = none ∧ Dict.find? s.bte 5 = some q ∧ (∀ e ∈ s.arrived, e.reader ≠ .path x.id 4) ∧ x.strand.longs = [] ∧ s.copies = [] ∧
      let i := (numberOf (s.newest x.hamper) 0x40 4).toNat
      let va := s.bteRing 5 + 64 * (i % 2 ^ s.bteLog2 5)
      let s1 := s.ordered x.hamper false true [(0, pushAcc (s.bteUhdr 5), .mem 0x40)]
      (i + 2 ^ 32 - (numberOf (s.newest x.hamper) (0x40 + 4) 4).toNat) % 2 ^ 32 < 2 ^ s.bteLog2 5 ∧
      s.judge x.who (pushAcc (s.bteUhdr 5)) = (.ok (.mem 0x40), s) ∧
      (∀ j, j < 8 → s1.judge x.who (pushAcc (va + 8 * j)) = (.ok (.mem (0x1080 + 8 * j)), s1)) ∧
      OttRoom s x [(0, pushAcc (s.bteUhdr 5), .mem 0x40)] ∧
      OttRoom s1 x ((upFrom 0 8).map (fun j => (0, pushAcc (va + 8 * j), .mem (0x1080 + 8 * j)))) ∧
      Plain s 0x40 8 ∧ (∀ j, j < 8 → Plain s (0x1080 + 8 * j) 8) ∧ s1 = s ∧ s1.memPoison 0x40 8 = false :=
  have r := sC_regions
  ⟨⟨sC [], (sC []).issuer.get sC_turn, ready_of (by decide), by decide, by decide,
    plain_of _ _ (by decide) (r _).1 (r _).2.1 (r _).2.2, plain_of _ _ (by decide) (r _).1 (r _).2.1 (r _).2.2, by unfold OttRoom; decide +kernel⟩,
   ⟨sC [], (sC []).issuer.get sC_turn, bte0 [], ready_of (by decide), by decide⟩,
   ⟨sC [packet0 43], (sC [packet0 43]).issuer.get sC1_turn, bte0 [packet0 43], packet0 43, ready_of (by decide), by decide⟩,
   sC [], (sC []).issuer.get sC_turn, bte0 [], ready_of (by decide), by decide, by decide, (by intro e h; cases h), by decide, by decide, by decide, by decide,
   by decide, by unfold OttRoom; decide, by unfold OttRoom; decide, plain_of _ _ (by decide) (r _).1 (r _).2.1 (r _).2.2,
   fun j _ => plain_of _ _ (by omega) (r _).1 (r _).2.1 (r _).2.2, by decide, by decide⟩

/-- A vector strand with the operands of a build (s20 to s23, N = 1) and a tile word in s24. -/
def sQ : State := ((sW.setS root0 22 1 false).setS root0 21 0x100 false).setS root0 24 0 false
theorem sQ_turn : sQ.issuer.isSome = true := by decide
theorem witness_QueryAndCoverageForms : ∃ (s : State) (x : Issuer), Ready s x { reads := upFrom 20 4, writes := [3], courses := true, roles := 4 } ∧
    (x.s 20).toNat % 4 = 0 ∧ (x.sAt 21).toNat % 128 = 0 ∧ 1 ≤ (x.sAt 22).toNat ∧ (x.sAt 22).toNat ≤ 2 ^ 24 ∧ (x.sAt 23).toNat < 2 ^ 56 ∧
    meetsHole (rangesOf 0 36 ++ rangesOf 0x100 192) = false ∧ meetsPeer (rangesOf 0 36 ++ rangesOf 0x100 192) = false ∧
    s.meetsWindow x.asid (rangesOf 0 36 ++ rangesOf 0x100 192) = false ∧ Ready s x { reads := [24], writes := [3], courses := true, roles := 4 } ∧
    s.tileBad x (x.s 24) = false ∧ Ready s x { reads := upFrom 24 4, writes := [3], courses := true, roles := 4 } ∧ (x.s 24).toNat % 4 = 0 ∧
    (x.sAt 25).toNat % 128 = 0 ∧ (x.sAt 26).toNat = 0 :=
  ⟨sQ, sQ.issuer.get sQ_turn, ready_of (by decide), by decide, by decide, by decide, by decide, by decide, by decide, by decide, by decide,
   ready_of (by decide), by decide, ready_of (by decide), by decide⟩

/-- A snapshot entry that one transaction holds, at stamp 0. -/
def snap0 : Snap := { stamp := 0, entry := 0, gen := 1 }
def txn0 : Txn := { tag := 4, snap := snap0, holds := true, aborted := none }
def withSnap (s : State) (dead : Bool) : State :=
  { s with ply := { s.ply with snaps := [(0, { stamp := 0, holders := 1, gen := 1, revoked := dead })], gens := [(0, 1)] } }
def sTx (dead : Bool) : State := (withSnap sA dead).updStrand 0 0 (fun st => { st with txn := some txn0 })
theorem sTx_turn : (sTx false).issuer.isSome = true := by decide
theorem sTxDead_turn : (sTx true).issuer.isSome = true := by decide
def sHnd : State := { (withSnap (sA.setS root0 9 snap0.handle false) false).updCoil 0 (fun c => { c with handles := [snap0], txn := some txn0 }) with
  bolts := Dict.upd sA.bolts 0 (fun b => { b with snap := some snap0 }) }
theorem sHnd_turn : sHnd.issuer.isSome = true := by decide
theorem witness_PlyForms : (∃ (s : State) (x : Issuer), Ready s x { writes := [3], courses := true } ∧ Alone x ∧ x.strand.txn = none ∧ x.coil.openTxn = none ∧
      s.takeSnap.isSome = true ∧ x.coil.handles.length < 8 ∧ x.coil.liveStrands = [x.id.strand] ∧ x.id.strand < 64 ∧ ∀ st ∈ x.coil.strands, st.txn = none) ∧
    (∃ (s : State) (x : Issuer), Ready s x { writes := [3], courses := true } ∧ Alone x ∧ x.strand.txn = some txn0 ∧ x.strand.longs = [] ∧ s.copies = [] ∧
      s.revoked txn0.snap = false ∧ s.writeSet txn0.tag = []) ∧
    (∃ (s : State) (x : Issuer), Ready s x { writes := [3], courses := true } ∧ Alone x ∧ x.strand.txn = some txn0 ∧ s.revoked txn0.snap = true) ∧
    ∃ (s : State) (x : Issuer), Ready s x { reads := [9], courses := true } ∧ x.coil.heldHandle (x.s 9) = some snap0 ∧ x.bolt.snap = some snap0 ∧
      Ready s x { writes := [3], courses := true } ∧ Alone x ∧ x.coil.liveStrands = [x.id.strand] ∧ x.coil.openTxn = some txn0 ∧ txn0.aborted = none ∧
      x.coil.plyReported.getLsbD x.id.strand = false ∧ x.strand.longs = [] ∧ s.copies = [] ∧ s.revoked txn0.snap = false ∧ s.writeSet txn0.tag = [] :=
  ⟨⟨sA, xA, ready_of (by decide), ⟨by decide, by decide, by decide⟩, by decide, by decide, by decide, by decide, by decide, by decide, by decide⟩,
   ⟨sTx false, (sTx false).issuer.get sTx_turn, ready_of (by decide), ⟨by decide, by decide, by decide⟩, by decide⟩,
   ⟨sTx true, (sTx true).issuer.get sTxDead_turn, ready_of (by decide), ⟨by decide, by decide, by decide⟩, by decide⟩,
   sHnd, sHnd.issuer.get sHnd_turn, ready_of (by decide), by decide, by decide, ready_of (by decide), ⟨by decide, by decide, by decide⟩, by decide⟩

/-- The conditions of `LaneReady` besides the turn and the running course. -/
def laneReadyB (s : State) (x : Issuer) (r : Running) (op : Nat) (o : Lane) (more : List Nat := []) : Bool :=
  let u := laneUses op o more
  r.course.path == x.id.path && (laneForm op o).any (fun f => f.ok && f.roles &&& x.role != 0) &&
    u.1.all (fun v => (decide (0xEF < v) && !more.contains v) || decide (v < x.desc.vregs)) && u.2.2.all (fun n => decide (n < x.desc.sregs)) &&
    !laneStalls x r u.1 u.2.1 u.2.2 &&
    (laneWrites op ((laneForm op o).getD {}) o).all (fun v => !(s.heldRegs x.id.coil x.id.strand x.w).contains v)

theorem laneReady_of {s : State} {h : s.issuer.isSome = true} {k : (s.issuer.get h).strand.running.isSome = true} {op : Nat} {o : Lane} {more : List Nat}
    (hb : laneReadyB s (s.issuer.get h) ((s.issuer.get h).strand.running.get k) op o more = true) :
    LaneReady s (s.issuer.get h) ((s.issuer.get h).strand.running.get k) op o more := by
  simp only [laneReadyB, Bool.and_eq_true, Bool.not_eq_true', beq_iff_eq, List.all_eq_true, Bool.or_eq_true, decide_eq_true_eq] at hb
  obtain ⟨⟨⟨⟨⟨h1, h2⟩, h3⟩, h4⟩, h5⟩, h6⟩ := hb
  refine ⟨(Option.some_get h).symm, (Option.some_get k).symm, h1, h2, ?_, h4, h5, ?_⟩
  · intro v hv
    exact (h3 v hv).imp (fun q => ⟨q.1, by simpa using q.2⟩) id
  · intro v hv
    simpa using h6 v hv

/-- A strand of a role with a running course; v4 holds an address of mapped memory for each lane, v5 addresses of a scratchpad window, v6 lane
numbers, v7 ones. -/
def sV (role : Nat) : State :=
  let col (v : Nat) (f : Nat → W64) : List (Nat × W64) := (upFrom 0 32).map (fun l => (vKey v l, f l))
  let v := col 4 (fun l => BitVec.ofNat 64 (0x1800 + 8 * l)) ++ col 5 (fun l => BitVec.ofNat 64 (0x200000 + 32 * l)) ++ col 6 (fun l => BitVec.ofNat 64 l) ++ col 7 (fun _ => 1)
  ((sLane role 0xFF000000).setRegN (aSwin 0) (2 ^ 21 + 2 ^ 16)).updStrand 0 0 (fun st => { st with vregs := v, kregs := [(1, 3), (2, 1)] })
theorem sV4_turn : (sV 4).issuer.isSome = true := by decide
def xV : Issuer := (sV 4).issuer.get sV4_turn
theorem xV_runs : xV.strand.running.isSome = true := by decide
def rV : Running := xV.strand.running.get xV_runs
theorem sV2_turn : (sV 2).issuer.isSome = true := by decide
def xV2 : Issuer := (sV 2).issuer.get sV2_turn
theorem xV2_runs : xV2.strand.running.isSome = true := by decide
def rV2 : Running := xV2.strand.running.get xV2_runs

/-- Fields of integer and floating forms: D = v1, A = v4, and B, C where there are any. -/
def forms3 (ty : Nat) : List Lane := [ln 0 ty 0 0 false 0 1 4 5 6 0, ln 0 ty 0 0 false 0 1 4 5 0 0, ln 0 ty 0 0 false 0 1 4 0 0 0,
  ln 0 ty 0 0 false 0 1 4 0 0 0x0800, ln 0 ty 0 0 false 0 1 4 5 0 0x0800]
def someForm (op ty : Nat) : Lane := ((forms3 ty).find? (fun o => laneReadyB (sV 4) xV rV op o)).getD (ln 0 0 0 0 false 0 0 0 0 0 0)

theorem laneMeets {op : Nat} {o : Lane} {specs : List Nat} (h : laneReadyB (sV 4) xV rV op o = true) (hc : (laneIn xV rV o).clean specs) :
    ∃ (s : State) (x : Issuer) (r : Running) (o : Lane), LaneReady s x r op o ∧ (laneIn x r o).clean specs :=
  ⟨sV 4, xV, rV, o, laneReady_of h, hc⟩

theorem witness_LaneIntegers : (∀ row ∈ laneIntRows, ∃ (s : State) (x : Issuer) (r : Running) (o : Lane), LaneReady s x r row.op o ∧
      (laneIn x r o).clean (row.srcs o)) ∧
    ∃ (s : State) (x : Issuer) (r : Running) (o : Lane), LaneReady s x r 0x0F o ∧ (laneIn x r o).clean (srcsABC o) := by
  have h : ∀ row ∈ laneIntRows, laneReadyB (sV 4) xV rV row.op (someForm row.op 4) = true ∧ (laneIn xV rV (someForm row.op 4)).clean (row.srcs (someForm row.op 4)) := by
    unfold LaneIn.clean; decide
  exact ⟨fun row hr => ⟨sV 4, xV, rV, someForm row.op 4, laneReady_of (h row hr).1, (h row hr).2⟩,
    sV 4, xV, rV, someForm 0x0F 4, laneReady_of (by decide), by unfold LaneIn.clean; decide⟩
theorem witness_LaneFloats : ∀ row ∈ laneFloatRows, ∃ (s : State) (x : Issuer) (r : Running) (o : Lane), LaneReady s x r row.op o ∧
    (laneIn x r o).clean (row.srcs o) := by
  have h : ∀ row ∈ laneFloatRows, laneReadyB (sV 4) xV rV row.op (someForm row.op 10) = true ∧
      (laneIn xV rV (someForm row.op 10)).clean (row.srcs (someForm row.op 10)) := by
    unfold LaneIn.clean; decide
  exact fun row hr => ⟨sV 4, xV, rV, someForm row.op 10, laneReady_of (h row hr).1, (h row hr).2⟩
theorem witness_LaneLongs : ∀ row ∈ laneDivRows ++ laneFnRows, ∃ (s : State) (x : Issuer) (r : Running) (o : Lane), LaneReady s x r row.op o ∧
    (laneIn x r o).clean (row.srcs o) := by
  have h : ∀ row ∈ laneDivRows ++ laneFnRows, ∃ ty, ty < 16 ∧ laneReadyB (sV 4) xV rV row.op (someForm row.op ty) = true ∧
      (laneIn xV rV (someForm row.op ty)).clean (row.srcs (someForm row.op ty)) := by
    unfold LaneIn.clean; decide
  exact fun row hr => let ⟨ty, _, h1, h2⟩ := h row hr; ⟨sV 4, xV, rV, someForm row.op ty, laneReady_of h1, h2⟩
theorem witness_LaneCompares : ∀ row ∈ compareRows, ∃ (s : State) (x : Issuer) (r : Running) (o : Lane), LaneReady s x r row.op o ∧
    (laneIn x r o).clean (srcsAB o) := by
  have h : ∀ row ∈ compareRows, ∃ ty, ty < 16 ∧ laneReadyB (sV 4) xV rV row.op (someForm row.op ty) = true ∧
      (laneIn xV rV (someForm row.op ty)).clean (srcsAB (someForm row.op ty)) := by
    unfold LaneIn.clean; decide
  exact fun row hr => let ⟨ty, _, h1, h2⟩ := h row hr; ⟨sV 4, xV, rV, someForm row.op ty, laneReady_of h1, h2⟩
theorem witness_LaneConversions : (∀ row ∈ cvtRows, ∃ (s : State) (x : Issuer) (r : Running) (o : Lane), LaneReady s x r row.op o ∧
      (laneIn x r o).clean (srcsA o)) ∧
    ∃ (s : State) (x : Issuer) (r : Running) (o : Lane), LaneReady s x r 0x4B o ∧ (laneIn x r o).clean (srcsAB o) := by
  have h : ∀ row ∈ cvtRows, ∃ ty, ty < 12 ∧ ∃ src, src < 12 ∧ laneReadyB (sV 4) xV rV row.op (ln 0 ty 0 0 false src 1 4 0 0 0) = true ∧
      (laneIn xV rV (ln 0 ty 0 0 false src 1 4 0 0 0)).clean (srcsA (ln 0 ty 0 0 false src 1 4 0 0 0)) := by
    unfold LaneIn.clean; decide
  exact ⟨fun row hr => let ⟨ty, _, src, _, h1, h2⟩ := h row hr; ⟨sV 4, xV, rV, ln 0 ty 0 0 false src 1 4 0 0 0, laneReady_of h1, h2⟩,
    sV 4, xV, rV, ln 0 10 0 0 false 13 1 4 5 0 0, laneReady_of (by decide), by unfold LaneIn.clean; decide⟩
theorem witness_LaneMoves : ∃ (s : State) (x : Issuer) (r : Running), LaneReady s x r 0x58 (ln 1 3 0 0 false 0 1 0 0 0 0) ∧
    LaneReady s x r 0x58 (ln 0 3 0 0 false 0 1 4 0 0 0) ∧ LaneReady s x r 0x59 (ln 0 3 0 0 false 0 1 4 5 1 0) ∧
    LaneReady s x r 0x5A (ln 0 3 0 0 false 0 1 1 0 0 0) ∧ LaneReady s x r 0x5A (ln 1 3 0 0 false 0 1 4 0 0 0) ∧
    (laneIn x r (ln 1 3 0 0 false 0 1 4 0 0 0)).clean [4] ∧ LaneReady s x r 0x60 (ln 0 3 0 0 false 0 1 4 6 0 0) ∧
    (laneIn x r (ln 0 3 0 0 false 0 1 4 6 0 0)).clean [6] ∧ LaneReady s x r 0x61 (ln 0 3 0 0 false 0 1 4 0 0 31) ∧ bits 31 5 0 < x.w ∧
    LaneReady s x r 0x62 (ln 2 3 0 0 false 0 1 4 0 0 31) ∧ bits 31 6 0 < x.w ∧ LaneReady s x r 0x68 (ln 0 4 0 0 false 0 1 4 0 0 7) ∧
    LaneReady s x r 0x69 (ln 0 0 0 0 false 0 1 4 0 0 7) :=
  ⟨sV 4, xV, rV, laneReady_of (by decide), laneReady_of (by decide), laneReady_of (by decide), laneReady_of (by decide), laneReady_of (by decide),
   by unfold LaneIn.clean; decide, laneReady_of (by decide), by unfold LaneIn.clean; decide, laneReady_of (by decide), by decide,
   laneReady_of (by decide), by decide, laneReady_of (by decide), laneReady_of (by decide)⟩
/-- A running course at a `reorder` before its trailer. -/
def sR : State := State.reset.probe 4 true [0x000000000004000070010000, 0xFF000000]
theorem sR_turn : sR.issuer.isSome = true := by decide
theorem sR_runs : (sR.issuer.get sR_turn).strand.running.isSome = true := by decide
theorem sR_none : ∀ st ∈ (sR.issuer.get sR_turn).coil.strands, st.txn = none := by decide
theorem witness_LaneReductions : (∃ (s : State) (x : Issuer) (r : Running), LaneReady s x r 0x63 (ln 3 3 0 0 false 0 9 4 0 0 0) ∧
      LaneReady s x r 0x64 (ln 0 7 0 0 false 0 9 4 0 0 0) ∧ LaneReady s x r 0x65 (ln 5 7 0 0 false 1 1 4 0 0 0) ∧
      (laneIn x r (ln 5 7 0 0 false 1 1 4 0 0 0)).clean [4] ∧ LaneReady s x r 0x66 (ln 0 3 0 0 false 0 9 4 0 0 31) ∧ bits 31 5 0 < x.w ∧
      LaneReady s x r 0x67 (ln 0 3 0 0 false 0 1 9 0 0 0) ∧ x.sBad 9 = false) ∧
    ∃ (s : State) (x : Issuer) (r : Running), LaneReady s x r 0x70 (ln 0 1 0 0 false 0 0 4 0 0 0) ∧ r.pos + 2 = r.words.length ∧
      x.strand.entries = [] ∧ x.path.em = x.strand.live ∧ ∀ (q : Nat) (st : Strand), x.coil.strands[q]? = some st → st.txn = none := by
  exact ⟨⟨sV 4, xV, rV, laneReady_of (by decide), laneReady_of (by decide), laneReady_of (by decide), by unfold LaneIn.clean; decide,
    laneReady_of (by decide), by decide, laneReady_of (by decide), by decide⟩,
    sR, sR.issuer.get sR_turn, (sR.issuer.get sR_turn).strand.running.get sR_runs, laneReady_of (by decide),
    by decide, by decide, by decide, fun q st h => sR_none st (List.mem_of_getElem? h)⟩
theorem witness_LaneLoadsAndStores : (∃ (s : State) (x : Issuer) (r : Running) (o : Lane) (place : Nat → Place), LaneReady s x r 0x80 o ∧
      (laneIn x r o).clean (addrSpecs o) ∧ Allowed s s x ((laneIn x r o).accesses
        (fun l => { kind := .read, va := (laneEa (laneIn x r o) l).toNat, size := accSize o, l2 := laneAcq x o }) place)) ∧
    ∃ (s : State) (x : Issuer) (r : Running) (o : Lane) (pa : Nat → Nat), LaneReady s x r 0x90 o ∧ (laneIn x r o).clean (addrSpecs o) ∧
      Allowed s s x ((laneIn x r o).accesses (fun l => { kind := .write, va := (laneEa (laneIn x r o) l).toNat, size := accSize o, l2 := laneRel x o })
        (fun l => placeAt x (laneRel x o) (pa l))) (laneLate o) ∧ ∀ l ∈ (laneIn x r o).lanes, Plain s (pa l) (accSize o) :=
  ⟨⟨sV 4, xV, rV, ln 0 3 0 0 false 0 1 4 0 0 0, fun l => .l1 0 (0x1800 + 8 * l), laneReady_of (by decide), by unfold LaneIn.clean; decide,
    ⟨by decide, by decide, by decide, by decide, by decide⟩⟩,
   sV 4, xV, rV, ln 0 3 0 0 false 0 0 4 0 7 8, fun l => 0x1808 + 8 * l, laneReady_of (by decide), by unfold LaneIn.clean; decide,
   ⟨by decide, by decide, by decide, by decide, by decide⟩, by
     intro l hl
     have hw : (0x1808 + 8 * l) % 8 = 0 := by omega
     exact plain_of _ _ hw (by decide) (by decide) (by decide)⟩
/-- It holds no poison, and its L1s are empty. -/
theorem sV_sound (c : Nat) : (sV 4).memPoison c 1 = false := by
  have h : (sV 4).poison = [] := by decide
  unfold State.memPoison poisonIn
  rw [h]
  induction (granules 64 c 1) with
  | nil => rfl
  | cons a l ih => exact ih
theorem witness_LaneAtomics : ∃ (s : State) (x : Issuer) (r : Running) (o : Lane) (pa : Nat → Nat), (laneIn x r o).clean ([4, 7] ++ [1]) ∧
    Allowed s s x ((laneIn x r o).accesses (fun l => { kind := .atomic, va := ((laneIn x r o).a l + o.imm.signExtend 64).toNat
                                                       size := tyWidth (laneIn x r o).ty / 8, pcieAtomic := pcieHas (laneAtomOp o.sub.toNat) (tyWidth (laneIn x r o).ty / 8)
                                                       l2 := x.atL2 (scopeOf o.mod.toNat) })
      (fun l => placeAt x (x.atL2 (scopeOf o.mod.toNat)) (pa l))) (laneLate o) ∧
    (∀ l ∈ (laneIn x r o).lanes, Plain s (pa l) 8 ∧ ∀ c, c / 128 = pa l / 128 → s.memPoison c 1 = false ∧ s.seenBad x.hamper c = false) ∧ LaneReady s x r 0xA0 o ∧ LaneReady s x r 0xA1 { o with d := 0 } :=
  ⟨sV 4, xV, rV, ln 0 3 0 1 false 0 1 4 0 7 0, fun l => 0x1800 + 8 * l, by unfold LaneIn.clean; decide, ⟨by decide, by decide, by decide, by decide, by decide⟩, by
     intro l hl
     have hb : ∀ c, (sV 4).memPoison c 1 = false := fun c => sV_sound c
     have hw : (0x1800 + 8 * l) % 8 = 0 := by omega
     exact ⟨plain_of _ _ hw (by decide) (by decide) (by decide), fun c _ => ⟨hb c, hb c⟩⟩,
   laneReady_of (by decide), laneReady_of (by decide)⟩

/-- Bank 5 is a FIFO bank with two entries, and a copy lane waits for the first word of the window. -/
def cpa0 : CpaLane := { p := root0, lane := 0, dst := 0x200000, bytes := List.replicate 32 1, poison := List.replicate 32 false }
def sF : State := { sV 4 with roles := [(5, 2)], fifos := [(5, [(7, false), (8, true)])], copies := [(9, cpa0)] }
theorem sF_turn : sF.issuer.isSome = true := by decide
def xF : Issuer := sF.issuer.get sF_turn
theorem xF_runs : xF.strand.running.isSome = true := by decide
def rF : Running := xF.strand.running.get xF_runs
theorem sF_home : (sF.coilBolt? 0).isSome = true := by decide
theorem winPlaces_xF : ∀ k, k < 4 → winPlace (sF.coilBolt? 0 |>.get sF_home).1 (sF.coilBolt? 0 |>.get sF_home).2.desc 0 (0 + 8 * k) 8 = some (.scr (0 + 8 * k)) := by
  decide
theorem witness_LaneCopiesAndFifos : (∃ (s : State) (x : Issuer) (r : Running) (o : Lane) (place : Nat → Acc → Place), LaneReady s x r 0xB0 o ∧
      (laneIn x r o).clean (srcsABC o) ∧ (∀ l ∈ (laneIn x r o).lanes, cpaDest s (laneIn x r o) ((laneIn x r o).b l).toNat = none) ∧
      (∀ l ∈ (laneIn x r o).lanes, ∀ k, k < 4 → s.winOff x.asid (((laneIn x r o).a l + o.imm.signExtend 64).toNat + 8 * k) = none) ∧
      Allowed s s x ((laneIn x r o).lanes.flatMap (fun l =>
        (cpaSource ((laneIn x r o).a l + o.imm.signExtend 64).toNat (min 32 ((laneIn x r o).c l).toNat)).map (fun a => (l, a, place l a)))) false
        (some (laneIn x r o).lanes.length)) ∧
    (∃ (s : State) (m : CpaLane) (c : Coil) (b : Bolt), Dict.find? s.copies 9 = some m ∧ s.coilBolt? m.p.coil = some (c, b) ∧ c.liveStrands ≠ [] ∧
      m.bytes.length = 32 ∧ s.winOff b.asid m.dst.toNat = some 0 ∧
      ∀ k, k < 4 → winPlace c b.desc (b.desc.halfOf m.p.strand) (0 + 8 * k) 8 = some (.scr (0 + 8 * k))) ∧
    ∃ (s : State) (x : Issuer) (r : Running), fifoOk s x 5 = true ∧ LaneReady s x r 0xB1 (ln 0 3 0 1 false 0 0 4 0 0 5) ∧
      (s.fifo x 5).length + (laneIn x r (ln 0 3 0 1 false 0 0 4 0 0 5)).lanes.length ≤ 2048 ∧ orderWaits x false = false ∧
      laneLate (ln 0 3 0 1 false 0 0 4 0 0 5) = false ∧ LaneReady s x r 0xB2 (ln 0 3 0 1 false 0 1 0 0 0 5) ∧
      (laneIn x r (ln 0 3 0 1 false 0 1 0 0 0 5)).lanes.length ≤ (s.fifo x 5).length :=
  ⟨⟨sV 4, xV, rV, ln 0 3 0 1 false 0 0 4 5 6 0, fun _ a => .l1 0 a.va, laneReady_of (by decide), by unfold LaneIn.clean; decide, by decide, by decide,
    ⟨by decide, by decide, by decide, by decide, by decide⟩⟩,
   ⟨sF, cpa0, (sF.coilBolt? 0 |>.get sF_home).1, (sF.coilBolt? 0 |>.get sF_home).2, by decide, rfl, by decide, by decide, by decide, winPlaces_xF⟩,
   sF, xF, rF, by decide, laneReady_of (by decide), by decide, by decide, by decide, laneReady_of (by decide), by decide⟩
theorem witness_TileAccess : ∃ (s : State) (x : Issuer) (r : Running), LaneReady s x r 0xC0 (ln 0 3 0 0 false 0 1 15 0 0 32) ∧ 15 < x.desc.acc ∧
    rowsOk (laneIn x r (ln 0 3 0 0 false 0 1 15 0 0 32)) = true ∧ s.tileBusy x 15 true = false ∧
    LaneReady s x r 0xC1 (ln 1 3 0 0 false 0 1 15 0 0 0) ∧ s.tileBusy x 15 false = false ∧ LaneReady s x r 0xC2 (ln 0 3 0 0 false 0 15 4 0 0 32) ∧
    rowsOk (laneIn x r (ln 0 3 0 0 false 0 15 4 0 0 32)) = true :=
  ⟨sV 2, xV2, rV2, laneReady_of (by decide), by decide, by decide, by decide, laneReady_of (by decide), by decide, laneReady_of (by decide), by decide⟩
theorem witness_LaneEngineForms : (∃ (s : State) (x : Issuer) (r : Running), LaneReady s x r 0xC8 (ln 0 10 0 0 false 0 2 4 8 0 0) [5, 6, 7, 3] ∧
      (laneIn x r (ln 0 10 0 0 false 0 2 4 8 0 0)).clean [4, 5, 6, 7, 8]) ∧
    (∃ (s : State) (x : Issuer) (r : Running) (o : Lane), LaneReady s x r 0xC9 o ∧ (laneIn x r o).lanes.head? = some 0 ∧
      (laneIn x r o).clean (srcsABC o) ∧
      (∀ k, k < 1024 → ∀ c, (s.judge x.who
        { kind := .write, va := (((laneIn x r o).c 0).toNat + 8 * k) % 2 ^ 64, size := 8, align := if k = 0 then 32 else 8 }).1 ≠ .cause c) ∧
      Allowed s s x ((upFrom 0 8).map (fun k => (0, { kind := .read, va := (((laneIn x r o).b 0).toNat + 8 * k) % 2 ^ 64, size := 8
                                                      align := if k = 0 then 64 else 8 }, .l1 x.hamper (0x1800 + 8 * k)))) ∧
      (∀ k, k < 8 → Plain s (0x1800 + 8 * k) 8) ∧ ∀ k, k < 8 → (s.load x.view (some x.coil) (.l1 x.hamper (0x1800 + 8 * k)) 8).2 = false) ∧
    (∃ (s : State) (x : Issuer) (r : Running) (o : Lane), LaneReady s x r 0xCC o (segmentRegs (laneIn x r o)) ∧ (laneIn x r o).lanes.head? = some 0 ∧
      (laneIn x r o).clean (segmentRegs (laneIn x r o)) ∧ (laneIn x r o).bad o.b.toNat 0 = false ∧ (laneIn x r o).bad o.c.toNat 0 = false ∧
      s.tileBad x ((laneIn x r o).b 0) = false ∧ o.d ≠ 0) ∧
    ∃ (s : State) (x : Issuer) (r : Running) (o : Lane), LaneReady s x r 0xCD o (segmentRegs (laneIn x r o)) ∧ o.d ≠ 0 ∧ (laneIn x r o).lanes ≠ [] ∧
      (laneIn x r o).clean (segmentRegs (laneIn x r o) ++ [o.b.toNat, o.c.toNat]) ∧
      orderWaits x false = false ∧ s.ottUsed x.hamper ≤ 512 ∧ ∀ l ∈ (laneIn x r o).lanes, binCauses s (laneIn x r o) l = [] := by
  have h : ∀ k, k < 1024 → ((sV 4).judge xV.who
      { kind := .write, va := (((laneIn xV rV (ln 0 3 0 1 false 0 0 7 4 8 0)).c 0).toNat + 8 * k) % 2 ^ 64, size := 8
        align := if k = 0 then 32 else 8 }).1 = .ok (.l1 0 (8 * k)) := by decide +kernel
  exact ⟨⟨sV 4, xV, rV, laneReady_of (by decide), by unfold LaneIn.clean; decide⟩,
    ⟨sV 4, xV, rV, ln 0 3 0 1 false 0 0 7 4 8 0, laneReady_of (by decide), by decide, by unfold LaneIn.clean; decide,
      fun k hk c => by rw [h k hk]; exact Judged.noConfusion, ⟨by decide, by decide, by decide, by decide, by decide⟩,
      fun k _ => plain_of _ _ (by omega) (by decide) (by decide) (by decide), by decide⟩,
    ⟨sV 4, xV, rV, ln 3 6 0 1 false 0 2 4 8 9 0, laneReady_of (by decide), by decide, by unfold LaneIn.clean; decide, by decide, by decide, by decide,
      by decide⟩,
    sV 4, xV, rV, ln 1 10 0 1 false 0 14 4 8 9 0, laneReady_of (by decide), by decide, by decide, by unfold LaneIn.clean; decide, by decide, by decide, by decide⟩

/-- An atlas of one block at 0x1800, its bitmap at 0x1900. -/
def sAt : State := sF.poke 0x1800 (toBytes 8 0x1900 ++ [1, 0, 1, 0]) false
theorem sAt_turn : sAt.issuer.isSome = true := by decide
theorem sAt_runs : (sAt.issuer.get sAt_turn).strand.running.isSome = true := by decide
theorem witness_AtlasRequest : ∃ (s : State) (x : Issuer) (r : Running) (o : Lane),
    let i := laneIn x r o
    let field (off n : Nat) : Nat := (numberOf (s.seen x.hamper) (0x1800 + off) n).toNat
    let s2 := (upFrom 0 4).foldl (fun s k => s.l1Touch x.hamper (0x1800 + 8 * k) 8) s
    let acc : Acc := { kind := .atomic, va := 0x1900, size := 8, l2 := true }
    LaneReady s x r 0xD0 o ∧ o.d ≠ 0 ∧ i.lanes = [0] ∧ i.clean [o.a.toNat, o.b.toNat] ∧ fifoOk s x 5 = true ∧ bits o.imm.toNat 4 0 = 5 ∧
    (s.fifo x 5).length < 2048 ∧
    Allowed s s x ((upFrom 0 4).map (fun k => (0, { kind := .read, va := ((i.b 0).toNat + 8 * k) % 2 ^ 64, size := 8, align := if k = 0 then 32 else 8 },
      .l1 x.hamper (0x1800 + 8 * k)))) ∧ (∀ k, k < 4 → Plain s (0x1800 + 8 * k) 8) ∧ (∀ k, k < 32 → s.seenBad x.hamper (0x1800 + k) = false) ∧ field 14 8 = 0 ∧ field 22 8 = 0 ∧
    field 24 8 = 0 ∧ (i.a 0).toNat % 2 ^ 32 < field 8 2 ∧ (i.a 0).toNat / 2 ^ 32 < field 10 2 ∧ s.winOff x.asid 0x1900 = none ∧
    field 0 8 + 8 * (((i.a 0).toNat / 2 ^ 32 * field 8 2 + (i.a 0).toNat % 2 ^ 32) / 64) = 0x1900 ∧
    Allowed s2 s2 x [(0, acc, .mem 0x1900)] ∧ Plain s 0x1900 8 ∧
    ((s2.ordered x.hamper false false [(0, acc, .mem 0x1900)]).load x.view (some x.coil) (.mem 0x1900) 8).2 = false :=
  ⟨sAt, sAt.issuer.get sAt_turn, (sAt.issuer.get sAt_turn).strand.running.get sAt_runs, ln 0 3 0 2 false 0 1 8 4 0 5, laneReady_of (by decide), by decide,
   by decide, by unfold LaneIn.clean; decide, by decide, by decide, by decide, ⟨by decide, by decide, by decide, by decide, by decide⟩,
   fun k _ => plain_of _ _ (by omega) (by decide) (by decide) (by decide), by decide, by decide, by decide, by decide, by decide, by decide, by decide,
   by decide, ⟨by decide +kernel, by decide, by decide +kernel, by decide +kernel, by decide +kernel⟩, plain_of _ _ (by decide) (by decide) (by decide) (by decide), by decide +kernel⟩

/-! Events. -/

/-- Memory of a machine with no ply region is plain for the agents outside the coils. -/
theorem pair_of {α β : Type} {f : α × β} {a : α} (h : f.1 = a) : f = (a, f.2) := by subst h; rfl
def calm (s : State) : Bool := s.regions.isEmpty && s.regF aPlyCfg 6 0 == 0 && s.fabric.snoop.isEmpty
theorem calm_run {s : State} (pa n : Nat) (h : calm s = true) : PlainRun s pa n := by
  simp only [calm, Bool.and_eq_true, List.isEmpty_iff, beq_iff_eq] at h
  exact plainRun_of pa n h.1.1 h.1.2 h.2
theorem calm_plain {s : State} (pa n : Nat) (hn : pa % n = 0) (h : calm s = true) : Plain s pa n := by
  simp only [calm, Bool.and_eq_true, List.isEmpty_iff, beq_iff_eq] at h
  exact plain_of pa n hn h.1.1 h.1.2 h.2

/-- A machine at a stage of boot, with no image in its flash. -/
def sBoot (n : Nat) : State := State.reset.setStage n
theorem witness_Boot : (sBoot 0).stage = 0 ∧ (sBoot 0).link.flash = [] ∧ (sBoot 1).stage = 1 ∧ (sBoot 3).stage = 3 ∧ (sBoot 0xF).stage = 0xF ∧
    (sBoot 0xF).regF aRecCtl 55 32 < 64 ∧ (sBoot 4).bootDone = true ∧ (sBoot 4).lastMismatch = false ∧ (sBoot 4).regF aFwxStat 31 16 < 0xFFFF ∧
    (sBoot 3).bootDone = false := by decide

/-- The header of an image of 64 zero bytes, kind 1, signed by a key of 524 bits made for this test with a script outside the model. -/
def recKey : List Byte := toBytes 384 0x998484422f5c0a095d11b2041da42774591f650101f005b6de9f30a8a3ed7270db7c391a276bcb94273ac86bcfe46953132402d86a351892d5b597f6901e3e75327
def recHeader : List Byte :=
  toBytes 4 0x49394C4B ++ [1, 0, 0, 0] ++ toBytes 4 0 ++ toBytes 4 64 ++ toBytes 16 0 ++ sha256Bytes (List.replicate 64 0) ++ recKey ++
    toBytes 384 0x9024c73e7ba1c3f00a64903398d1fa4d3872ef0090f6a745f2f10e516b35eaa40bc239d78a49b5db7f05764386ec40f919c05dfc6b24f5a5105545bd87c740a1a85 ++
    List.replicate 192 0
/-- The recovery window at a piece: its length, whether it is the last, what has come before, what is staged. -/
def sRecov (len off last : Nat) (r : Option Recovery) (staged : List Byte) : State :=
  let s := (((sBoot 0xF).setRegF aRecCtl 55 32 len).setRegF aRecCtl 23 0 off).setRegF aRecStat 10 8 1
  { s.setRegF aRecCtl 63 63 last with
    link := { s.link with recovery := r, keyHash := [(0, sha256 recKey)], staging := Tab.setRun Config.blank [] 0 staged } }
def rec0 : Recovery := { kind := 1, header := recHeader, bytes := 0, body := [], lastSeen := false }
theorem getRun_setRun (l : List Byte) : Tab.getRun Config.blank (Tab.setRun Config.blank [] 0 l) 0 l.length = l := by
  have h : ∀ (n k : Nat) (t : Tab Byte), Tab.getRun Config.blank t k n = (List.range n).map (fun i => Tab.get Config.blank t (k + i)) := by
    intro n
    induction n with
    | zero => intros; rfl
    | succ n ih => intro k t; simp [Tab.getRun, ih, List.range_succ_eq_map, Nat.add_assoc, Nat.add_comm 1]
  rw [h]
  apply List.ext_getElem (by simp)
  intro i h1 h2
  simp only [List.getElem_map, List.getElem_range]
  exact Tab.get_setRun_at Config.blank l [] 0 i h2
theorem sRecov_staging (len off last : Nat) (r : Option Recovery) (l : List Byte) :
    (sRecov len off last r l).link.staging = Tab.setRun Config.blank [] 0 l := rfl
theorem recHeader_length : recHeader.length = 0x400 := by decide +kernel
theorem recHeader_staged : (Tab.getRun Config.blank (sRecov 0x400 0 0 none recHeader).link.staging 0 0x400).take 0x400 = recHeader := by
  have h := getRun_setRun recHeader
  rw [recHeader_length] at h
  rw [sRecov_staging, h]
  exact List.take_of_length_le (Nat.le_of_eq recHeader_length)
theorem recHeader_good : (sRecov 0x400 0 0 none recHeader).headerErr 1 recHeader = 0 := by decide +kernel
theorem witness_Recovery :
    (∃ (s : State) (r : Recovery), s.stage = 0xF ∧ s.regF aRecCtl 55 32 = 64 ∧ s.link.recovery = some r ∧ 64 * s.regF aRecCtl 23 0 = 0x400 + r.bytes ∧
      bit (s.regN aRecCtl) 63 = false) ∧
    (∃ (s : State) (r : Recovery), s.stage = 0xF ∧ s.regF aRecCtl 55 32 = 64 ∧ s.link.recovery = some r ∧ 64 * s.regF aRecCtl 23 0 = 0x400 + r.bytes ∧
      bit (s.regN aRecCtl) 63 = true ∧ 0x400 + (r.bytes + 64) = 0x400 + imLen r.header ∧ r.kind = 1 ∧
      sha256Bytes (r.body ++ (Tab.getRun Config.blank s.link.staging 0 64).take (imLen r.header - r.body.length)) = (r.header.drop 0x20).take 32) ∧
    (∃ s : State, s.stage = 0xF ∧ s.regF aRecCtl 55 32 = 0x400 ∧ s.link.recovery = none ∧ s.regF aRecCtl 23 0 = 0 ∧ bit (s.regN aRecCtl) 63 = false ∧
      s.regF aRecStat 10 8 = 1 ∧ bit (s.regN aFabReplay) 0 = false ∧
      s.headerErr 1 ((Tab.getRun Config.blank s.link.staging 0 0x400).take 0x400) = 0 ∧
      s.svnErr 1 ((Tab.getRun Config.blank s.link.staging 0 0x400).take 0x400) = 0) ∧
    (sBoot 4).stage ≠ 0xF ∧ bit ((sBoot 4).regN aFabReplay) 0 = false :=
  ⟨⟨sRecov 64 16 0 (some rec0) [], rec0, by decide +kernel⟩, ⟨sRecov 64 16 1 (some rec0) [], rec0, by decide +kernel⟩,
   ⟨sRecov 0x400 0 0 none recHeader, by decide +kernel, by decide +kernel, by decide +kernel, by decide +kernel, by decide +kernel, by decide +kernel,
    by decide +kernel, by rw [recHeader_staged]; exact recHeader_good, by rw [recHeader_staged]; decide +kernel⟩, by decide, by decide⟩

/-- A request of the host with a body. -/
def mbx (kind len : Nat) (body : List Byte) : MbxReq := { kind := kind, len := len, seq := 1, body := body }
def sMail (wr rd : Nat) (slot : List Byte) : State :=
  let s := (sBoot 4).setReg aMbxIdx (BitVec.ofNat 64 (wr + 2 ^ 32 * rd))
  { s with link := { s.link with mbxSeen := rd, mailbox := slot.zipIdx.map (fun e => (256 * rd + e.2, e.1)), allocs := [(4096, 64, 0)], queues := [3] } }
theorem mail_ready : MailReady (sMail 3 2 [1]) := ⟨by decide, by decide⟩
theorem witness_HostMailbox : ∃ (s : State) (alloc free : MbxReq) (open' close : MbxReq), MailReady s ∧ alloc.len = 16 ∧ recN alloc.body 0 8 = 1 ∧
    recN alloc.body 8 1 = 12 ∧ recN alloc.body 9 1 = 1 ∧ s.qrcPending = false ∧ (s.qrcCloseOp 3).qrcPending = false ∧
    { s with halted := true }.qrcPending = true ∧ recN alloc.body 10 6 = 0 ∧ free.len = 8 ∧ (∃ a ∈ s.link.allocs, a.1 = recN free.body 0 8) ∧
    open'.len = 24 ∧ 10 ≤ recN open'.body 16 1 ∧ recN open'.body 16 1 ≤ 24 ∧ recN open'.body 17 1 < 32 ∧ recN open'.body 18 6 = 0 ∧
    recN open'.body 0 8 % 4096 = 0 ∧ recN open'.body 8 8 % 64 = 0 ∧ close.len = 8 ∧ recN close.body 0 4 = 3 ∧ recN close.body 4 4 = 0 ∧
    3 ∈ s.link.queues ∧ s.bootDone = true ∧ s.link.mbxDead = false ∧ s.regF aMbxIdx 63 32 = 2 ∧ s.regF aMbxIdx 31 0 = (2 + 1) % 2 ^ 32 ∧
    s.link.mbxSeen = 2 ∧ Tab.getRun Config.blank s.link.mailbox (256 * (2 % 1024)) 256 = [1] ++ List.replicate 255 0 :=
  ⟨sMail 3 2 [1], mbx 3 16 (toBytes 8 1 ++ [12, 1]), mbx 4 8 (toBytes 8 4096), mbx 5 24 (toBytes 8 4096 ++ toBytes 8 64 ++ [24, 31]),
   mbx 6 8 (toBytes 4 3), mail_ready, by decide +kernel⟩
theorem witness_HostMailboxRefuses : ∃ (s : State) (r q : MbxReq), MailReady s ∧ r.len ≠ 16 ∧ (q.len ≠ 8 ∨ ∀ a ∈ s.link.allocs, a.1 ≠ recN q.body 0 8) ∧
    s.bootDone = true ∧ (sMail 1025 0 []).bootDone = true ∧ (sMail 1025 0 []).link.mbxDead = false ∧
    1024 < ((sMail 1025 0 []).regF aMbxIdx 31 0 + 2 ^ 32 - (sMail 1025 0 []).regF aMbxIdx 63 32) % 2 ^ 32 :=
  ⟨sMail 3 2 [1], mbx 3 8 [], mbx 4 8 (toBytes 8 8192), mail_ready, by decide⟩

/-- A responder whose connection has its algorithms, and some sessions. -/
def sSpdm (l : List (Nat × Bool)) : State :=
  { sBoot 4 with link := { (sBoot 4).link with spdmDoe := { version := true, algorithms := true, sessions := l } } }
theorem chain_some : recN [0x12] 4 2 < certChain.length := by
  have h : recN [0x12] 4 2 = 0 := by decide
  simp only [h, certChain, List.length_append, List.length_cons]
  omega
theorem witness_Attestation : ∃ (s full : State) (r m : SpdmReq), s.fwxUp = true ∧ spKnown r = true ∧ spKnown m = true ∧ recN r.payload 2 1 = 0 ∧
    recN r.payload 4 2 < certChain.length ∧ spKnown { r with payload := [0x11] } = false ∧ (s.spdm r.mctp).version = true ∧ (s.spdm r.mctp).algorithms = true ∧
    recN r.payload 2 1 % 16 = 0 ∧ (recN r.payload 3 1 ≤ 8 ∨ recN r.payload 3 1 = 255) ∧ (s.spdm r.mctp).holds r false ∧ (s.spdm m.mctp).holds m true ∧
    (s.spdm r.mctp).sessions.length < 4 ∧ full.fwxUp = true ∧ (full.spdm r.mctp).version = true ∧ (full.spdm r.mctp).algorithms = true ∧
    4 ≤ (full.spdm r.mctp).sessions.length ∧ State.reset.fwxUp = false ∧ recN m.payload 3 1 = 8 :=
  ⟨sSpdm [(1, false), (2, true)], sSpdm [(1, false), (2, true), (3, true), (4, true)], { mctp := false, session := some 1, payload := [0x12] },
   { mctp := false, session := some 2, payload := [0x13, 0xE0, 0, 8] }, by decide, by decide, by decide, by decide, chain_some, by decide, by decide, by decide, by decide, by decide, ⟨1, by decide, by decide⟩,
   ⟨2, by decide, by decide⟩, by decide, by decide, by decide, by decide, by decide, by decide, by decide⟩

/-- Readings that are out of their bounds. -/
def sickHealth : HealthReading := { drift := [(3, 6001)], trend := [(7, 9)], margin := [(37, 1)], ceRate := [] }
theorem witness_PowerAndHealth : ∃ s : State, s.power.pending = some 3 ∧ s.rate (domainNum .hbm) ≤ 2 ^ 20 ∧ 2 ^ 15 < s.rate (domainNum .hbm) ∧
    s.power.hot = false ∧ 191 < s.hampers ∧ 6000 < (Tab.get 0 sickHealth.drift 3).toInt ∧ 3 < s.regF aModMem 8 0 ∧ Tab.get false s.power.crossed 3 = false ∧
    s.budget .hbm < 5000 ∧ (∀ w ∈ List.replicate 10 0, 100 * w < 95 * s.budget .hbm) ∧ (∃ w ∈ (List.replicate 10 5000).take 10, 95 * s.budget .hbm ≤ 100 * w) :=
  ⟨{ State.reset with power := { Power.reset with pending := some 3 } }, by decide⟩

/-- A request of an engine outstanding on a port, of one part. -/
def remote1 (port : Nat) (held : Bool) : RemoteReq :=
  { p := root0, op := 4, parts := [{ lane := 0, va := 0x4000, pos := 0, len := 8, dst := 2 ^ 20 }], kind := .read, size := 8, reader := some (.engine 4)
    port := port, held := held, off := 0x4000 }
def sRem (port : Nat) : State := { sBoot 4 with remotes := [(7, remote1 port false)] }
theorem witness_HostLinkEvents : ∃ (s : State) (r : RemoteReq) (p : RemotePart), s.memReady = true ∧ s.link.d3hot = false ∧ s.bar2Pa 64 + 8 ≤ s.memBytes ∧
    PlainRun s (s.bar2Pa 64) 8 ∧ bit (s.regN aFabReplay) 0 = false ∧ State.reset.memReady = false ∧ (∀ e ∈ s.remotes, usesPage 5 e.2 = false) ∧
    (∃ e ∈ s.remotes, usesPage 4 e.2 = true) ∧ r.held = false ∧ r.ats = false ∧ r.gone = false ∧ s.memPoison (s.bar2Pa 64) 8 = false ∧ s.bar2Pa 64 % 128 + 8 ≤ 128 ∧
    pcieHas .add 8 = true ∧ Dict.find? s.remotes 7 = some r ∧ r.port = 255 ∧ r.reader = some (.engine 4) ∧ r.parts = [p] ∧
    r.kind = .read ∧ p.pos = 0 ∧ (toBytes 8 9).length = p.len :=
  ⟨sRem 255, remote1 255 false, { lane := 0, va := 0x4000, pos := 0, len := 8, dst := 2 ^ 20 }, by decide, by decide, by decide, calm_run _ _ (by decide),
   by decide, by decide, by decide, by decide, by decide, by decide, by decide, by decide, by decide, by decide, by decide, by decide, by decide, by decide, by decide, by decide, by decide⟩

/-- A machine that exports its first GiB under key 9, with copies. -/
def sExp : State := sBoot 4 |>.setReg (aExport 0) (BitVec.ofNat 64 (9 * 2 ^ 48 + 0xF))
def fab (key size : Nat) (data : List Byte) (copy : Bool) : FabReq :=
  { id := 1, src := 8, key := BitVec.ofNat 16 key, off := 0x100, size := size, data := data, byteMask := 5, wantsCopy := copy }
/-- A chunk whose RDMA transfer is out. -/
def sRdma : State :=
  { sBoot 4 with remotes := [(7, { remote1 253 false with reader := some (.chunk 2 3 0) })] }
theorem witness_FabricRequests : ∃ (s : State) (no yes copy wr : FabReq) (d : RdmaReq), s.exportPa no.key.toNat no.off .read = none ∧
    s.admitted no .write = none ∧ s.admitted no .atomic = none ∧ s.fabric.accepted = [] ∧
    s.exportPa yes.key.toNat yes.off .read = some 0x100 ∧ PlainRun s 0x100 yes.size ∧ s.memPoison 0x100 yes.size = false ∧ yes.wantsCopy = false ∧
    s.exportPa copy.key.toNat copy.off .read = some 0x100 ∧ 0 < copy.size ∧ copy.wantsCopy = true ∧ bit (s.regN (aExport (copy.off / 2 ^ 30))) 3 = true ∧
    s.fabric.snoop.length < 4096 ∧ s.admitted wr .write = some 0x100 ∧ 0 < wr.data.length ∧ bit (s.regN aFabReplay) 0 = false ∧
    s.admitted yes .atomic = some 0x100 ∧ 0x100 % 128 + yes.size ≤ 128 ∧ d.target = s.identity ∧ d.pa + d.data.length ≤ s.memBytes ∧
    d.pa + d.size ≤ s.memBytes ∧ (∀ pa n, PlainRun s pa n) ∧
    ∃ (r : RdmaResp) (q : RemoteReq), sRdma.rdmaOf r.queue r.number r.chunk = some (7, q) ∧ q.kind = .read :=
  ⟨sExp, fab 8 8 [] false, fab 9 8 (toBytes 8 1) false, fab 9 128 [] true, fab 9 0 (toBytes 3 0x30201) false,
   { target := 0, pa := 0x200, size := 16, data := [1, 2] }, by decide, by decide, by decide, by decide, by decide, calm_run _ _ (by decide), by decide, by decide,
   by decide, by decide, by decide, by decide, by decide, by decide, by decide, by decide, by decide, by decide, by decide, by decide, by decide,
   fun pa n => calm_run pa n (by decide), { queue := 2, number := 3, chunk := 0 }, { remote1 253 false with reader := some (.chunk 2 3 0) }, by decide⟩

/-- Ports 0 (narrow) and 1 up, a held request for port 0, line 5 copied to devices 8 and 9. -/
def sPort : State :=
  let s := (sBoot 4).setRegF (aPortStat 0) 1 0 2
  let s := s.setRegF (aPortStat 1) 1 0 2
  { s with remotes := [(7, remote1 0 true)]
           fabric := { s.fabric with held := [0], snoop := [(5, { holders := [8, 9], awaiting := [8], grantedAt := 0 })], rate := [(3, 2 ^ 19)] } }
theorem witness_FabricLinks : (∃ (s : State) (r : RemoteReq) (p : RemotePart), EngineAsks s 7 4 r p ∧ r.port < 36 ∧ (toBytes 8 1).length = p.len) ∧
    ∃ (s : State) (e : Snoop) (r : RemoteReq), Dict.find? s.fabric.snoop 5 = some e ∧ 8 ∈ e.awaiting ∧ s.regF (aPortStat 0) 1 0 = 2 ∧ s.portUp 0 = true ∧
      s.portBusy 0 = false ∧ (sRem 0).portBusy 0 = true ∧ (∃ p, p < 36 ∧ s.portUp p = false) ∧ 0 ∈ s.fabric.held ∧ s.remotes = [(7, r)] ∧ r.port = 0 ∧
      r.held = true ∧ (∃ p, s.route (r.off / 128) = some p ∧ p < 36 ∧ ∀ k ∈ s.fabric.held, k = 0 ∨ k ≠ p) ∧
      (∀ e ∈ s.remotes, e.2.port = 253 → ∃ q n k, e.2.reader = some (.chunk q n k)) ∧ Tab.get 0 s.fabric.rate 3 = 2 ^ 20 - 2 ^ 19 := by
  refine ⟨⟨sRem 0, remote1 0 false, _, ⟨by decide, rfl, rfl, rfl, rfl, rfl, rfl⟩, by decide, by decide⟩,
    sPort, { holders := [8, 9], awaiting := [8], grantedAt := 0 }, remote1 0 true, by decide, by decide, by decide, by decide, by decide, by decide,
    ⟨2, by decide⟩, by decide, by decide, by decide, by decide, ⟨(sPort.route 128).get (by decide), by decide, by decide, by decide⟩, ?_, by decide⟩
  intro e he h
  exact absurd h ((by decide : ∀ e ∈ sPort.remotes, e.2.port ≠ 253) e he)

def yoke (k : YokeKind) : YokeAccess := { hart := 3, kind := k, asid := 1, va := 0x5000, pa := 0x1F8, size := 8, value := 7, comparand := 0 }
theorem yoke_here : YokeHere (sBoot 4) (yoke .load) :=
  ⟨by decide, by decide, by decide, by decide, by decide, by decide, by decide, by decide, calm_run _ _ (by decide)⟩
theorem witness_YokeRegisters : (∃ (s : State), (∀ k, YokeHere s (yoke k)) ∧ 0 < (yoke .load).size ∧ s.memPoison 0x1F8 8 = false) ∧
    ∃ (s : State) (v w : W64), bit v.toNat 5 = true ∧ 6 ≤ bits v.toNat 4 0 ∧ bits v.toNat 4 0 ≤ 16 ∧
      s.regF aUpcBase 63 6 * 64 % (64 * 2 ^ bits v.toNat 4 0) = 0 ∧ bit w.toNat 5 = true ∧ bits w.toNat 4 0 < 6 ∧ s.commandPending 3 (aSwin 63) = false ∧
      s.commandPending 3 aYokErr = false ∧ s.regN aYokErr < 8 :=
  have h := yoke_here
  ⟨⟨sBoot 4, fun _ => ⟨h.free, rfl, h.window, h.peer, h.regs, h.host, h.here, h.line, h.plain⟩, by decide, by decide⟩, sBoot 4, 0x30, 0x25, by decide⟩

/-- The upcall ring on, and a coil that stands at a park. -/
def sPark (role : Nat) (p : Park) : State := ((scal role []).setRegN aUpcCfg 0x26).updPath root0 (fun q => { q with park := p })
def sUp : State := { sPark 4 (.upcall none 5) with upcalls := [(9, { kind := 1, service := 2, waiter := some root0 })] }
theorem sUp_at : (sUp.issuerAt root0).isSome = true := by decide
def sFl : State := { sPark 4 (.fault [(9, 1)] false 0 0 []) with
  faults := [(9, { asid := 0, page := 4, kind := .read, cause := 1, waiters := [.path root0 1], count := 1 })] }
theorem sFl_at : (sFl.issuerAt root0).isSome = true := by decide
def sTr (t : TrapInfo) : State := { sPark 4 (.trap t (some 9) none) with traps := [(9, root0)] }
def sTrLane (t : TrapInfo) : State :=
  { (sLane 4 0xFF000000).updPath root0 (fun q => { q with park := .trap t (some 9) none }) with traps := [(9, root0)] }
def tScalar : TrapInfo := { cause := .poison, insn := 0x68000002 }
def tLane : TrapInfo := { cause := .translation, stream := 1, memory := true, active := 0xFF, laneMask := 1 }
def tSeveral : TrapInfo := { cause := .splitDeadlock }
theorem sTr1_at : ((sTr tScalar).issuerAt root0).isSome = true := by decide
theorem sTr2_at : ((sTrLane tLane).issuerAt root0).isSome = true := by decide
theorem sTr2_runs : (((sTrLane tLane).issuerAt root0).get sTr2_at).strand.running.isSome = true := by decide
theorem sTr3_at : ((sTr tSeveral).issuerAt root0).isSome = true := by decide
theorem witness_UpcallsAndTraps :
    (∃ (s : State) (u : UpcallReq), u.waiter = none ∧ u.trap = none ∧ u.kind ≠ 1 ∧ u.kind ≠ 3 ∧ bit (s.regN aUpcCfg) 5 = true ∧
      (s.regF aUpcWr 31 0 + 2 ^ 32 - s.regF aUpcRd 31 0) % 2 ^ 32 < 2 ^ s.regF aUpcCfg 4 0 ∧
      PlainRun s (s.regF aUpcBase 63 6 * 64 + 64 * (s.regF aUpcWr 31 0 % 2 ^ s.regF aUpcCfg 4 0)) 64 ∧ bit (State.reset.regN aUpcCfg) 5 = false ∧
      Dict.find? s.upcalls 8 = none ∧ Dict.find? s.faults 8 = none ∧ Dict.find? s.traps 8 = none) ∧
    (∃ (s : State) (u : UpcallReq) (x : Issuer), Dict.find? s.upcalls (9 : W32).toNat = some u ∧ u.waiter = some x.id ∧
      s.issuerAt x.id = some x ∧ x.path.park = .upcall none 5 ∧ x.coil.residency = .resident ∧
      s.inCarve (s.regF aUpcBase 63 6 * 64 + 64 * ((9 : W32).toNat % 2 ^ s.regF aUpcCfg 4 0)) = false) ∧
    (∃ (s : State) (f : FaultRec) (x : Issuer), Dict.find? s.faults (9 : W32).toNat = some f ∧ f.waiters = [.path x.id 1] ∧ s.issuerAt x.id = some x ∧
      x.coil.residency = .resident ∧ x.path.park = .fault [((9 : W32).toNat, 1)] false 0 0 []) ∧
    (∃ (s : State) (x : Issuer) (t : TrapInfo), TrapWaits s x 9 t ∧ t.stream = 0 ∧ t.deferred = false ∧ ¬ ofSeveral t.cause ∧
      x.coil.residency = .resident ∧ x.bolt.killed = none ∧ ∀ e ∈ s.coils, e.2.bolt = x.coil.bolt → e.1 = x.id.coil) ∧
    (∃ (s : State) (x : Issuer) (t : TrapInfo) (r : Running), TrapWaits s x 9 t ∧ t.stream = 1 ∧ t.deferred = false ∧ ¬ ofSeveral t.cause ∧
      t.memory = true ∧ x.strand.running = some r ∧ r.course.path = x.id.path) ∧
    ∃ (s : State) (x : Issuer) (t : TrapInfo), TrapWaits s x 9 t ∧ ofSeveral t.cause :=
  ⟨⟨sUp, { kind := 5 }, by decide, by decide, by decide, by decide, by decide, by decide, calm_run _ _ (by decide), by decide⟩,
   ⟨sUp, { kind := 1, service := 2, waiter := some root0 }, (sUp.issuerAt root0).get sUp_at, by decide, by decide, (Option.some_get _).symm,
    by decide, by decide, by decide⟩,
   ⟨sFl, { asid := 0, page := 4, kind := .read, cause := 1, waiters := [.path root0 1], count := 1 }, (sFl.issuerAt root0).get sFl_at, by decide,
    by decide, (Option.some_get _).symm, by decide, by decide⟩,
   ⟨sTr tScalar, ((sTr tScalar).issuerAt root0).get sTr1_at, tScalar, ⟨by decide, (Option.some_get _).symm, by decide, by decide⟩, by decide, by decide,
    by unfold ofSeveral; decide, by decide, by decide, by decide⟩,
   ⟨sTrLane tLane, ((sTrLane tLane).issuerAt root0).get sTr2_at, tLane, (((sTrLane tLane).issuerAt root0).get sTr2_at).strand.running.get sTr2_runs,
    ⟨by decide, (Option.some_get _).symm, by decide, by decide⟩, by decide, by decide, by unfold ofSeveral; decide, by decide, (Option.some_get _).symm, by decide⟩,
   sTr tSeveral, ((sTr tSeveral).issuerAt root0).get sTr3_at, tSeveral, ⟨by decide, (Option.some_get _).symm, by decide, by decide⟩, by unfold ofSeveral; decide⟩

/-- The firmware's side of a queue whose worker stands at a packet. -/
def cq0 : CmdQueue :=
  { prio := 0, paused := false, interval := 250, frames := [], worker := true, wait := none, launch := none, waitingFault := false, dataFault := false
    mirrorDue := false, skip := 0, starved := none, closing := false, begun := false, executed := 0 }
/-- Queue 2: shadow half at 128, ring at 0x1000 with some words, user half at 0x40, CTL, STATE. -/
def sQu (c : CmdQueue) (ctl st : Nat) (words user : List Nat) : State :=
  let half := toBytes 8 0x1000 ++ toBytes 8 0x40 ++ [0, 0, 10] ++ toBytes 1 ctl ++ toBytes 4 st ++ toBytes 4 0 ++ toBytes 4 16
  { (((scal 4 []).poke 128 half false).poke 0x1000 (words.flatMap (toBytes 8)) false).poke 0x40 (user.flatMap (toBytes 4)) false with queues := [(2, c)] }
def sPk (words : List Nat) : State := sQu cq0 0x17 1 words [16]
/-- R93: a worker may act on what it has fetched ahead of a store that changes the words. -/
theorem test_fetched_ahead : ((((sPk [0x100]).fetchAhead 2).poke 0x1000 (toBytes 8 0x107) false).queueRead 2 0x1000 false []).1 = some 0x100 ∧
    (((sPk [0x100]).poke 0x1000 (toBytes 8 0x107) false).queueRead 2 0x1000 false []).1 = some 0x107 := by decide +kernel
theorem packetAt {op : Nat} {l : List Nat} (h1 : (sPk l).mayBegin 2 cq0 = true)
    (h2 : bits (l.getD 0 0) 7 0 = op ∧ bits (l.getD 0 0) 15 12 = 0 ∧ bits (l.getD 0 0) 11 8 = l.length)
    (h3 : 1 ≤ l.length ∧ l.length ≤ 8 ∧ (op ≠ 0 → packetLen op = some l.length)) (h4 : l.length ≤ 2 ^ 32)
    (h5 : (sPk l).queueRead 2 ((sPk l).wordVa 2 [] 0) false [packetEvent 2 op] = (some (l.getD 0 0), sPk l)) (h6 : l.length ≤ (sPk l).wordsLeft 2 [])
    (h7 : (sPk l).queueReads 2 false [packetEvent 2 op] ((upFrom 1 (l.length - 1)).map ((sPk l).wordVa 2 [])) = (some (l.drop 1), sPk l)) :
    PacketAt (sPk l) (sPk l) 2 op cq0 l := ⟨rfl, rfl, ⟨rfl, rfl, rfl, rfl⟩, h1, h2, h3, h4, ⟨sPk l, h5, h6, h7⟩, rfl⟩
theorem witness_Packets :
    (∃ (s s1 : State) (l : List Nat), PacketAt s s1 2 0 cq0 l ∧ cq0.frames = [] ∧ PlainRun s (s.shadowAt 2) 64) ∧
    (∃ (s s1 : State) (w a : Nat), PacketAt s s1 2 1 cq0 [w, a] ∧ bits w 63 48 = 0 ∧ bits w 31 18 = 0 ∧ a % 64 = 0 ∧ bit w 16 = true ∧ bit (s1.qCtl 2) 4 = true) ∧
    (∃ (s s1 : State) (w a : Nat), PacketAt s s1 2 2 cq0 [w, a] ∧ bits w 63 36 = 0 ∧ bits w 35 16 ≠ 0 ∧ a % 8 = 0 ∧ depthOf cq0.frames < 2) ∧
    (∃ (s s1 : State) (w a r : Nat), PacketAt s s1 2 3 cq0 [w, a, r] ∧ bits w 63 32 = 0 ∧ bits w 23 19 = 0 ∧ bits w 18 16 ≤ 5 ∧ bits w 31 24 ≠ 0 ∧
      a % 8 = 0 ∧ (s1.began 2 [w, a, r]).queueRead 2 a true [.predicate 2] = (some 0, s1.began 2 [w, a, r])) ∧
    (∃ (s s1 : State) (w : Nat), PacketAt s s1 2 4 cq0 [w] ∧ bits w 63 45 = 0 ∧ 1 ≤ bits w 44 32 ∧ bits w 44 32 ≤ 4096 ∧ bits w 31 16 ≠ 0) ∧
    (∃ (s s1 : State) (w a r : Nat), PacketAt s s1 2 5 cq0 [w, a, r] ∧ bits w 63 18 = 0 ∧ bits w 17 16 ≠ 3 ∧ a % 8 = 0 ∧
      (s1.began 2 [w, a, r]).queueRead 2 a true [.waitPacket 2] = (some 0, s1.began 2 [w, a, r])) ∧
    ∃ (s s1 : State) (w : Nat), PacketAt s s1 2 7 cq0 [w] ∧ bits w 63 12 = 0 :=
  ⟨⟨_, _, _, packetAt (l := [0x300, 5, 6]) (by decide) (by decide) (by decide) (by decide) (by decide +kernel) (by decide) (by decide +kernel), rfl, calm_run _ _ (by decide)⟩,
   ⟨_, _, _, _, packetAt (l := [0x10201, 0x1800]) (by decide) (by decide) (by decide) (by decide) (by decide +kernel) (by decide) (by decide +kernel), by decide⟩,
   ⟨_, _, _, _, packetAt (l := [0x40202, 0x1800]) (by decide) (by decide) (by decide) (by decide) (by decide +kernel) (by decide) (by decide +kernel), by decide⟩,
   ⟨_, _, _, _, _, packetAt (l := [0x5050303, 0x1800, 7]) (by decide) (by decide) (by decide) (by decide) (by decide +kernel) (by decide) (by decide +kernel), by decide⟩,
   ⟨_, _, _, packetAt (l := [0x100000020104]) (by decide) (by decide) (by decide) (by decide) (by decide +kernel) (by decide) (by decide +kernel), by decide⟩,
   ⟨_, _, _, _, _, packetAt (l := [0x20305, 0x1800, 7]) (by decide) (by decide) (by decide) (by decide) (by decide +kernel) (by decide) (by decide +kernel), by decide⟩,
   _, _, _, packetAt (l := [0x107]) (by decide) (by decide) (by decide) (by decide) (by decide +kernel) (by decide) (by decide +kernel), by decide⟩
def sSig : State := sPk [0x500306, 0x1800, 7]
theorem sig_at : PacketAt sSig sSig 2 6 cq0 [0x500306, 0x1800, 7] :=
  packetAt (by decide) (by decide) (by decide) (by decide) (by decide +kernel) (by decide) (by decide +kernel)
def sigS : State := sSig.began 2 [0x500306, 0x1800, 7]
theorem sig_place : sigS.placeWrites (sSig.qWho 2) [{ kind := .atomic, va := 0x1800, size := 8, watch := false, pcieAtomic := false }] = (.ok [.mem 0x1800], sigS) ∧
    sigS.qWho 2 = sSig.qWho 2 ∧ calm sigS = true ∧ sigS.memPoison 0x1800 8 = false := by decide +kernel
theorem witness_PacketsSignal :
    ∃ (s s1 : State) (w a v : Nat), PacketAt s s1 2 6 cq0 [w, a, v] ∧ bits w 63 32 = 0 ∧ bit w 19 = false ∧ bits w 17 16 ≠ 3 ∧
      (bit w 20 = true → 2 ≤ bits w 31 21) ∧ a % 8 = 0 ∧ v < 2 ^ 64 ∧ (bit w 18 = true → ∀ b ∈ s1.bolts, b.2.queue ≠ 2) ∧
      (s1.began 2 [w, a, v]).placeWrites (s.qWho 2) [{ kind := .atomic, va := a, size := 8, watch := false, pcieAtomic := false }] = (.ok [.mem 0x1800], s1.began 2 [w, a, v]) ∧
      (s1.began 2 [w, a, v]).qWho 2 = s.qWho 2 ∧ PlainRun (s1.began 2 [w, a, v]) 0x1800 8 ∧ (s1.began 2 [w, a, v]).memPoison 0x1800 8 = false :=
   ⟨sSig, sSig, 0x500306, 0x1800, 7, sig_at, by decide, by decide,
    by decide, by decide, by decide, by decide, by decide, sig_place.1, sig_place.2.1, calm_run (s := sigS) _ _ sig_place.2.2.1, sig_place.2.2.2⟩
def cqWait : CmdQueue := { cq0 with worker := false, wait := some (0, 250), begun := true, words := [0x20305, 0x1800, 7] }
theorem witness_PacketsWait : ∃ (s s2 : State) (w : Nat) (c c1 : CmdQueue), s.queue? 2 = some c ∧ c.wait = some (0, 250) ∧ c.waitingFault = false ∧ s.halted = false ∧
    c.words = [w, 0x1800, 7] ∧ s.queueRead 2 0x1800 true [.waitPacketPoll 2] = (some 0, s2) ∧ s2.queue? 2 = some c1 :=
  let s := sQu cqWait 0x17 1 [0x20305, 0x1800, 7] [16]
  ⟨s, s, 0x20305, cqWait, cqWait, by decide⟩

/-- A descriptor of one strand of 16 lanes in a grid of one. -/
def desc0 (layout : Nat) : List Byte :=
  toBytes 8 0x1000 ++ toBytes 8 0x2000 ++ toBytes 8 0 ++ [1, 0, 0, 0, 1, 0, 1, 0] ++ toBytes 1 layout ++ [1, 0, 0, 16, 16, 0, 0, 1, 0, 0, 0, 0] ++
    List.replicate 19 0
def sDesc (layout : Nat) : State := (sQu { cq0 with launch := some (0x1800, false) } 0x17 1 [0x201, 0x1800] [16]).poke 0x1800 (desc0 layout) false
def sScan (user : List Nat) : State := (sQu { cq0 with worker := false } 0x17 1 [0x100] user).setRegN aQrcCfg (2 ^ 12 + 4 * 2 ^ 32)
def sClosed : State := (((scal 4 []).setRegN aQrcCfg (4 * 2 ^ 32)).poke 128 (toBytes 8 0x2000 ++ toBytes 8 0x40 ++ [0, 0, 10, 7]) false).poke 0 (toBytes 8 (2 ^ 63)) false
theorem witness_QueueEngine :
    (∃ (s s1 : State) (c : CmdQueue) (l : List Byte), s.queue? 2 = some c ∧ s.qState 2 = 1 ∧ bit (s.regN aQrcCfg) 12 = true ∧ s.halted = false ∧
      c.userFault = false ∧ s.readFor (s.qWho 2) (.queue 2) .current { kind := .read, va := s.qUhalf 2, size := 64, watch := false, align := 1 } =
        (.data l false, s1) ∧ s1.queue? 2 = some c ∧ bit (s1.regN aFabReplay) 0 = false ∧ bits (recN l 4 1) 7 3 = 0 ∧ bits (recN l 5 1) 7 1 = 0 ∧
      recN l 6 2 = 0 ∧ recN l 14 50 = 0 ∧ (recN l 0 4 + 2 ^ 32 - s1.qRd 2) % 2 ^ 32 ≤ 2 ^ s1.qLog2 2 ∧
      (recN l 0 4 + 2 ^ 32 - s1.qLast 2) % 2 ^ 32 ≤ (recN l 0 4 + 2 ^ 32 - s1.qRd 2) % 2 ^ 32 ∧ PlainRun s1 (s1.shadowAt 2) 64) ∧
    (∃ (s s1 : State) (l : List Byte), s.readFor (s.qWho 2) (.queue 2) .current { kind := .read, va := s.qUhalf 2, size := 64, watch := false, align := 1 } =
        (.data l false, s1) ∧ bits (recN l 4 1) 7 3 ≠ 0) ∧
    (∃ (s : State) (c : CmdQueue), s.halted = false ∧ (s.queues.filter (fun e => e.2.worker)).length < 8 ∧ s.queue? 2 = some c ∧ s.ready 2 c = true ∧
      ∀ e ∈ s.queues, s.ready e.1 e.2 = true → e.1 = 2 ∨ e.2.prio < c.prio) ∧
    (∃ (s s1 : State) (c : CmdQueue) (l : List Nat) (d : Desc), s.queue? 2 = some c ∧ c.launch = some (0x1800, false) ∧ s.halted = false ∧ c.waitingFault = false ∧
      s.queueReads 2 true [.launchAccept 2] ((upFrom 0 8).map (fun j => ((0x1800 : W64).toNat + 8 * j) % 2 ^ 64)) = (some l, s1) ∧
      parseDesc (l.flatMap (toBytes 8)) 0x1800 = some d ∧ d.cores = false) ∧
    (∃ (s s1 : State) (l : List Nat), s.queueReads 2 true [.launchAccept 2] ((upFrom 0 8).map (fun j => ((0x1800 : W64).toNat + 8 * j) % 2 ^ 64)) = (some l, s1) ∧
      parseDesc (l.flatMap (toBytes 8)) 0x1800 = none) ∧
    (∃ (s : State), s.qrcPending = false ∧ 2 < s.regF aQrcCfg 44 32 ∧ s.qState 2 = 0 ∧ s.qLog2 2 = 10 ∧ PlainRun s (s.shadowAt 2) 64 ∧ s.qRing 2 % (8 * 2 ^ 10) = 0 ∧
      s.qUhalf 2 % 64 = 0 ∧ bits (s.qCtl 2) 7 5 = 0 ∧ s.shF 2 22 2 = 0 ∧ s.shF 2 37 3 = 0 ∧ s.shF 2 48 16 = 0 ∧ s.asidLive (s.qAsid 2) = true) ∧
    (∃ (s : State) (c : CmdQueue), s.qrcPending = false ∧ 2 < s.regF aQrcCfg 44 32 ∧ s.qState 2 ≠ 0 ∧ s.queue? 2 = some c ∧ c.launch = none ∧ c.begun = false) ∧
    ∃ (s : State) (c : CmdQueue), s.qrcPending = false ∧ 2 < s.regF aQrcCfg 44 32 ∧ s.qState 2 ≠ 0 ∧ s.queue? 2 = some c ∧ c.launch ≠ none :=
  ⟨⟨sScan [17], sScan [17], { cq0 with worker := false }, toBytes 64 17, by decide, by decide, by decide, by decide, by decide, by decide +kernel, by decide, by decide,
    by decide, by decide, by decide, by decide, by decide, by decide, calm_run _ _ (by decide)⟩,
   ⟨sScan [17, 8], sScan [17, 8], toBytes 64 (17 + 8 * 2 ^ 32), by decide +kernel⟩,
   ⟨sScan [17], { cq0 with worker := false }, by decide⟩,
   ⟨sDesc 0, sDesc 0, { cq0 with launch := some (0x1800, false) }, (upFrom 0 8).map (fun j => (sDesc 0).peekN (0x1800 + 8 * j) 8),
    (parseDesc (desc0 0) 0x1800).get (by decide), by decide, by decide, by decide, by decide, by decide, by decide, by decide⟩,
   ⟨sDesc 3, sDesc 3, (upFrom 0 8).map (fun j => (sDesc 3).peekN (0x1800 + 8 * j) 8), by decide⟩,
   ⟨sClosed, by decide, by decide, by decide, by decide, calm_run _ _ (by decide), by decide⟩,
   ⟨sScan [17], { cq0 with worker := false }, by decide⟩, (sDesc 0).setRegN aQrcCfg (4 * 2 ^ 32), { cq0 with launch := some (0x1800, false) }, by decide⟩

/-- One Hamper and one save slot; bolt 0 has a coil on it, and bolt 1, of priority 1, waits for the whole scratchpad or for little of it. -/
def boltB (scratch : Nat) : Bolt :=
  { queue := 0, asid := 0, desc := { probeDesc 4 with scratch := scratch, acc := 0, cbslot := 0 }, snap := none, order := 1, prio := 1, nextCoil := 0, endedCoils := 0, killed := none }
def sOne (scratch : Nat) : State :=
  let s := (((scal 4 []).setRegN aModUnits 1).setRegN aCtxCfg 1).setRegN aPreempt 1000
  { s with boltOrder := 2, placements := 1, bolts := s.bolts ++ [(1, boltB scratch)] }
/-- The coil of bolt 0 otherwise. -/
def sCoil (f : Coil → Coil) : State := (sOne 480).updCoil 0 f
theorem one_at (f : Coil → Coil) (h : ((sCoil f).coilBolt? 0).isSome = true) : (sCoil f).coilBolt? 0 = some (((sCoil f).coilBolt? 0).get h) :=
  (Option.some_get h).symm
theorem sOne_here : ((sOne 480).coilBolt? 0).isSome = true := by decide
def cOne : Coil := ((sOne 480).coilBolt? 0 |>.get sOne_here).1
def bOne : Bolt := ((sOne 480).coilBolt? 0 |>.get sOne_here).2
theorem pick_some {s : State} {d : Desc} (h : (s.sites d).filter (fun h => siteFit s.freeOn d h != 0) ≠ []) : ∃ k, s.pickSite d = some k := by
  unfold State.pickSite
  have hl : 0 < ((s.sites d).filter (fun h => siteFit s.freeOn d h != 0)).length := List.length_pos_iff.mpr h
  exact ⟨_, List.getElem?_eq_getElem (Nat.mod_lt _ hl)⟩
theorem witness_PlacementOfNext : ∃ (s : State) (b : Bolt), s.halted = false ∧ s.waiting.find? (fun e => s.fitsNow e.2) = some (1, .next 1) ∧
    Dict.find? s.bolts 1 = some b ∧ ∃ h, s.pickSite b.desc = some h :=
  ⟨sOne 64, boltB 64, by decide, by decide +kernel, by decide, pick_some (by decide +kernel)⟩
def cSaved (n : Nat) : Coil := { cOne with residency := .saved 0 n, granules := [], image := List.replicate 1024 (0, false) }
def sSaved (n : Nat) : State := { (sOne 480).updCoil 0 (fun _ => cSaved n) with slots := [0], bolts := [(0, bOne)] }
theorem saved_at : (sSaved 1).coilBolt? 0 = some (cSaved 1, bOne) := by decide +kernel
theorem witness_PlacementOfSaved : ∃ (s : State) (c : Coil) (b : Bolt), s.halted = false ∧ s.waiting.find? (fun e => s.fitsNow e.2) = some (0, .coil 0) ∧
    s.coilBolt? 0 = some (c, b) ∧ c.waits = true ∧ b.desc.cores = false ∧ s.fitAll s.freeOn b.desc 1 = true ∧ (∃ h, s.pickSite b.desc = some h) ∧
    c.residency = .saved 0 1 ∧ s.contextSound c b.desc = true ∧ (∃ e ∈ s.waiting, e.2 = .coil 0) ∧ (∀ st ∈ c.strands, st.root.park = .running ∧ st.entries = []) ∧ 512 + 512 * c.strands.length ≤ c.image.length :=
  ⟨sSaved 1, cSaved 1, bOne, by decide, by decide +kernel, saved_at, by decide, by decide, by decide +kernel, pick_some (by decide +kernel), rfl, by decide +kernel,
   ⟨(0, .coil 0), by decide +kernel, rfl⟩, by decide, by decide +kernel⟩
theorem one_resident : Resident (sOne 480) 0 cOne bOne := ⟨(Option.some_get sOne_here).symm, by decide, by decide, by decide⟩
theorem witness_Preemption : ∃ (s : State) (d : Desc) (c : Coil) (b : Bolt), s.halted = false ∧ s.regF aCtxCfg 15 0 ≠ 0 ∧ s.roomComing = false ∧
    s.waiting.find? (fun e => !s.fitsNow e.2) = some (1, .next 1) ∧ s.waitingDesc (.next 1) = some (d, 1) ∧ s.stopUntil d 1 [] (s.victims 1) = some [0] ∧
    1 ≤ s.freeSlots ∧ s.coil? 0 = some c ∧ c.residency = .resident ∧ Resident s 0 c b ∧ s.regF aPreempt 31 0 ≠ 0 ∧
    (∃ e ∈ s.waiting, b.prio ≤ e.1 ∧ s.fitsNow e.2 = false) ∧ (scal 4 []).regF aPreempt 31 0 = 0 :=
  ⟨sOne 480, (boltB 480).desc, cOne, bOne, by decide, by decide, by decide, by decide +kernel, by decide, by decide +kernel, by decide, by decide, by decide,
   one_resident, by decide, ⟨(1, .next 1), by decide +kernel, by decide, by decide +kernel⟩, by decide⟩
theorem stopping_at (n : Nat) : (sCoil (fun c => { c with residency := .stopping n })).coilBolt? 0 = some ({ cOne with residency := .stopping n }, bOne) := rfl
theorem witness_Saving : (∃ (s s1 : State) (c : Coil) (b : Bolt), s.coilBolt? 0 = some (c, b) ∧ c.residency = .stopping 1 ∧ s.drainFor 0 b.asid = s1 ∧
      s1.quiet 0 c b.asid 1 = true ∧ s1.openSlot = some 0 ∧ s1.coil? 0 = some c) ∧
    (∃ (s s1 : State) (c : Coil) (b : Bolt), s.coilBolt? 0 = some (c, b) ∧ c.residency = .stopping 5 ∧ s.drainFor 0 b.asid = s1 ∧ s1.quiet 0 c b.asid 5 = true) ∧
    ∃ (s s1 : State) (c : Coil) (b : Bolt), s.coilBolt? 0 = some (c, b) ∧ c.residency = .stopping 0 ∧ s.drainFor 0 b.asid = s1 ∧ s1.quiet 0 c b.asid 0 = false :=
  let s (n : Nat) : State := sCoil (fun c => { c with residency := .stopping n })
  ⟨⟨s 1, s 1, { cOne with residency := .stopping 1 }, bOne, stopping_at 1, rfl, rfl, by decide, by decide, rfl⟩,
   ⟨s 5, s 5, { cOne with residency := .stopping 5 }, bOne, stopping_at 5, rfl, rfl, by decide⟩,
   { s 0 with copies := [(9, { p := root0, lane := 0, dst := 0, bytes := [], poison := [] })] }, { s 0 with copies := [(9, { p := root0, lane := 0, dst := 0, bytes := [], poison := [] })] },
   { cOne with residency := .stopping 0 }, bOne, stopping_at 0, rfl, rfl, by decide⟩
def sWatch : State :=
  let s := sCoil (fun c => { c with insnUsed := 65536, wallUsed := 9 })
  { s with bolts := Dict.upd s.bolts 0 (fun b => { b with desc := { b.desc with insnBudget := 1, wallUs := 9 } }) }
theorem sWatch_here : (sWatch.coilBolt? 0).isSome = true := by decide
theorem witness_Watchdogs : (∃ (s : State) (c : Coil) (b : Bolt), Resident s 0 c b ∧ s.openSlot ≠ none ∧ b.desc.insnBudget ≠ 0 ∧
      b.desc.insnBudget * 2 ^ 16 ≤ c.insnUsed ∧ b.desc.wallUs ≠ 0 ∧ b.desc.wallUs ≤ c.wallUsed ∧ .watchdogInsnExpiry 0 ∉ s.agenda) ∧
    (∃ (s : State) (c : Coil) (b : Bolt), Resident s 0 c b ∧ b.desc.insnBudget = 0 ∧ b.desc.wallUs = 0 ∧ b.desc.trapKill = false) ∧
    (∃ (s : State) (c : Coil) (b : Bolt), s.coilNamed (s.regN aCoilBolt) (s.regN aCoilPos) = some (0, c) ∧ c.residency = .saved 0 3 ∧ c.debugStop = false ∧
      Dict.find? s.bolts c.bolt = some b ∧ b.killed = none) ∧
    State.reset.coilNamed (State.reset.regN aCoilBolt) (State.reset.regN aCoilPos) = none :=
  ⟨⟨sWatch, (sWatch.coilBolt? 0 |>.get sWatch_here).1, (sWatch.coilBolt? 0 |>.get sWatch_here).2,
    ⟨(Option.some_get sWatch_here).symm, by decide, by decide, by decide⟩, by decide⟩,
   ⟨sOne 480, cOne, bOne, one_resident, by decide⟩, ⟨sSaved 3, cSaved 3, bOne, by decide +kernel⟩, by decide⟩

/-- Paths parked in waits. -/
theorem parkW_at : ((sPark 4 (.waitMem 0x1800 7 2)).issuerAt root0).isSome = true := by decide
theorem parkC_at : ((sPark 1 (.cpWait 0x1800 0xF 5 0)).issuerAt root0).isSome = true := by decide
theorem parkT_at : ((sPark 4 (.twait 11 false 7 none 5)).issuerAt root0).isSome = true := by decide
def sTurns : State := { scal 4 [] with turn := none }
theorem witness_PathEvents : (∃ s : State, s.candidates 0 0 = []) ∧
    (∃ (s : State) (r : Rotation) (e : Nat × Issuer), (∀ a ∈ s.candidates 0 0, a.2.path.park = .running ∧ a.2.coil.issues = true ∧ a.2.coil.stepOnly = none) ∧
      Tab.get Rotation.start s.rotations (4 * 0 + 0) = r ∧ (∀ a ∈ s.candidates 0 0, a.1 + 1 = r.last → a.2.strand.urgent = false) ∧
      (s.candidates 0 0).find? (fun a => decide (r.last ≤ a.1)) = some e) ∧
    (∃ (s : State) (c : Coil), s.coil? 0 = some c) ∧
    (∃ (s : State) (x : Issuer), MayStop s x ∧ x.coil.residency = .resident ∧ x.path.park = .running ∧
      ∀ e ∈ x.strand.longs, e.2.path = x.id.path → e.2.pos ≠ 255) ∧
    (∃ (s : State) (x : Issuer), s.issuerAt x.id = some x ∧ x.path.park = .waitMem 0x1800 7 2 ∧ x.coil.issues = true ∧
      let acc : Acc := { kind := .read, va := (0x1800 : W64).toNat, size := 8, l2 := x.acts 2 }
      let s2 := s.ordered x.hamper false false [(0, acc, .mem 0x1800)]
      s.judge x.who acc = (.ok (.mem 0x1800), s) ∧ s2.refuses (.mem 0x1800) .read = false ∧
      (s2.load .current (some x.coil) (.mem 0x1800) 8).2 = false ∧ ofBytes (s2.load .current (some x.coil) (.mem 0x1800) 8).1 < 2 ^ 64) ∧
    (∃ (s : State) (x : Issuer), s.issuerAt x.id = some x ∧ x.path.park = .cpWait 0x1800 0xF 5 0 ∧ x.coil.issues = true ∧
      Plain s 0x1800 8 ∧ Plain s (0x1800 + 8) 8 ∧
      let accD : Acc := { kind := .read, va := (0x1800 : W64).toNat, size := 8, align := 32, l2 := false }
      let accE : Acc := { kind := .read, va := ((0x1800 : W64) + 8).toNat, size := 8 }
      let p := placeAt x false 0x1800
      let ps : List (Nat × Acc × Place) := [(0, accD, p), (0, accE, .l1 x.hamper (0x1800 + 8))]
      let s2 := s.ordered x.hamper false false ps
      OttRoom s x ps ∧ s.judge x.who accD = (.ok p, s) ∧ s.judge x.who accE = (.ok (.l1 x.hamper (0x1800 + 8)), s) ∧
      (s2.load x.view (some x.coil) p 8).2 = false ∧ ((s2.afterLoad p 8).load x.view (some x.coil) (.l1 x.hamper (0x1800 + 8)) 8).2 = false) ∧
    ∃ (s : State) (x : Issuer), s.issuerAt x.id = some x ∧ x.path.park = .twait 11 false 7 none 5 ∧ x.coil.issues = true ∧ (11 : BitVec 4) ≠ 0 ∧
      s.twaitNow x (11 : BitVec 4).toNat 7 none = false := by
  refine ⟨⟨State.reset, by decide⟩, ⟨sTurns, Rotation.start, ((sTurns.candidates 0 0).find? (fun a => decide (Rotation.start.last ≤ a.1))).get (by decide),
      by decide, rfl, by decide, (Option.some_get _).symm⟩, ⟨sTurns, (sTurns.coil? 0).get (by decide), (Option.some_get _).symm⟩,
    ⟨sA, xA, mayStop_of (by decide) (by decide) (by decide) (by decide), by decide, by decide, by decide⟩,
    ⟨_, (State.issuerAt _ root0).get parkW_at, (Option.some_get _).symm, by decide, by decide, by decide, by decide, by decide, by decide⟩,
    ⟨_, (State.issuerAt _ root0).get parkC_at, (Option.some_get _).symm, by decide, by decide, calm_plain _ _ (by decide) (by decide),
      calm_plain _ _ (by decide) (by decide), by unfold OttRoom; decide +kernel⟩,
    _, (State.issuerAt _ root0).get parkT_at, (Option.some_get _).symm, by decide, by decide, by decide, by decide⟩

/-- Translation through the probe's entries; a fault queue that is on; banks that change. -/
def sMemE : State := (((scal 4 []).setRegN aFltCfg 0x26).poke 0 (toBytes 8 0) false).setRegN (aBankRole 0) (2 * 2 ^ 8)
/-- A page table of five levels: the root at 0x2000, each level's first entry points to the next, the last maps page 0x3000 to 0x7000. -/
def sWalk : State :=
  let pte (pa : Nat) (flags : Nat) : List Byte := toBytes 8 (pa / 4096 * 1024 + flags)
  let s := (((State.reset.poke 16 (toBytes 8 (2 ^ 63 + 2)) false).poke 0x2000 (pte 0x3000 1) false).poke 0x3000 (pte 0x4000 1) false).poke 0x4000 (pte 0x5000 1) false
  (s.poke 0x5000 (pte 0x6000 1) false).poke 0x6000 (toBytes 8 0 ++ pte 0x7000 0xDF) false
def sNoTlb : State := { sMemE with tlb := [] }
def sTwo : State := { sMemE with tlb := sMemE.tlb ++ sMemE.tlb.map (fun e => { e with level := .shared 1 }) }
theorem twoDies : ∀ d, d < 2 → (sTwo.tlbFind (.die d) 0 (0x1800 : W64).toNat .read).isSome = true := by decide
theorem witness_Walks : (∃ (s s1 : State) (va : W64) (pa : Nat), s.tlbFind s.walkUser 1 va.toNat .read = none ∧ s.walk s.walkUser 1 va.toNat .read = (.ok pa, s1) ∧ pa = 0x7010) ∧
    (∃ (s : State) (va : W64) (e : TlbEntry), s.tlbFind s.walkUser 0 va.toNat .read = some e) ∧
    ∃ (s s1 : State) (va : W64) (c l p : Nat), s.tlbFind s.walkUser 1 va.toNat .read = none ∧ s.walk s.walkUser 1 va.toNat .read = (.fail c l p, s1) ∧
      s1.faultKey 1 (va.toNat / 4096) .read = none ∧ bit (s1.regN aFltCfg) 5 = true ∧
      (s1.regF aFltWr 31 0 + 2 ^ 32 - s1.regF aFltRd 31 0) % 2 ^ 32 < 2 ^ s1.regF aFltCfg 4 0 ∧
      ∃ f : FaultRec, { s with faults := [(7, f)] }.faultKey 1 (va.toNat / 4096) .read = some (7, f) :=
  ⟨⟨sWalk, _, 0x1010, 0x7010, rfl, pair_of (by decide +kernel), rfl⟩,
   ⟨sTwo, 0x1800, (sTwo.tlbFind sTwo.walkUser 0 (0x1800 : W64).toNat .read).get (twoDies _ (Nat.mod_lt _ (by decide))), (Option.some_get _).symm⟩,
   sNoTlb, _, 0x4000, 2, 4, 16, rfl, pair_of (by decide +kernel), by decide +kernel, by decide +kernel, by decide +kernel,
   { asid := 1, page := 4, kind := .read, cause := 2, waiters := [], count := 1 }, by decide⟩
theorem witness_MemoryEvents : ∃ (s : State) (st : Strand), isCanonical 0x4000 ∧ s.role 0 4 ≠ s.wanted 0 4 ∧ s.mayLeave 0 4 = true ∧
    (s.role 1 4 = 0 ∧ 0x10000 / 16384 < 30) ∧ 0x1800 < s.memBytes ∧ s.strand? 0 0 = some st ∧
    (∃ u : State, u.role 0 0 ≠ u.wanted 0 0 ∧ u.mayLeave 0 0 = false) ∧ (0x79800 / 16384 = 30 ∧ 0x7C400 / 16384 = 31 ∧ 1024 ≤ 0x7C400 % 16384) ∧
    ∃ (u : State) (b : L1Block), u.l1At 0 (0x1800 / 512) = some b ∧ b.way = 0x79800 / 16384 ∧ b.base % 32 = 0x79800 % 16384 / 512 ∧
      0x1800 % 512 / 8 = 0x79800 % 512 / 8 ∧ b.holds (0x1800 % 512) = true ∧ u.role 0 5 = 1 :=
  ⟨sMemE, (sMemE.strand? 0 0).get (by decide), by unfold isCanonical; decide, by decide, by decide, by decide, by decide, (Option.some_get _).symm,
   ⟨(scal 4 []).setRegN (aBankRole 0) 2, by decide⟩, by decide, { (scal 4 []).l1Store 0 0x1800 [1] false with roles := [(5, 1)] },
   (((scal 4 []).l1Store 0 0x1800 [1] false).l1At 0 12).get (by decide +kernel), by decide +kernel⟩
/-- An L1 with two ways for the set of 0x1800: one superblock wholly stored, one fetched. -/
def sL1 : State := ((scal 4 []).l1Store 0 0x1800 (List.replicate 128 7) false).l1Touch 0 0x5800 8
theorem witness_CacheRules : ∃ (s : State) (x : Issuer) (v : L1Block), (∀ a, a / 128 = 0x30 → s.lineDirty x.hamper a) ∧ x.desc.pair = false ∧
    s.l1At 0 (0x9800 / 512) = none ∧
    (∀ w ∈ s.l1Ways 0 (0x9800 / 512 % 32), ∃ b ∈ s.l1, b.hamper = 0 ∧ b.base % 32 = 0x9800 / 512 % 32 ∧ b.way = w) ∧
    (s.l1.filter (fun b => b.hamper == 0 && b.base % 32 == 0x9800 / 512 % 32)).getLast? = some v ∧ v.base = 0x1800 / 512 := by
  have hd : ∀ c, c < 128 → ∃ b, sL1.l1At 0 ((0x1800 + c) / 512) = some b ∧ bit b.dirty ((0x1800 + c) % 512) = true := by decide +kernel
  refine ⟨sL1, xA, (sL1.l1.filter (fun b => b.hamper == 0 && b.base % 32 == 0x9800 / 512 % 32)).getLast?.get (by decide +kernel), ?_, by decide, by decide +kernel,
    by decide +kernel, (Option.some_get _).symm, by decide +kernel⟩
  intro a ha c hc
  have h : c = 0x1800 + (c - 0x1800) ∧ c - 0x1800 < 128 := by omega
  rw [h.1]
  exact hd _ h.2

/-- A debugger that names the coil of bolt 0, which one save slot waits for. -/
def sDbg (f : Coil → Coil) (cmd : Nat) : State := (((scal 4 []).setRegN aCtxCfg 1).setRegN aDbgCmd cmd).updCoil 0 f
theorem sDbg_at : ((sDbg id 0).coilBolt? 0).isSome = true := by decide
def cDbg : Coil := ((sDbg id 0).coilBolt? 0 |>.get sDbg_at).1
def bDbg : Bolt := ((sDbg id 0).coilBolt? 0 |>.get sDbg_at).2
def stopped (c : Coil) : Coil := { c with debugStop := true, residency := .saved 0 4 }
theorem dbg_names : DebugNames (sDbg id 0) 0 cDbg bDbg := ⟨by decide, by decide, by decide, by decide⟩
theorem dbg_names2 : DebugNames (sDbg stopped (15 * 2 ^ 24)) 0 (stopped cDbg) bDbg := ⟨by decide, by decide, by decide, by decide⟩
theorem stopped_one : ((stopped cDbg).strands[0]?).isSome = true := by decide
def sSample (drop : Nat) : State := { ((scal 4 []).setRegN aSmpCfg (2 ^ 40 + 2 ^ 32 + 6)).setRegN aSmpWr drop with turn := none }
def sTrace (block : List Byte) (lost : Nat) : State :=
  { State.reset with debugUnit := { Debug.reset with trace := [(0, { TraceState.start with block := block, lost := lost })] } }
theorem witness_DebugEvents : (∃ (s : State) (c : Coil) (b : Bolt), DebugNames s 0 c b ∧ s.regF aCtxCfg 15 0 ≠ 0 ∧ c.debugStop = false ∧ c.residency = .resident) ∧
    (State.reset.regF aCtxCfg 15 0 = 0 ∧ (State.reset.setRegN aCtxCfg 1).regF aCtxCfg 15 0 ≠ 0 ∧ bit ((State.reset.setRegN aCtxCfg 1).regN aDbgCmd) 8 = false ∧
      (State.reset.setRegN aCtxCfg 1).coilNamed 0 0 = none) ∧
    (∃ (s : State) (c : Coil) (b : Bolt) (st : Strand) (q : PathState), DebugNames s 0 c b ∧ c.debugStop = true ∧ c.residency = .saved 0 4 ∧ s.regF aDbgCmd 37 32 = 0 ∧
      s.regF aDbgCmd 27 24 = 15 ∧ c.strands[0]? = some st ∧ st.path? 15 = some q ∧ q.park = .running) ∧
    (∃ (s : State) (x : Issuer), bit (s.regN aSmpCfg) 32 = true ∧ s.candidates 0 0 = [(0, x)] ∧ (∀ q, 1 ≤ q → q < 4 → s.candidates 0 q = []) ∧
      bit (s.regN aSmpCfg) 40 = true ∧ PlainRun s (s.regF aSmpBase 63 12 * 4096 + 64 * (s.regF aSmpWr 31 0 % 2 ^ s.regF aSmpCfg 4 0)) 64 ∧
      (s.regF aSmpWr 31 0 + 2 ^ 32 - s.regF aSmpRd 31 0) % 2 ^ 32 < 2 ^ s.regF aSmpCfg 4 0 ∧
      2 ^ (sSample 64).regF aSmpCfg 4 0 ≤ ((sSample 64).regF aSmpWr 31 0 + 2 ^ 32 - (sSample 64).regF aSmpRd 31 0) % 2 ^ 32) ∧
    (∃ s : State, bit (s.regN aTrcCfg) 32 = true ∧ (s.traceOf 0).lost ≠ 0 ∧ s.traceFull 0 = false ∧ (s.traceOf 0).block = [] ∧ s.pathsOn 0 = []) ∧
    (∃ s : State, (s.traceOf 0).block ≠ [] ∧ (s.traceOf 0).block.length ≤ 64 ∧
      PlainRun s (s.regF aTrcBase 63 12 * 4096 + 0 * 2 ^ s.regF aTrcCfg 4 0 + s.regN (aTrcWr 0) % 2 ^ s.regF aTrcCfg 4 0) 64) := by
  have hs : ((sSample 0).issuerAt root0).isSome = true := by decide
  have hq : ∀ q, q < 4 → 1 ≤ q → (sSample 0).candidates 0 q = [] := by decide
  refine ⟨⟨_, _, _, dbg_names, by decide, by decide, by decide⟩, by decide,
    ⟨_, _, _, ((stopped cDbg).strands[0]?).get stopped_one, (((stopped cDbg).strands[0]?).get stopped_one).root, dbg_names2, by decide, by decide, by decide, by decide,
      (Option.some_get _).symm, by decide, by decide⟩,
    ⟨sSample 0, ((sSample 0).issuerAt root0).get hs, by decide, by rfl, fun q h1 h2 => hq q h2 h1, by decide, calm_run _ _ (by decide), by decide, by decide⟩,
    ⟨(sTrace [] 3).setRegN aTrcCfg (2 ^ 32 + 12), by decide +kernel⟩, sTrace [1, 2] 0, by decide, by decide, calm_run _ _ (by decide)⟩

/-- Ply memory with a carve-out of 2 GiB and one region, in which a coil's transaction has written a line; two snapshots. -/
def sPly (regions : Nat) (cfg : Nat) : State :=
  let s := ((scal 4 []).setRegN aPlyCfg cfg).setRegN (aPlyRgn 3) (regions * 2 ^ 63)
  let s := s.updCoil 0 (fun c => { c with txn := some txn1 })
  { s with ply := { s.ply with snaps := [(0, { stamp := 4, holders := 1, gen := 1, revoked := false }), (1, { stamp := 2, holders := 1, gen := 1, revoked := false })]
                               tents := [{ tag := 4, line := 5, va := 640, bytes := [], poison := [] }] } }
where txn1 : Txn := { tag := 4, snap := { stamp := 0, entry := 0, gen := 1 }, holds := true, aborted := none }
theorem witness_PlyEvents : (∃ (s : State) (value : W64), s.rgnValid 255 = false ∧ s.rgnFits 255 (rgnBits 255 value ||| 2 ^ 63) = true) ∧
    (∃ (s : State) (value : W64), s.rgnValid 0 = false ∧ s.rgnFits 0 (rgnBits 0 value ||| 2 ^ 63) = false) ∧
    (∃ (s : State) (c : Coil) (x : Txn) (p : Tentative), s.rgnValid 3 = true ∧ s.coil? 0 = some c ∧ c.txn = some x ∧ x.aborted = none ∧ p ∈ s.ply.tents ∧
      p.tag = x.tag ∧ s.rgnBase 3 / 128 ≤ p.line ∧ p.line < (s.rgnBase 3 + s.rgnSize 3) / 128) ∧
    ∃ (s : State) (e : SnapEntry), s.plyFree = 0 ∧ Oldest s 1 e ∧ s.plyFree < s.regF aPlyCfg 31 16 * 2 ^ 16 ∧ s.pick = s ∧ (sPly 0 1).plyFree ≠ 0 ∧
      (sPly 0 1).regF aPlyCfg 31 16 * 2 ^ 16 ≤ (sPly 0 1).plyFree :=
  ⟨⟨sPly 0 1, 0, by decide⟩, ⟨sPly 0 0, 0, by decide⟩,
   ⟨sPly 1 1, ((sPly 1 1).coil? 0).get (by decide), sPly.txn1, { tag := 4, line := 5, va := 640, bytes := [], poison := [] }, by decide⟩,
   sPly 0 (2 ^ 16), { stamp := 2, holders := 1, gen := 1, revoked := false }, by decide, ⟨by decide, by decide, by decide⟩, by decide, by decide, by decide,
   by decide⟩

/-- An operation of an engine for the coil of the probe. -/
def op0 (ctx : Nat) (k : OpKind) : EngineOp :=
  { coil := 0, strand := 0, path := 15, ctx := ctx, number := 1, half := 0, pc := 0x1000, word := 0, kind := k, faulted := false }
def sOp (role ctx : Nat) (k : OpKind) : State := { (scal role []).setRegN (aSwin 0) (2 ^ 21 + 2 ^ 16) with ops := [(4, op0 ctx k)], nextOp := 5 }
theorem op_here (role ctx : Nat) (k : OpKind) : ((sOp role ctx k).coilBolt? 0).isSome = true := by rfl
def cOp (role ctx : Nat) (k : OpKind) : Coil := ((sOp role ctx k).coilBolt? 0 |>.get (op_here role ctx k)).1
def bOp (role ctx : Nat) (k : OpKind) : Bolt := ((sOp role ctx k).coilBolt? 0 |>.get (op_here role ctx k)).2
theorem op_runs (role ctx : Nat) (k : OpKind) (h : (sOp role ctx k).opBlocked 4 (op0 ctx k) = false) :
    EngineRuns (sOp role ctx k) 4 (op0 ctx k) (cOp role ctx k) (bOp role ctx k) :=
  ⟨rfl, (Option.some_get (op_here role ctx k)).symm, rfl, List.cons_ne_nil 0 [], rfl, rfl, h⟩
def share0 : MmaShare := { strand := 0, a := 0x1000, sa := 64, m := 1, tile := 0, vsa := 0, bsa := 0, cba := 0 }
def mma0 : OpKind := .mma 8 false false [share0] 0x1100 64 1 2 0 0 0 0 0
/-- What the engine reads for the first K-step: three pieces of 16 bytes of each row. -/
def sixReads (bad : Bool) : List (List Byte × Bool) := List.replicate 6 (List.replicate 16 0, bad)
def sMma (bad : Bool) : State := { sOp 2 0 mma0 with poison := if bad then [(64, true), (68, true)] else [] }
def drainRegs : List W64 := [0x1000, 64, 0, 0, 0, 0, 0, 0]
def drain0 (done : Nat) : OpKind := .drain drainRegs 0x200 false false 0 done 0
theorem swin_of {s t : State} (h : t.regs = s.regs) (a : Nat) : t.swin a = s.swin a := by
  cases s; cases t; simp only at h; subst h; rfl
theorem regions_of {s t : State} (h : t.regs = s.regs) : t.regions = s.regions := by
  cases s; cases t; simp only at h; subst h; rfl
theorem regF_of {s t : State} (h : t.regs = s.regs) {a i j : Nat} : t.regF a i j = s.regF a i j := by
  cases s; cases t; simp only at h; subst h; rfl
theorem drain_judged (t : State) (ht : t.tlb = (sOp 2 0 (drain0 0)).tlb) (hr : t.regs = (sOp 2 0 (drain0 0)).regs) :
    ∀ u ∈ drainUnits (drainArgs drainRegs 0x200), t.judge ((op0 0 (drain0 0)).who (cOp 2 0 (drain0 0)) (bOp 2 0 (drain0 0)))
      { kind := .write, va := u.va, size := u.size, watch := false } = (.ok (.l1 ((cOp 2 0 (drain0 0)).hamper + 0) u.va), t) := by
  let e : TlbEntry := { asid := 0, vbase := 4096, size := 4096, pbase := 4096, r := true, w := true, x := true, dirty := true }
  intro u hu
  have h : ∀ u ∈ drainUnits (drainArgs drainRegs 0x200), inPeerWin u.va = false ∧ canonical (BitVec.ofNat 64 u.va) = true ∧ u.va % u.size = 0 ∧
      u.va < 2 ^ 21 ∧ 4096 ≤ u.va ∧ (sOp 2 0 (drain0 0)).tlb.find? (fun x => x.level == .micro 0 && x.serves 0 u.va .write) = some e ∧
      inRegSpace u.va = false ∧ inHostWin u.va = false := by decide +kernel
  obtain ⟨h1, h2, h3, h4, h5, h6, h7, h8⟩ := h u hu
  have hw : t.winOff 0 u.va = none := by
    have : t.swin 0 = some (2 ^ 21) := (swin_of hr 0).trans (by decide +kernel)
    simp only [State.winOff, this]
    rw [if_neg (by omega)]
  have hx : t.translate (.hamper 0) 0 u.va .write = (.ok u.va, t) := by
    have : t.tlbFind (.hamper 0) 0 u.va .write = some e := by simp [State.tlbFind, State.tlbLevels, ht, h6]
    have e1 : e.pbase + (u.va - e.vbase) = u.va := by show 4096 + (u.va - 4096) = u.va; omega
    simp only [State.translate, this, e1]
    rfl
  have hg : t.inRegion u.va = false := by
    have : t.regions = [] := (regions_of hr).trans (by decide +kernel)
    simp [State.inRegion, this]
  have hc : t.inCarve u.va = false := by
    have : t.regF aPlyCfg 6 0 = 0 := (regF_of hr).trans (by decide)
    simp only [State.inCarve, State.carveBase, this, Nat.zero_mul, Nat.sub_zero, Bool.and_eq_false_iff, decide_eq_false_iff_not, Nat.not_le, Nat.not_lt]
    omega
  have hwho : (op0 0 (drain0 0)).who (cOp 2 0 (drain0 0)) (bOp 2 0 (drain0 0)) =
    { asid := 0, coil := some (cOp 2 0 (drain0 0), (bOp 2 0 (drain0 0)).desc, 0), l1 := some 0, unit := .hamper 0 } := rfl
  have hh : (cOp 2 0 (drain0 0)).hamper + 0 = 0 := rfl
  rw [hwho, hh]
  simp [State.judge, State.stage1, State.stage2, h1, h2, h3, hw, hx, hg, hc, h7, h8]
theorem witness_MatrixEvents :
    (∃ (s s1 : State) (o : EngineOp) (c : Coil) (b : Bolt) (data : List (List Byte × Bool)), EngineRuns s 4 o c b ∧ o.kind = mma0 ∧
      s.readList (o.who c b) (.engine 4) .current (rowReads share0.a share0.sa share0.m 0 ++ rowReads 0x1100 64 1 0) = (.data data, s1) ∧
      s1.coil? o.coil = some c ∧ mxAcc 8 = 3 ∧ (∀ e ∈ data, e.2 = false) ∧ (∀ k ∈ shareWords o.half 8 1 share0, Tab.get false c.accPoison k = false)) ∧
    (∃ (s s1 : State) (o : EngineOp) (c : Coil) (b : Bolt) (data : List (List Byte × Bool)), EngineRuns s 4 o c b ∧ o.kind = mma0 ∧
      s.readList (o.who c b) (.engine 4) .current (rowReads share0.a share0.sa share0.m 0 ++ rowReads 0x1100 64 1 0) = (.data data, s1) ∧
      s1.coil? o.coil = some c ∧ ∃ e ∈ data, e.2 = true) ∧
    (∃ (s s1 : State) (o : EngineOp) (c : Coil) (b : Bolt) (data : List (List Byte × Bool)), EngineRuns s 4 o c b ∧ o.kind = .cbld 7 0x1000 ∧
      s.readList (o.who c b) (.engine 4) .current (pieces 16 .read 3 (0x1000 : W64).toNat 32) = (.data data, s1) ∧ s1.coil? o.coil = some c ∧
      (∀ e ∈ data, e.2 = false) ∧ (data.flatMap Prod.fst).length = 32) ∧
    (∃ (s : State) (o : EngineOp) (c : Coil) (b : Bolt), EngineRuns s 4 o c b ∧ o.kind = .clr 15) ∧
    (∃ (s : State) (o : EngineOp) (c : Coil) (b : Bolt), EngineRuns s 4 o c b ∧ o.kind = drain0 0 ∧ s.writeCause (.engine 4) = none ∧
      (∀ t : State, t.tlb = s.tlb → t.regs = s.regs → ∀ u ∈ drainUnits (drainArgs drainRegs 0x200),
        t.judge (o.who c b) { kind := .write, va := u.va, size := u.size, watch := false } = (.ok (.l1 (c.hamper + o.half) u.va), t)) ∧
      (∀ u ∈ drainUnits (drainArgs drainRegs 0x200), PlainRun s u.va u.size) ∧ drainUnits (drainArgs drainRegs 0x200) ≠ [] ∧
      (drainUnits (drainArgs drainRegs 0x200)).Pairwise (fun u v => u.va + u.size ≤ v.va ∨ v.va + v.size ≤ u.va)) ∧
    ∃ (s : State) (o : EngineOp) (c : Coil) (b : Bolt), EngineRuns s 4 o c b ∧ o.kind = drain0 256 ∧ (drainUnits (drainArgs drainRegs 0x200)).length ≤ 256 ∧ s.writeCause (.engine 4) = none :=
  ⟨⟨sMma false, _, op0 0 mma0, cOp 2 0 mma0, bOp 2 0 mma0, sixReads false, op_runs 2 0 mma0 (by decide), rfl, pair_of (by decide +kernel), by decide +kernel, by decide,
    by decide, by decide⟩,
   ⟨sMma true, _, op0 0 mma0, cOp 2 0 mma0, bOp 2 0 mma0, sixReads true,
    have h := op_runs 2 0 mma0 (by decide)
    ⟨h.there, h.coil, h.resident, h.lives, h.free, rfl, rfl⟩, rfl, pair_of (by decide +kernel), by decide +kernel, by decide⟩,
   ⟨_, _, _, _, _, List.replicate 2 (List.replicate 16 0, false), op_runs 2 0 (.cbld 7 0x1000) (by decide), rfl, pair_of (by decide +kernel), by decide +kernel, by decide, by decide⟩,
   ⟨_, _, _, _, op_runs 2 0 (.clr 15) (by decide), rfl⟩,
   ⟨_, _, _, _, op_runs 2 0 (drain0 0) (by decide), rfl, rfl, drain_judged, fun u _ => calm_run _ _ (by decide), by decide +kernel,
    by decide +kernel⟩,
   _, _, _, _, op_runs 2 0 (drain0 256) (by decide), rfl, by decide +kernel, by decide⟩

/-- A ray along x that meets the hierarchy at 0x1800, where memory holds an empty box node. -/
def ray0 (dir : List W32) (root : W64) : OpKind := .ray 3 2 [0, 0, 0] 0 dir 0x7F800000 root 0
def rayOf (dir : List W32) : Ray := { o := [0, 0, 0], d := dir.map BitVec.toNat, tmin := 0, tmax := 0x7F800000, flags := 0 }
def beamWords (dz : Nat) : List Byte := toBytes 12 0 ++ (toBytes 8 0 ++ toBytes 4 dz) ++ (toBytes 4 0x3C000000 ++ toBytes 8 0) ++ (toBytes 4 0 ++ toBytes 4 0x3C000000 ++ toBytes 4 0) ++
  toBytes 4 0 ++ toBytes 4 0x447A0000 ++ toBytes 8 0
/-- A beam whose directions are all zero. -/
def beamFlat : List Byte := toBytes 52 0 ++ toBytes 4 0x447A0000 ++ toBytes 8 0
def beam0 (l : List Byte) : OpKind := .beam 0x1800 l 0x1000 3
def sSent (k : OpKind) : State := { sOp 4 3 k with ops := [(4, { op0 3 k with sent := true })] }
def isFound : FoundGot × State → Bool
  | (.ok _, _) => true
  | _ => false
theorem found_of {f : FoundGot × State} (h : isFound f = true) : ∃ tree s2, f = (.ok tree, s2) := by
  rcases f with ⟨g, s2⟩
  cases g <;> simp [isFound] at h ⊢
theorem witness_RayHeld : ∃ (s : State) (o : EngineOp) (c : Coil) (b : Bolt), EngineRuns s 4 o c b ∧ o.kind = ray0 [0, 0, 0] 0x1800 ∧
    s.holdsBack o.coil o.strand b.desc.lanes [(vKey 2 3, 0, false), (vKey 3 3, 0, false)] = true :=
  have h := op_runs 4 1 (ray0 [0, 0, 0] 0x1800) (by decide)
  ⟨{ sOp 4 1 (ray0 [0, 0, 0] 0x1800) with ops := [(4, op0 1 (ray0 [0, 0, 0] 0x1800)), (5, op0 0 (.mma 8 true false [share0] 0x1100 64 1 2 2 0 0 0 0))] },
   _, _, _, ⟨rfl, h.coil, h.resident, h.lives, h.free, rfl, rfl⟩, rfl, by decide⟩
theorem witness_QueryEvents :
    (∃ (s : State) (o : EngineOp) (c : Coil) (b : Bolt) (st : Strand), EngineRuns s 4 o c b ∧ o.kind = ray0 [0x3F800000, 0, 0] 1 ∧ c.strands[o.strand]? = some st ∧
      s.badRoot b.asid 1 = true ∧ s.holdsBack o.coil o.strand b.desc.lanes [(vKey 2 3, 0, false), (vKey 3 3, 0, false)] = false) ∧
    (∃ (s : State) (o : EngineOp) (c : Coil) (b : Bolt), EngineRuns s 4 o c b ∧ o.kind = ray0 [0, 0, 0] 0x1800 ∧ s.badRoot b.asid 0x1800 = false ∧
      (rayOf [0, 0, 0]).void = true ∧ s.holdsBack o.coil o.strand b.desc.lanes [(vKey 2 3, 0, false), (vKey 3 3, 0, false)] = false) ∧
    (∃ (s : State) (o : EngineOp) (c : Coil) (b : Bolt) (k : Walk), EngineRuns s 4 o c b ∧ o.kind = ray0 [0x3F800000, 0, 0] 0x1800 ∧
      s.badRoot b.asid 0x1800 = false ∧ (rayOf [0x3F800000, 0, 0]).void = false ∧
      k = walkBox (o.who c b) 4 (rayOf [0x3F800000, 0, 0]) 64 { st := s, hits := [], err := false, bad := false, stop := none } (0x1800 : W64).toNat ∧
      k.stop = none ∧ k.st.coil? o.coil = some c ∧ s.holdsBack o.coil o.strand b.desc.lanes [(vKey 2 3, 0, false), (vKey 3 3, 0, false)] = false) ∧
    (∃ (s : State) (o : EngineOp) (c : Coil) (b : Bolt) (k : BeamWalk), EngineRuns s 4 o c b ∧ o.kind = beam0 beamFlat ∧ o.sent = false ∧ beamVoid beamFlat = false ∧
      (∀ bm, beamOf beamFlat = some bm → bm.den = 0) ∧ s.badRoot b.asid 0x1800 = false ∧
      k = looseReached (o.who c b) 4 { st := s, leaves := [], err := false, bad := false, stop := none, recs := [] } (0x1800 : W64).toNat ∧
      k.stop = none ∧ k.bad = false ∧ k.err = false ∧ k.leaves = []) ∧
    (∃ (s : State) (o : EngineOp) (c : Coil) (b : Bolt), EngineRuns s 4 o c b ∧ o.kind = beam0 (beamWords 0x7FC00000) ∧ o.sent = false ∧
      beamVoid (beamWords 0x7FC00000) = true) ∧
    (∃ (s : State) (o : EngineOp) (c : Coil) (b : Bolt) (bm : Beam), EngineRuns s 4 o c b ∧ o.kind = beam0 (beamWords 0x3F800000) ∧ o.sent = false ∧
      beamVoid (beamWords 0x3F800000) = false ∧ beamOf (beamWords 0x3F800000) = some bm ∧ bm.den ≠ 0 ∧ s.badRoot b.asid 0x1800 = false) ∧
    (∃ (s : State) (o : EngineOp) (c : Coil) (b : Bolt), EngineRuns s 4 o c b ∧ o.kind = beam0 [] ∧ o.sent = true ∧ s.writeCause (.engine 4) = none) ∧
    (∃ (s s1 : State) (o : EngineOp) (c : Coil) (b : Bolt) (l : List (List Byte × Bool)), EngineRuns s 4 o c b ∧ o.kind = .build 0x1000 0x1800 1 0 0 ∧ o.sent = false ∧
      s.readList (o.who c b) (.engine 4) .current (pieces 64 .read (36 * 1) (0x1000 : W64).toNat (36 * 1)) = (.data l, s1) ∧ ∀ e ∈ l, e.2 = false) ∧
    ∃ (s s1 : State) (o : EngineOp) (c : Coil) (b : Bolt) (l : List (List Byte × Bool)), EngineRuns s 4 o c b ∧ o.kind = .refit 0x1000 0x1800 1 0 0 ∧
      o.sent = false ∧ s.readList (o.who c b) (.engine 4) .current (pieces 64 .read (36 * 1) (0x1000 : W64).toNat (36 * 1)) = (.data l, s1) ∧
      (∀ e ∈ l, e.2 = false) ∧ ∃ tree s2, s1.findTree (o.who c b) 4 (0x1800 : W64).toNat 1 0 66 (0x1800 : W64).toNat 1 = (.ok tree, s2) := by
  refine ⟨⟨_, _, _, _, ((cOp 4 1 (ray0 [0x3F800000, 0, 0] 1)).strands[0]?).get (by decide), op_runs 4 1 (ray0 [0x3F800000, 0, 0] 1) (by decide), rfl, (Option.some_get _).symm, by decide, by decide⟩,
    ⟨_, _, _, _, op_runs 4 1 (ray0 [0, 0, 0] 0x1800) (by decide), rfl, by decide, by decide, by decide⟩,
    ⟨_, _, _, _, _, op_runs 4 1 (ray0 [0x3F800000, 0, 0] 0x1800) (by decide), rfl, by decide, by decide, rfl, by decide +kernel, by decide +kernel, by decide⟩,
    ⟨_, _, _, _, _, op_runs 4 3 (beam0 beamFlat) (by decide), rfl, rfl, by decide, by decide +kernel, by decide, rfl, by decide +kernel, by decide +kernel, by decide +kernel,
      by decide +kernel⟩,
    ⟨_, _, _, _, op_runs 4 3 (beam0 (beamWords 0x7FC00000)) (by decide), rfl, rfl, by decide⟩,
    ⟨_, _, _, _, (beamOf (beamWords 0x3F800000)).get (by decide +kernel), op_runs 4 3 (beam0 (beamWords 0x3F800000)) (by decide), rfl, rfl, by decide, (Option.some_get _).symm, by decide +kernel, by decide⟩,
    ⟨sSent (beam0 []), _, _, _, ⟨rfl, (op_runs 4 3 (beam0 []) (by decide)).coil, rfl, List.cons_ne_nil 0 [], rfl, rfl, rfl⟩, rfl, rfl, rfl⟩,
    ⟨_, _, _, _, _, [(List.replicate 36 0, false)], op_runs 4 3 (.build 0x1000 0x1800 1 0 0) (by decide), rfl, rfl, pair_of (by decide +kernel), by decide⟩,
    _, _, _, _, _, [(List.replicate 36 0, false)], op_runs 4 3 (.refit 0x1000 0x1800 1 0 0) (by decide), rfl, rfl, pair_of (by decide +kernel),
      by decide, found_of (by decide +kernel)⟩

def bin0 (full : Bool) (l : List BinLane) : OpKind := .covBin 0 l full 0 0 2 9
def long1 : LongOp := { long0 with kWrites := [(2, 0xFF, 0), (3, 0xFF, 0)], held := true }
def sBin (full : Bool) (l : List BinLane) : State := (sOp 4 2 (bin0 full l)).updStrand 0 0 (fun st => { st with longs := [(9, long1)] })
theorem bin_at (full : Bool) (l : List BinLane) : ((sBin full l).coilBolt? 0).isSome = true := by rfl
theorem bin_runs (full : Bool) (l : List BinLane) (h : (sBin full l).opBlocked 4 (op0 2 (bin0 full l)) = false) :
    EngineRuns (sBin full l) 4 (op0 2 (bin0 full l)) ((sBin full l).coilBolt? 0 |>.get (bin_at full l)).1 ((sBin full l).coilBolt? 0 |>.get (bin_at full l)).2 :=
  ⟨rfl, (Option.some_get (bin_at full l)).symm, rfl, List.cons_ne_nil 0 [], rfl, rfl, h⟩
theorem witness_CoverageEvents :
    (∃ (s : State) (o : EngineOp) (c : Coil) (b : Bolt), EngineRuns s 4 o c b ∧ o.kind = .covTile 0 []) ∧
    (∃ (s : State) (o : EngineOp) (c : Coil) (b : Bolt), EngineRuns s 4 o c b ∧ o.kind = .covTile 0 [3, 4] ∧ rowPlaces c b.desc o.half 0 3 ≠ []) ∧
    (∃ (s : State) (o : EngineOp) (c : Coil) (b : Bolt), EngineRuns s 4 o c b ∧ o.kind = .covResolve 0 1 [3, 4] ∧
      ∀ y ∈ [3, 4], (s.rowCells c (rowPlaces c b.desc o.half 0 y)).2 = false) ∧
    (∃ (s : State) (o : EngineOp) (c : Coil) (b : Bolt) (key : Nat), EngineRuns s 4 o c b ∧ o.kind = .covSeg 0 [(1, 2, -5)] ∧
      winPlace c b.desc o.half (tileBuf 0 + 4 * (2 * tileW 0 + 1)) 4 = some (.scr key) ∧ s.sramBad key 4 = false) ∧
    (∃ (s : State) (o : EngineOp) (c : Coil) (b : Bolt) (st : Strand) (g : LongOp), EngineRuns s 4 o c b ∧ o.kind = bin0 false [] ∧
      s.writeCause (.engine 4) = none ∧ c.strands[o.strand]? = some st ∧ Dict.find? st.longs 9 = some g) ∧
    ∃ (s : State) (m : BinLane) (o : EngineOp) (c : Coil) (b : Bolt), EngineRuns s 4 o c b ∧ o.kind = bin0 true [m] ∧ s.writeCause (.engine 4) = none := by
  refine ⟨⟨_, _, _, _, op_runs 4 2 (.covTile 0 []) (by decide), rfl⟩, ⟨_, _, _, _, op_runs 4 2 (.covTile 0 [3, 4]) (by decide), rfl, by decide⟩,
    ⟨_, _, _, _, op_runs 4 2 (.covResolve 0 1 [3, 4]) (by decide), rfl, by decide⟩,
    ⟨_, _, _, _, 4 * (2 * tileW 0 + 1), op_runs 4 2 (.covSeg 0 [(1, 2, -5)]) (by decide), rfl, by decide, by decide⟩,
    ⟨_, _, _, _, ((((sBin false []).coilBolt? 0).get (bin_at false [])).1.strands[0]?).get (by decide), long1, bin_runs false [] (by decide), rfl, rfl,
      (Option.some_get _).symm, by decide⟩,
    _, { lane := 3, buffer := 0, c := 0, points := [], rejected := false }, _, _, _, bin_runs true [{ lane := 3, buffer := 0, c := 0, points := [], rejected := false }] (by decide), rfl, rfl⟩

/-- A fill of two elements of 8 bytes at 0x1400, which has begun. -/
def fillBytes : List Byte := [2, 0, 3, 0, 2, 0, 1, 0, 1, 0, 1, 0] ++ toBytes 8 0x55 ++ List.replicate 44 0
def fillRec : List Byte := toBytes 8 0x1400 ++ [0, 0, 0, 0] ++ toBytes 16 0 ++ toBytes 16 2 ++ toBytes 20 8
def fill0 : BtePacket := { packet0 43 with bytes := fillBytes, recs := [[], fillRec, []], started := true }
def failing : BtePacket := { fill0 with failAll := 8, noRecord := true }
def sChunk (p : BtePacket) (cancels : List Nat) : State := { sC [] with bte := [(5, { bte0 [p] with cancels := cancels })] }
theorem chunk_up (p : BtePacket) (cancels : List Nat) (h : p.number = 43 ∧ p.started = true ∧ bit p.done 0 = false ∧ 0 < p.chunks ∧ p.results = [] ∧ p.held = false)
    (hf : (sChunk p cancels).packet? 5 43 = some p) (hw : (sChunk p cancels).packetWaits 5 p = false) : ChunkUp (sChunk p cancels) 5 43 0 p { bte0 [p] with cancels := cancels } :=
  ⟨hf, rfl, h.2.1, h.2.2.1, h.2.2.2.1, rfl, h.2.2.2.2.1, h.2.2.2.2.2, hw⟩
/-- Queue 5 with other contents of its entry: LOG2, STATE, and one address space in use. -/
def sEntry (log2 st : Nat) : State := (((sC []).poke 0 (toBytes 8 (2 ^ 63)) false).poke (0x3280 + 18) (toBytes 1 log2) false).poke (0x3280 + 20) (toBytes 1 st) false
theorem calm_entry (log2 st : Nat) (h : calm (sEntry log2 st) = true) : PlainRun (sEntry log2 st) ((sEntry log2 st).bteAt 5) 128 := calm_run _ _ h
theorem witness_CopyQueues :
    (∃ s : State, 5 < s.bteCount ∧ s.bteState 5 ≠ 0) ∧ (∃ s : State, 5 < s.bteCount ∧ s.bteState 5 = 0 ∧ s.bteEntryOk 5 = false) ∧
    (∃ s : State, 5 < s.bteCount ∧ s.bteState 5 = 0 ∧ s.bteEntryOk 5 = true ∧ s.bteF 5 28 1 = 0 ∧ PlainRun s (s.bteAt 5) 128) ∧
    (∃ (s : State) (b : BteQueue), s.bteState 5 ≠ 0 ∧ Dict.find? s.bte 5 = some b ∧ (∃ p ∈ b.packets, p.complete = false) ∧ s.regF aBteSave 63 12 = 0) ∧
    (∃ (s : State) (b : BteQueue), s.bteState 5 ≠ 0 ∧ Dict.find? s.bte 5 = some b ∧ b.packets = [] ∧ PlainRun s (s.bteAt 5) 128) ∧
    (∃ s : State, s.bteCount ≤ 8) ∧
    (∃ (s s1 : State) (b : BteQueue), s.holdStopped 5 = s1 ∧ Dict.find? s1.bte 5 = some b ∧ b.draining = some (3, 1, 0)) ∧
    (∃ (s : State) (b : BteQueue), Dict.find? s.bte 5 = some b ∧ b.due = [] ∧ b.waiting = true ∧ (∀ p ∈ b.packets, p.started = true) ∧ s.bteState 5 = 1) ∧
    ∃ (s s1 s2 : State) (b : BteQueue) (l slot : List (List Byte × Bool)), Dict.find? s.bte 5 = some b ∧ b.due = [] ∧ b.waiting = false ∧ b.draining = none ∧ b.toReplay = [] ∧
      (b.packets.filter (fun p => !p.complete)).length < 4 ∧ s.bteState 5 = 1 ∧
      s.readList { asid := s.bteAsid 5, coil := none, unit := s.bteUnit 5 } (.bteQueue 5) .current (pieces 64 .read 2 (s.bteUhdr 5) 4) = (.data l, s1) ∧ (∀ e ∈ l, e.2 = false) ∧
      ofBytes (l.map Prod.fst).flatten = 3 ∧ 3 = b.seenWr ∧ 1 ≤ (3 + 2 ^ 32 - s1.bteRd 5) % 2 ^ 32 ∧ (3 + 2 ^ 32 - s1.bteRd 5) % 2 ^ 32 ≤ 2 ^ 31 ∧
      s1.readList { asid := s1.bteAsid 5, coil := none, unit := s1.bteUnit 5 } (.bteQueue 5) .current (pieces 64 .read 2 (s1.bteRing 5 + 64 * (s1.bteRd 5 % 2 ^ s1.bteLog2 5)) 64) =
        (.data slot, s2) ∧ (∀ e ∈ slot, e.2 = false) := by
  refine ⟨⟨sC [], by decide⟩, ⟨sEntry 5 0, by decide⟩, ⟨sEntry 6 0, by decide, by decide, by decide, by decide, calm_entry 6 0 (by decide)⟩,
    ⟨sC [packet0 43], bte0 [packet0 43], by decide⟩, ⟨sC [], bte0 [], by decide, by decide, rfl, calm_run _ _ (by decide)⟩, ⟨sC [], by decide⟩,
    ⟨{ sC [] with bte := [(5, { bte0 [] with draining := some (3, 1, 0) })] }, _, { bte0 [] with draining := some (3, 1, 0) }, rfl, by decide, rfl⟩,
    ⟨{ sC [] with bte := [(5, { bte0 [] with waiting := true })] }, { bte0 [] with waiting := true }, by decide⟩,
    { (sC []).poke 0x40 [3] false with bte := [(5, { bte0 [] with seenWr := 3 })] }, { (sC []).poke 0x40 [3] false with bte := [(5, { bte0 [] with seenWr := 3 })] },
    { (sC []).poke 0x40 [3] false with bte := [(5, { bte0 [] with seenWr := 3 })] }, { bte0 [] with seenWr := 3 }, [([3, 0, 0, 0], false)], [(List.replicate 64 0, false)], ?_⟩
  decide +kernel
theorem witness_CopyEngineEvents :
    (∃ (s : State) (slot : List Byte), recN slot 63 1 ≠ (s.bteRd 5 >>> s.bteLog2 5) % 255 + 1 ∧ PlainRun s (s.bteAt 5) 128) ∧
    (∃ (s : State) (slot : List Byte), recN slot 63 1 = (s.bteRd 5 >>> s.bteLog2 5) % 255 + 1 ∧ s.bteAcc 5 + 1 < 2 ^ 64 ∧ PlainRun s (s.bteAt 5) 128) ∧
    (∃ (s : State) (p : BtePacket) (b : BteQueue), ChunkUp s 5 43 0 p b ∧ p.failAll ≠ 0 ∧ p.noRecord = true) ∧
    (∃ (s : State) (p : BtePacket) (b : BteQueue), ChunkUp s 5 43 0 p b ∧ p.failAll = 0 ∧ 43 ∈ b.cancels ∧ bit p.begun 0 = false) ∧
    ∃ (s s1 s2 : State) (p : BtePacket) (b : BteQueue) (dst : List (Option Nat)) (l : List (Acc × List Byte × Bool)) (pa : Nat → Nat),
      let none' := (chunkElems p.bytes 0).map (fun _ => (none : Option Int))
      let fill := (chunkElems p.bytes 0).map (fun _ => some ((p.bytes.drop 12).take (pkElem p.bytes), false))
      ChunkUp s 5 43 0 p b ∧ p.failAll = 0 ∧ 43 ∉ b.cancels ∧ bit p.writing 0 = false ∧ pkOp p.bytes = 2 ∧ pkFlag p.bytes 0 = false ∧
      pkFlag p.bytes 4 = false ∧ sideAddrs p 0 p.dst false false none' = some dst ∧
      writeAccs (chunkWrites (pkElem p.bytes) dst fill) = l ∧ l.length = 2 ∧ s1 = s.updPacket 5 43 (fun p => { p with begun := p.begun ||| 2 ^ 0 }) ∧
      s1.placeWrites (s1.bteWho 5 p.bytes) (l.map Prod.fst) = (.ok (l.map (fun x => .mem (pa x.1.va))), s2) ∧
      (∀ x ∈ l, PlainRun s2 (pa x.1.va) x.2.1.length) ∧ (∀ x ∈ l, x.2.2 = false) ∧
      l.Pairwise (fun x y => pa x.1.va + x.2.1.length ≤ pa y.1.va ∨ pa y.1.va + y.2.1.length ≤ pa x.1.va) := by
  refine ⟨⟨sC [], List.replicate 64 0, by decide, calm_run _ _ (by decide)⟩,
    ⟨sC [], List.replicate 63 0 ++ [1], by decide, by decide, calm_run _ _ (by decide)⟩,
    ⟨_, _, _, chunk_up failing [] (by decide) (by decide) (by decide), by decide, by decide⟩, ⟨_, _, _, chunk_up fill0 [43] (by decide) (by decide) (by decide), by decide, by decide, by decide⟩,
    sChunk fill0 [], _, (sChunk fill0 []).updPacket 5 43 (fun p => { p with begun := p.begun ||| 2 ^ 0 }), fill0, _, [some 0x1400, some 0x1408], _, id,
    chunk_up fill0 [] (by decide) (by decide) (by decide), by decide, by decide, by decide, by decide, by decide, by decide, by decide, rfl, by decide, rfl, by decide +kernel,
    fun x _ => calm_run _ _ (by decide), by decide, by decide⟩

/-! The statements about all instructions, about reset, and about a step. -/

theorem witness_EncodeDecode : (Instr.add 1 2 3 false).encoded = true ∧ (Instr.add 1 2 3 false).wellFormed = true ∧
    decodeBytes (toBytes 4 0x04108300 ++ [7]) = some (.add 1 2 3 false, [7]) ∧
    decodeLaneBytes (toBytes 12 0xFF000000) = some (.courseTrailer 0 0 false 0, []) := by decide
theorem witness_StepKeepsMemoryCanonical : ∃ s t : State, Memory.wf s.mem = true ∧ step s = .next t ∧ s.mem ≠ [] := by
  have h : (match step (State.reset.withFetchWord 32 0x68000000) with | .next _ => true | _ => false) = true := by decide
  refine ⟨State.reset.withFetchWord 32 0x68000000, ?_⟩
  cases hs : step (State.reset.withFetchWord 32 0x68000000) with
  | next t => exact ⟨t, by decide, rfl, by decide⟩
  | fault _ => rw [hs] at h; cases h
  | refused _ => rw [hs] at h; cases h
/-- A machine with a path at a word, the clock as a step finds it. -/
def sStep (words : List Nat) : State := (scal 4 []).poke 0x1000 (words.flatMap (toBytes 4)) false
theorem step_at (words : List Nat) : ((sStep words).tickOn.issuerAt root0).isSome = true := by rfl
def xStep (words : List Nat) : Issuer := ((sStep words).tickOn.issuerAt root0).get (step_at words)
theorem step_turn (words : List Nat) (h : (sStep words).tickOn.openSteps = []) : PathTurn (sStep words) (sStep words).tickOn (xStep words) { id := root0, lane := false } :=
  ⟨rfl, rfl, by rw [h]; rfl, rfl, rfl, (Option.some_get (step_at words)).symm⟩
/-- R288: a word fetched ahead of a store may still be fetched. -/
theorem test_code_held : (match (({ sStep [7] with bolts := Dict.upd (sStep [7]).bolts 0 (fun b => { b with code := [(0x1000, 5, false)] }) } : State).fetchWord
    (xStep [7]) 0 0x1000).1 with | .data l bad => ofBytes l == 5 && !bad | _ => false) = true := by decide
theorem witness_StepRuns :
    (∃ (s s1 t : State) (x : Issuer) (tn : Turn) (w : Nat) (i : Instr), PathTurn s s1 x tn ∧ tn.lane = false ∧ s1.scalarOpen x = true ∧ (∀ n, n < 8 → bit (t.regN (aBpCtl n)) 0 = false) ∧
      CodeWord s1 t x x.path.pc.toNat w ∧ bits w 31 26 ≠ 0x3F ∧ decodeScalar w 0 = some i ∧ MayStop t x ∧ decodeScalar 0 0 = none) ∧
    (∃ (s s1 t1 t : State) (x : Issuer) (tn : Turn) (w w' : Nat) (i : Instr), PathTurn s s1 x tn ∧ tn.lane = false ∧ s1.scalarOpen x = true ∧ CodeWord s1 t1 x x.path.pc.toNat w ∧
      bits w 31 26 = 0x3F ∧ CodeWord t1 t x (x.path.pc + 4).toNat w' ∧ decodeScalar w w' = some i) ∧
    (∃ s s1 : State, s.tickOn = s1 ∧ s1.power.stopped = true ∧ Instr.moduleReset ∉ s1.agenda) := by
  have cw (words : List Nat) (va : Nat) (w : Nat) (h1 : isCanonical (BitVec.ofNat 64 va)) (h2 : inPeerWin va = false)
      (h3 : (sStep words).tickOn.winOff (xStep words).asid va = none)
      (h4 : (sStep words).tickOn.translate (.hamper (xStep words).hamper) (xStep words).asid va .execute = (.ok va, (sStep words).tickOn)) (h5 : inRegSpace va = false)
      (h6 : inHostWin va = false) (h7 : calm (sStep words).tickOn = true) (hc : (sStep words).tickOn.codeHeld (xStep words).coil.bolt va = none)
      (h8 : (sStep words).tickOn.memPoison va 4 = false)
      (h9 : ofBytes ((sStep words).tickOn.run va 4) = w) : CodeWord (sStep words).tickOn (sStep words).tickOn (xStep words) va w :=
    ⟨h1, h2, h3, va, h4, h5, h6, calm_run _ _ h7, hc, h8, h9⟩
  refine ⟨⟨_, _, (sStep [0x68000000]).tickOn, xStep [0x68000000], _, 0x68000000, .nop, step_turn [0x68000000] (by rfl), rfl, ?_, ?_,
      cw [0x68000000] 0x1000 0x68000000 (by unfold isCanonical; decide) rfl rfl rfl rfl rfl rfl rfl rfl rfl, by decide, by decide, ?_, by decide⟩,
    ⟨_, _, (sStep [0xFC100100, 7]).tickOn, (sStep [0xFC100100, 7]).tickOn, xStep [0xFC100100, 7], _, 0xFC100100, 7, .li 1 7, step_turn [0xFC100100, 7] (by rfl), rfl, ?_,
      cw [0xFC100100, 7] 0x1000 0xFC100100 (by unfold isCanonical; decide) rfl rfl rfl rfl rfl rfl rfl rfl rfl, by decide,
      cw [0xFC100100, 7] 0x1004 7 (by unfold isCanonical; decide) rfl rfl rfl rfl rfl rfl rfl rfl rfl, by decide⟩,
    { State.reset with power := { Power.reset with stopped := true } }, _, rfl, rfl, by decide⟩
  · rfl
  · exact (by decide : ∀ n, n < 8 → bit ((sStep [0x68000000]).tickOn.regN (aBpCtl n)) 0 = false)
  · exact ⟨(Option.some_get _).symm, rfl, rfl, rfl, rfl⟩
  · rfl
def sStepLane : State := State.reset.probe 4 true [0x000000EE09FF000058000000, 0xFF000000]
theorem stepLane_at : (sStepLane.tickOn.issuerAt root0).isSome = true := by rfl
theorem stepLane_runs : ((sStepLane.tickOn.issuerAt root0).get stepLane_at).strand.running.isSome = true := by rfl
theorem witness_StepRunsLane : ∃ (s s1 : State) (x : Issuer) (tn : Turn) (r : Running) (i : Instr), PathTurn s s1 x tn ∧ tn.lane = true ∧ x.strand.running = some r ∧
    r.course.path = x.id.path ∧ lanesFree x = true ∧ decodeLaneWord (r.words.getD r.pos 0) = some i :=
  ⟨sStepLane, _, (sStepLane.tickOn.issuerAt root0).get stepLane_at, { id := root0, lane := true }, ((sStepLane.tickOn.issuerAt root0).get stepLane_at).strand.running.get stepLane_runs,
   .vMov (ln 0 0 0 0 false 0 9 0xFF 0 0 0xEE),
   ⟨rfl, rfl, by rw [show sStepLane.tickOn.openSteps = [] from by rfl]; rfl, rfl, rfl, (Option.some_get stepLane_at).symm⟩, rfl, (Option.some_get stepLane_runs).symm,
   rfl, rfl, by decide⟩

/-! The assembler's worked example (chapter 15): the course and the descriptor template of `addk`; names, lookahead and expressions of R305 and
R306; the header of a Klonen file (R283). -/

/-- The kernel `addk`. -/
def addk : Kernel := { lanes := some 32, vector := 1 }
theorem test_addk_course : (courseOf [.vAdd (ln 0 2 0 0 false 0 1 1 0xF8 0 0)] [.lane 1] false).map (List.map BitVec.toNat)
    = some [0x01020000 + 2 ^ 32 * 0x0101F800, 0xFF100000 + 2 ^ 32 * 0x01000000] := by decide
theorem test_addk_template : (addk.template 0x1000 0x2000).drop 32 = [1, 1, 0, 0, 16, 16] ++ List.replicate 26 0 ∧
    addk.accepted 0x1000 0x2000 = true ∧ ({ addk with splits := 2 } : Kernel).accepted 0x1000 0x2000 = false := by decide
theorem test_identifiers : isIdentifier "loop.2".toList = true ∧ isIdentifier "s63".toList = false ∧ isIdentifier "s64".toList = true ∧
    isIdentifier "lane".toList = false := by decide
theorem test_la_auto : laAuto [3] [[1, 2], [4], [3, 5], [6]] = 2 := by decide
theorem test_expr_shift : Expr.eval (.shl (.num 1) (.num 64)) = some 0 ∧ Expr.eval (.shr (.num 1) (.sub (.num 0) (.num 1))) = none := by decide
theorem test_klonen_marker : State.reset.klonenHeader.take 4 = [0x4B, 0x4C, 0x4E, 0x31] := by decide

end Sys2Proof.Tests
end

section
/-! PROOFS. The statements about fabric requests and fabric links: for each a state in which one of its clauses fails. -/

namespace Sys2Proof.Machine

open Sys2Proof

/-- Two bytes, both to be written, the first granule poisoned (R46, R160). -/
def topWrite : FabReq := { id := 1, src := 8, key := 0, off := 0, size := 2, data := [1, 2], byteMask := 3, bad := 1 }

/-- A machine at whose L2 `topWrite` waits, admitted at the last address of 64 bits: its second byte lies at 2^64. -/
def topAccepted : State := { State.reset with fabric := { State.reset.fabric with accepted := [(8, 1, 2 ^ 64 - 1)] } }

theorem topAccepted_admits : topAccepted.admitted topWrite .write = some (2 ^ 64 - 1) := by decide

/-- Far above device memory nothing is carve-out, region or copied line. -/
theorem topAccepted_plain : PlainRun topAccepted (2 ^ 64 - 1) topWrite.data.length := by
  intro a hlo hhi
  have hlen : topWrite.data.length = 2 := rfl
  obtain rfl | rfl : a = 2 ^ 64 - 1 ∨ a = 2 ^ 64 := by omega
  · decide
  · decide

/-- `pieces` takes addresses modulo 2^64, so the granule behind 2^64 comes out below the start of the write and `poisonRuns` gives it offset 0: the
first byte is written twice, and the second never. -/
theorem topWrite_keeps_second_byte : ∃ t, exec (.remoteWrite topWrite) topAccepted = .next t ∧ t.byte (2 ^ 64 - 1 + 1) = 0 :=
  ⟨_, rfl, by decide⟩

/-- Refutes O41: a masked write that carries poison and runs over address 2^64 does not write the byte there (R46, R160). -/
theorem not_fabricRequests : ¬ Obligations.FabricRequests := by
  unfold Obligations.FabricRequests
  rintro ⟨-, -, -, -, -, hwrite, -⟩
  obtain ⟨t, ht, -, hbyte, -⟩ := hwrite topAccepted topWrite _ topAccepted_admits (by decide) topAccepted_plain (by decide)
  obtain ⟨u, hu, hkept⟩ := topWrite_keeps_second_byte
  obtain rfl : t = u := Host.Outcome.next.inj (ht.symm.trans hu)
  have hwritten : t.byte (2 ^ 64 - 1 + 1) = 2 := hbyte 1 (by decide)
  exact absurd (hkept.symm.trans hwritten) (by decide)

/-- The root path of the probe's strand. -/
def pollPath : PathId := { coil := 0, strand := 0, path := 15 }

/-- The request of a parked wait for the word at 0x4000 (R344). -/
def pollReq : RemoteReq :=
  { p := pollPath, op := 0, parts := [{ lane := 0, va := 0x4000, pos := 0, len := 8, dst := 2 ^ 20 }], kind := .read, size := 8, poll := true, port := 0 }

/-- An RDMA transfer of a chunk, over the pair of pod 1 and connection 2 (R57). -/
def chunkReq : RemoteReq :=
  { p := noPath, op := 0, parts := [], kind := .read, size := 8, reader := some (.chunk 2 3 0), port := 253, board := 1, device := 2 }

/-- Both requests stand under number 7, the path waits parked on its word, and it is traced: four bytes of the open
block are free, too few for a TRAP packet (R277, R278). -/
def twiceNumbered : State :=
  let s := ((State.reset.probe 4 false []).setPark pollPath (.waitMem 0x4000 0 0)).setRegN aTrcCfg (2 ^ 32 + 12)
  { s with
    remotes := [(7, pollReq), (7, chunkReq)]
    debugUnit := { s.debugUnit with trace := [(0, { TraceState.start with block := List.replicate 60 1 })] } }

theorem twiceNumbered_chunks : ∀ e ∈ twiceNumbered.remotes, e.2.port = 253 → ∃ q n k, e.2.reader = some (.chunk q n k) := by
  intro e he hport
  obtain rfl | rfl : e = (7, pollReq) ∨ e = (7, chunkReq) := by simpa [twiceNumbered] using he
  · exact absurd hport (by decide)
  · exact ⟨2, 3, 0, rfl⟩

/-- The trap takes the open block to the trace ring, here at address 0. -/
theorem twiceNumbered_writes_trace : ∃ t, exec (.qpRetryLimit 1 2) twiceNumbered = .next t ∧ t.byte 0 = 1 ∧ twiceNumbered.byte 0 = 0 :=
  ⟨_, rfl, by decide, by decide⟩

/-- Refutes O42, at the clause of QP_RETRY_LIMIT (R59): where one number stands for two requests, the failure of the pair's chunk is given to the
first of them; the path that polls by it traps (R54), and the packet of its trap writes the open trace block to memory (R277). -/
theorem not_fabricLinks : ¬ Obligations.FabricLinks := by
  unfold Obligations.FabricLinks
  rintro ⟨-, -, -, -, -, -, -, -, hlimit, -⟩
  obtain ⟨t, -, ht, -, -, -, -, -, hmem⟩ := hlimit twiceNumbered 1 2 twiceNumbered_chunks
  obtain ⟨u, hu, hafter, hbefore⟩ := twiceNumbered_writes_trace
  obtain rfl : t = u := Host.Outcome.next.inj (ht.symm.trans hu)
  have hsame : t.byte 0 = twiceNumbered.byte 0 := congrArg (fun m => Tab.get Config.blank m 0) hmem
  rw [hafter, hbefore] at hsame
  exact absurd hsame (by decide)

end Sys2Proof.Machine
end

section
/-! PROOFS. The `upcall` instruction: what the issue of a scalar instruction that parks its path, or that traps, leaves. -/

namespace Sys2Proof.Machine

open Sys2Proof

theorem ByL1.coils {s t : State} (h : ByL1 s t) : t.coils = s.coils := by rw [← h.rest]
theorem ByL1.bolts {s t : State} (h : ByL1 s t) : t.bolts = s.bolts := by rw [← h.rest]
theorem ByL1.agenda {s t : State} (h : ByL1 s t) : t.agenda = s.agenda := by rw [← h.rest]

/-- An issuer is made of coils and bolts alone. -/
theorem State.issuerAt_congr {s t : State} (hc : t.coils = s.coils) (hb : t.bolts = s.bolts) (id : PathId) : t.issuerAt id = s.issuerAt id := by
  unfold State.issuerAt State.coil?
  rw [hc, hb]

/-- Tracing hangs on registers alone (R277). -/
theorem State.traces_congr {s t : State} (h : t.regs = s.regs) (asid : Nat) : t.traces asid = s.traces asid := by
  unfold State.traces State.regF State.regN State.reg
  rw [h]

/-- What the issue of a scalar instruction does to its coil, with a change `f` of its path. -/
def Coil.issuedWith (id : PathId) (f : PathState → PathState) (c : Coil) : Coil :=
  { c with
    insnUsed := c.insnUsed + 1
    stepOnly := c.stepOnly.map (fun t => (t.1, t.2.1, true))
    strands := c.strands.modify id.strand (fun st => st.updPath id.path (fun p => f { p with bpPass := false })) }

/-- An issue followed by a change of the path is one change of the coil, and the expiry of its budget (R137). -/
theorem State.issuedS_updPath (s : State) (id : PathId) (f : PathState → PathState) :
    (s.issuedS id).updPath id f = (s.updCoil id.coil (Coil.issuedWith id f)).push (s.expiry id.coil) := by
  unfold State.issuedS State.updPath State.updStrand
  rw [State.count_eq]
  simp only [State.push_updCoil, State.updCoil_updCoil]
  congr 2
  funext c
  simp only [Coil.issuedWith, List.modify_modify_eq]
  congr 2
  funext st
  simp [Function.comp, Strand.updPath_updPath]

/-- The issuer after its instruction has issued with a change `f` of its path. -/
def Issuer.issuedWith (x : Issuer) (f : PathState → PathState) : Issuer :=
  { x with
    coil := Coil.issuedWith x.id f x.coil
    strand := x.strand.updPath x.id.path (fun p => f { p with bpPass := false })
    path := f { x.path with bpPass := false } }

/-- The strand of an issuer whose instruction has issued is where its coil holds it. -/
theorem Issuer.issuedWith_strand {s : State} {x : Issuer} (hx : s.issuerAt x.id = some x) (f : PathState → PathState) :
    (Coil.issuedWith x.id f x.coil).strands[x.id.strand]? = some (x.issuedWith f).strand := by
  obtain ⟨-, -, hst, -⟩ := State.issuerAt_some.mp hx
  simp only [Coil.issuedWith, List.getElem?_modify_eq, hst]
  rfl

theorem Issuer.issuedWith_path {s : State} {x : Issuer} (hx : s.issuerAt x.id = some x) (f : PathState → PathState) :
    (x.issuedWith f).strand.path? x.id.path = some (x.issuedWith f).path := by
  obtain ⟨-, -, -, -, hp⟩ := State.issuerAt_some.mp hx
  exact (Strand.path_updPath_same _ _ _).trans (by rw [hp]; rfl)

/-- After the issue the path is found so, whatever has come to hand. -/
theorem State.issuerAt_issuedWith {s : State} {x : Issuer} (hx : s.issuerAt x.id = some x) (f : PathState → PathState) (l : List Instr) :
    ((s.updCoil x.id.coil (Coil.issuedWith x.id f)).push l).issuerAt x.id = some (x.issuedWith f) :=
  State.issuerAt_updCoil hx _ _ _ rfl (Issuer.issuedWith_strand hx f) (Issuer.issuedWith_path hx f) l

theorem Issuer.onlyStrand_issuedWith (x : Issuer) (f : PathState → PathState) : OnlyStrand x (x.issuedWith f) where
  id := rfl
  bolt := rfl
  count := rfl
  coil := rfl
  others _ hj := by simp only [Issuer.issuedWith, Coil.issuedWith, List.getElem?_modify_ne _ _ (Ne.symm hj)]

/-- A snapshot's release changes ply memory, and may wake the picker (R193). -/
theorem State.dropSnap_eq (s : State) (x : Snap) : ∃ p l, s.dropSnap x = ({ s with ply := p } : State).push l := by
  have same : ∃ p l, s = ({ s with ply := p } : State).push l := ⟨s.ply, [], (State.push_nil s).symm⟩
  unfold State.dropSnap
  split
  · exact same
  · split
    · exact same
    · split
      · dsimp only
        split
        · exact ⟨_, [], (State.push_nil _).symm⟩
        · exact ⟨_, _, rfl⟩
      · exact ⟨_, [], (State.push_nil _).symm⟩

/-- So does the end of a transaction without effect (R200). -/
theorem State.dropTents_eq (s : State) (t : Txn) : ∃ p l, s.dropTents t = ({ s with ply := p } : State).push l := by
  unfold State.dropTents
  dsimp only
  split
  · exact State.dropSnap_eq _ _
  · exact ⟨_, [], (State.push_nil _).symm⟩

/-- From `s` to `t` ply memory and one coil may differ, the coil's strands and its bolt not, and more may have come to hand. -/
def KeepsStrands (s t : State) (k : Nat) : Prop :=
  ∃ f p l, t = ({ s.updCoil k f with ply := p } : State).push l ∧ ∀ c, (f c).strands = c.strands ∧ (f c).bolt = c.bolt

theorem KeepsStrands.mem {s t : State} {k : Nat} (h : KeepsStrands s t k) : t.mem = s.mem := by
  obtain ⟨f, p, l, rfl, -⟩ := h
  rfl

theorem KeepsStrands.agenda {s t : State} {k : Nat} (h : KeepsStrands s t k) : ∃ l, t.agenda = s.agenda ++ l := by
  obtain ⟨f, p, l, rfl, -⟩ := h
  exact ⟨l, rfl⟩

/-- A path is found as it was, in a coil that may have changed. -/
theorem KeepsStrands.issuerAt {s t : State} {k : Nat} (h : KeepsStrands s t k) {id : PathId} {x : Issuer} (hx : s.issuerAt id = some x)
    (hk : id.coil = k) : ∃ c, t.issuerAt id = some { x with coil := c } := by
  obtain ⟨f, p, l, rfl, hf⟩ := h
  subst hk
  obtain ⟨rfl, -, hst, -, hp⟩ := State.issuerAt_some.mp hx
  obtain ⟨hstrands, hbolt⟩ := hf x.coil
  exact ⟨f x.coil, (State.issuerAt_congr rfl rfl _).trans (State.issuerAt_updCoil hx f _ _ hbolt (hstrands ▸ hst) hp [])⟩

/-- A strand's absence abandons no gang where no latch of its coil waits (R110). -/
theorem State.abandonGangs_of_no_latches {s : State} {k : Nat} {c : Coil} (hc : s.coil? k = some c) (hl : c.latches = []) (n i : Nat) :
    s.abandonGangs k (n + 1) [i] = s.updCoil k (fun c => { c with latches := c.latches.filter (fun _ => true) }) := by
  simp only [State.abandonGangs, hc, hl, List.filter_nil, List.flatMap_nil, List.foldl_nil, List.map_nil, List.append_nil, List.contains_nil,
    Bool.not_false]
  cases n <;> rfl

/-- Then it only abandons the coil's transaction (R197). -/
theorem State.strandAbsent_of_no_latches {s : State} {k : Nat} {c : Coil} (hc : s.coil? k = some c) (hl : c.latches = []) (i : Nat) :
    KeepsStrands s (s.strandAbsent k i) k := by
  have gangs := State.abandonGangs_of_no_latches hc hl c.strands.length i
  have only : KeepsStrands s (s.abandonGangs k (c.strands.length + 1) [i]) k :=
    ⟨_, s.ply, [], gangs.trans (State.push_nil _).symm, fun _ => ⟨rfl, rfl⟩⟩
  unfold State.strandAbsent
  simp only [hc]
  split
  next t _ =>
    split
    · obtain ⟨p, l, hdrop⟩ := State.dropTents_eq (s.abandonGangs k (c.strands.length + 1) [i]) t
      rw [hdrop, gangs, State.push_updCoil]
      exact ⟨_, p, l, congrArg (fun u : State => ({ u with ply := p } : State).push l) (State.updCoil_updCoil s k _ _), fun _ => ⟨rfl, rfl⟩⟩
    · exact only
  next => exact only

/-- The trap at which the scalar stream of a path stands already (R259). -/
def PathState.under (p : PathState) : Option (TrapInfo × Option Nat) :=
  match p.park with
  | .trap t i none => some (t, i)
  | _ => p.standing

/-- The record of a trap that goes to Holver (R64). -/
def trapUpcall (x : Issuer) (t : TrapInfo) : UpcallReq :=
  { kind := 3, splint := t.splint, hamper := x.hamper, slot := x.strand.slot, bolt := x.coil.bolt, x := x.coil.x, y := x.coil.y,
    z := x.coil.z, asid := x.asid, arg0 := BitVec.ofNat 64 t.cause.code, waiter := some x.id, trap := some t }

/-- A trap record with the place of its path (R261). -/
def Issuer.placed (x : Issuer) (t : TrapInfo) : TrapInfo := { t with splint := splintOf x.id.path }

/-- What a stop at a trap does to its path, found as it stood before the issue. -/
def Issuer.stops (x : Issuer) (t : TrapInfo) (p : PathState) : PathState := { p with park := .trap t none x.path.under, standing := none }

/-- Where nothing is traced and no debugger stops it, a path that stops at a trap parks, and its record comes to hand (R261). -/
theorem State.stopAtTrap_eq {s : State} {x : Issuer} (htr : s.traces x.asid = false) (hdb : bit (s.regN aDbgCfg) 0 = false) (t : TrapInfo) :
    s.stopAtTrap x t = (s.updPath x.id (x.stops (x.placed t))).push [.upcallPost (trapUpcall x (x.placed t))] := by
  unfold State.stopAtTrap State.traceTrap State.tracePacket
  simp only [hdb, Bool.false_and, Bool.false_eq_true, if_false]
  rw [if_neg (by rw [State.traces_congr (State.updPath_regs s _ _), htr]; exact Bool.false_ne_true)]
  rfl

/-- The state in which a scalar instruction has stopped its path at a trap, before its strand's absence counts elsewhere. -/
def State.stopped (s : State) (x : Issuer) (t : TrapInfo) : State :=
  ((s.updCoil x.id.coil (Coil.issuedWith x.id (x.stops t))).push (s.expiry x.id.coil)).push [.upcallPost (trapUpcall x t)]

/-- What a scalar instruction that traps leaves, where nothing stands in the way of its stopping (R259, R261). -/
theorem settle_trap_eq {s : State} {x : Issuer} (h : MayStop s x) (i : Instr) (t : TrapInfo) :
    settleScalar x i (.trap s t) = (s.stopped x (x.placed (scalarTrap x (insnWords i) t))).strandAbsent x.id.coil x.id.strand := by
  have hregs : (s.issuedS x.id).regs = s.regs := by
    unfold State.issuedS
    rw [State.count_eq]
    rfl
  have htr : (s.issuedS x.id).traces x.asid = false := (State.traces_congr hregs _).trans h.traced
  have hdb : bit ((s.issuedS x.id).regN aDbgCfg) 0 = false := by
    rw [show (s.issuedS x.id).regN aDbgCfg = s.regN aDbgCfg by unfold State.regN State.reg; rw [hregs]]
    exact h.debug
  unfold settleScalar State.takeTrap State.trapOrKill
  simp only [h.kill, Bool.false_and, Bool.false_eq_true, if_false]
  rw [State.stopAtTrap_eq htr hdb, State.issuedS_updPath]
  rfl

theorem State.issuerAt_stopped {s : State} {x : Issuer} (hx : s.issuerAt x.id = some x) (t : TrapInfo) :
    (s.stopped x t).issuerAt x.id = some (x.issuedWith (x.stops t)) :=
  (State.issuerAt_congr rfl rfl _).trans (State.issuerAt_issuedWith hx (x.stops t) [])

/-- It stops its path there, as Holver sees it. -/
theorem settle_trap_stops {s : State} {x : Issuer} (h : MayStop s x) (i : Instr) (t : TrapInfo) :
    StopsAt s (settleScalar x i (.trap s t)) x (scalarTrap x (insnWords i) t) := by
  rw [settle_trap_eq h]
  have hat := State.issuerAt_stopped h.here (x.placed (scalarTrap x (insnWords i) t))
  obtain ⟨-, hcoil, -⟩ := State.issuerAt_some.mp hat
  have absent := State.strandAbsent_of_no_latches hcoil h.latches x.id.strand
  obtain ⟨c, hat'⟩ := absent.issuerAt hat rfl
  obtain ⟨l, hagenda⟩ := absent.agenda
  refine ⟨⟨_, x.path.under, hat', rfl, rfl, rfl, rfl, ?_⟩,
    ⟨s.expiry x.id.coil ++ .upcallPost (trapUpcall x (x.placed (scalarTrap x (insnWords i) t))) :: l, _, ?_,
      List.mem_append_right _ List.mem_cons_self, rfl, rfl, rfl, rfl⟩, absent.mem⟩
  · exact congrArg (fun st : Strand => { st with txn := x.strand.txn }) (Strand.updPath_rest x.strand x.id.path _)
  · rw [hagenda]
    simp only [State.stopped, State.push_agenda, State.updCoil_agenda, List.append_assoc, List.singleton_append]

/-- The parking of a caller (R66). -/
def PathState.calling (d : BitVec 6) (p : PathState) : PathState := { p with park := .upcall none d }

/-- An issuer stands where it stood after a release of its L1 (R150). -/
theorem State.issuerAt_l1Release (s : State) (h : Nat) (id : PathId) : (s.l1Release h).issuerAt id = s.issuerAt id :=
  State.issuerAt_congr (State.l1Release_byL1 s h).coils (State.l1Release_byL1 s h).bolts id

/-- The record of a call (R64). -/
def callUpcall (x : Issuer) (a : BitVec 6) (service : W16) : UpcallReq :=
  { kind := 1, splint := splintOf x.id.path, service := service.toNat, hamper := x.hamper, slot := x.strand.slot
    bolt := x.coil.bolt, x := x.coil.x, y := x.coil.y, z := x.coil.z, asid := x.asid, arg0 := x.sAt a.toNat
    arg1 := x.sAt (a.toNat + 1), arg2 := x.sAt (a.toNat + 2), arg3 := x.sAt (a.toNat + 3), waiter := some x.id }

section
variable {s : State} {x : Issuer} {d a : BitVec 6} {service : W16}

/-- With the ring on and nothing of its strand outstanding, `upcall` releases, hands its record over and parks (R64, R346). -/
theorem exec_upcall_on (h : Ready s x { reads := upFrom a.toNat 4, writes := [d.toNat], courses := true }) (hon : bit (s.regN aUpcCfg) 5 = true)
    (hidle : s.pendingWork x = false) :
    exec (.upcall d a service) s = .next ((((s.l1Release x.hamper).push [.upcallPost (callUpcall x a service)]).updCoil x.id.coil
      (Coil.issuedWith x.id (PathState.calling d))).push (((s.l1Release x.hamper).push [.upcallPost (callUpcall x a service)]).expiry x.id.coil)) := by
  refine (scalar_ready h (.upcall d a service) _).trans ?_
  simp only [hon, hidle, Bool.not_true, Bool.false_eq_true, if_false]
  exact congrArg _ (State.issuedS_updPath _ _ _)

/-- With the ring off it traps (R65, R346). -/
theorem exec_upcall_off (h : Ready s x { reads := upFrom a.toNat 4, writes := [d.toNat], courses := true }) (hoff : bit (s.regN aUpcCfg) 5 = false) :
    exec (.upcall d a service) s = .next (settleScalar x (.upcall d a service) (.trap s { cause := .upcallDisabled })) := by
  refine (scalar_ready h (.upcall d a service) _).trans ?_
  simp only [hoff, Bool.not_false, if_true]
  rfl

/-- No access or copy of the strand is outstanding (R152). -/
theorem State.pendingWork_eq_false (hl : x.strand.longs = []) (hc : ∀ e ∈ s.copies, ¬ (e.2.p.coil = x.id.coil ∧ e.2.p.strand = x.id.strand)) :
    s.pendingWork x = false := by
  unfold State.pendingWork
  rw [hl, List.isEmpty_nil, Bool.not_true, Bool.false_or, List.any_eq_false]
  intro e he
  simpa using hc e he

end

/-- Settles O15: the release changes only the L1s and memory, so the path is found at its place with its parking, or at its trap. -/
theorem upcallInstruction : Obligations.UpcallInstruction := by
  unfold Obligations.UpcallInstruction
  intro s x d a service h
  refine ⟨fun hon hlongs hcopies => ?_, fun hoff hstop => ?_⟩
  · have released := State.l1Release_byL1 s x.hamper
    have hat : ((s.l1Release x.hamper).push [.upcallPost (callUpcall x a service)]).issuerAt x.id = some x :=
      (State.issuerAt_l1Release s x.hamper x.id).trans (State.issuer_at h.turn)
    refine ⟨_, x.issuedWith (PathState.calling d), callUpcall x a service,
      ((s.l1Release x.hamper).push [.upcallPost (callUpcall x a service)]).expiry x.id.coil, exec_upcall_on h hon (State.pendingWork_eq_false hlongs hcopies),
      State.issuerAt_issuedWith hat _ _, Issuer.onlyStrand_issuedWith x _, rfl, rfl, ?_, rfl, rfl, rfl, rfl, rfl, rfl, rfl, rfl, rfl⟩
    simp only [State.push_agenda, State.updCoil_agenda, released.agenda, List.append_assoc, List.singleton_append]
  · exact ⟨_, exec_upcall_off h hoff, settle_trap_stops hstop _ _⟩

end Sys2Proof.Machine
end

section
/-! PROOFS. The statements about the registers of Yoke harts and about the answers to records: for each a state in which one of its clauses fails. -/

namespace Sys2Proof.Machine

open Sys2Proof

/-- A machine whose scratchpad window register 0 holds a 1 in a reserved bit (R144): plain data, though R5 keeps every run from it. -/
def swinReserved : State := State.reset.setReg (aSwin 0) (BitVec.ofNat 64 (2 ^ 63))

/-- A store of a whole window register leaves its reserved bits (R4, R453). -/
theorem swinReserved_stays : ∃ t, exec (.registerWrite 0 (aSwin 0) 8 0) swinReserved = .next t ∧ t.reg (aSwin 0) = BitVec.ofNat 64 (2 ^ 63) :=
  ⟨_, rfl, by decide⟩

/-- Refutes O43, at the clause of the scratchpad window registers: a store replaces the fields that may be written and leaves the reserved bits as they
stand (R4, R5, R453), while the clause has every reserved bit read 0 after the store and does not ask that it did before. -/
theorem not_yokeRegisters : ¬ Obligations.YokeRegisters := by
  unfold Obligations.YokeRegisters
  rintro ⟨-, -, -, -, -, -, -, hswin, -⟩
  obtain ⟨t, ht, hreg, -⟩ := hswin swinReserved 0 0 0 (by decide) (by decide)
  obtain ⟨u, hu, hkept⟩ := swinReserved_stays
  obtain rfl : t = u := Host.Outcome.next.inj (ht.symm.trans hu)
  exact absurd (hreg.symm.trans hkept) (by decide)

/-- The trap of a scalar instruction that used a poisoned register. -/
def poisonTrap : TrapInfo := { cause := .poison, insn := 0x68000002 }

/-- Lane 0 of the course that the probe's strand runs waits on fault record 9, while the path's scalar stream stands at a trap with upcall index 7
(R157, R259). -/
def faultOverTrap : State :=
  { (State.reset.probe 4 true [0xFF000000]).updPath pollPath (fun q =>
      { q with park := .fault [(9, 1)] false 0 1 [], standing := some (poisonTrap, some 7) }) with
    faults := [(9, { asid := 0, page := 4, kind := .read, cause := 1, waiters := [.path pollPath 1], count := 1 })]
    traps := [(7, pollPath)] }

theorem faultOverTrap_here : (faultOverTrap.issuerAt pollPath).isSome = true := by decide

/-- The path whose lane stream waits. -/
def faultOverTrapPath : Issuer := (faultOverTrap.issuerAt pollPath).get faultOverTrap_here

/-- The answer to the record lets the lane stream go on; the scalar stream still stands at its trap (R259). -/
theorem faultOverTrap_resumes_trapped : ∃ t, exec (.yokFltResume 9 false) faultOverTrap = .next t ∧
    (t.issuerAt faultOverTrapPath.id).map (fun y => y.path.park) = some (.trap poisonTrap (some 7) none) :=
  ⟨_, rfl, by decide⟩

/-- Refutes O44, at the clause of `YOK_FLT_RESUME`: a path that waits on a fault in its lane stream while a trap of its scalar stream stands goes back
to that trap when the fault is answered (R69, R259), and does not run as the clause says. -/
theorem not_upcallsAndTraps : ¬ Obligations.UpcallsAndTraps := by
  unfold Obligations.UpcallsAndTraps
  rintro ⟨-, -, -, -, -, hresume, -⟩
  obtain ⟨t, y, ht, hy, hpath, -⟩ := hresume faultOverTrap 9 _ faultOverTrapPath 1 1 [] rfl (by decide) (by decide) (by decide) (by decide)
  obtain ⟨u, hu, htrapped⟩ := faultOverTrap_resumes_trapped
  obtain rfl : t = u := Host.Outcome.next.inj (ht.symm.trans hu)
  rw [hy, Option.map_some, hpath] at htrapped
  exact absurd htrapped (by decide)

end Sys2Proof.Machine
end

section
/-! PROOFS. Gangs: what an engine's acceptance of an operation leaves, and how `mx.gang` parks a member or starts the joint operation. -/

namespace Sys2Proof.Machine

open Sys2Proof

/-- A state with other coils in place of its own. -/
def State.withCoils (c : Dict Coil) (s : State) : State := { s with coils := c }

theorem State.poke_withCoils (c : Dict Coil) (s : State) (pa : Nat) (l : List Byte) (bad : Bool) :
    (s.withCoils c).poke pa l bad = (s.poke pa l bad).withCoils c := rfl

/-- A granule's write-back does not hang on coils. -/
theorem State.writeGranule_withCoils (c : Dict Coil) (s : State) (b : L1Block) (g : Nat) :
    (s.withCoils c).writeGranule b g = (s.writeGranule b g).withCoils c := by
  unfold State.writeGranule
  generalize (upFrom (64 * g) 64).filter (bit b.dirty) = offs
  dsimp only
  split
  · exact State.poke_withCoils ..
  · exact List.foldl_hom (State.withCoils c) (fun _ _ => rfl)

theorem State.writeLines_withCoils (c : Dict Coil) (s : State) (b : L1Block) (ks : List Nat) :
    (s.withCoils c).writeLines b ks = (s.writeLines b ks).withCoils c := by
  refine List.foldl_hom (State.withCoils c) (fun s g => ?_)
  split
  · rfl
  · exact State.writeGranule_withCoils c s b g

theorem State.l1Back_withCoils (c : Dict Coil) (s : State) (h sb : Nat) : (s.withCoils c).l1Back h sb = (s.l1Back h sb).withCoils c := by
  unfold State.l1Back
  rw [show (s.withCoils c).l1At h sb = s.l1At h sb from rfl]
  split
  next b _ =>
    unfold State.l1Write
    rw [State.writeLines_withCoils]
    dsimp only
    split <;> rfl
  next => rfl

/-- A release acts on the L1s alone, whatever the coils are (R150). -/
theorem State.releaseAt_withCoils (c : Dict Coil) (s : State) (x : Issuer) (scope : Nat) :
    (s.withCoils c).releaseAt x scope = (s.releaseAt x scope).withCoils c := by
  unfold State.releaseAt
  split
  · exact List.foldl_hom (State.withCoils c) (fun s sb => State.l1Back_withCoils c s x.hamper sb)
  · rfl

/-- A release at a scope changes only memory, poison and the L1s (R150). -/
theorem State.releaseAt_byL1 (s : State) (x : Issuer) (scope : Nat) : ByL1 s (s.releaseAt x scope) := by
  unfold State.releaseAt
  split
  · exact State.l1Release_byL1 s x.hamper
  · exact .refl s

theorem ByL1.nextOp {s t : State} (h : ByL1 s t) : t.nextOp = s.nextOp := by rw [← h.rest]

/-- `y` is the path of `x` with its place, its scalar registers and its coil's counts. -/
structure Issuer.Like (y x : Issuer) : Prop where
  path : y.path = x.path
  sregs : y.strand.sregs = x.strand.sregs
  used : y.coil.insnUsed = x.coil.insnUsed
  issued : y.coil.tlIssued = x.coil.tlIssued

theorem Issuer.Like.trans {x y z : Issuer} (h : z.Like y) (k : y.Like x) : z.Like x :=
  ⟨h.path.trans k.path, h.sregs.trans k.sregs, h.used.trans k.used, h.issued.trans k.issued⟩

/-- From `s` to `t` nothing but coils may differ, and a path stands as it stood. -/
structure KeepsPath (id : PathId) (s t : State) : Prop where
  rest : t = s.withCoils t.coils
  path : ∀ x, s.issuerAt id = some x → ∃ y, t.issuerAt id = some y ∧ y.Like x

namespace KeepsPath

variable {id : PathId} {s t u : State}

theorem refl (id : PathId) (s : State) : KeepsPath id s s := ⟨rfl, fun x h => ⟨x, h, rfl, rfl, rfl, rfl⟩⟩

theorem trans (h : KeepsPath id s t) (k : KeepsPath id t u) : KeepsPath id s u where
  rest := calc
    u = t.withCoils u.coils := k.rest
    _ = (s.withCoils t.coils).withCoils u.coils := congrArg _ h.rest
  path x hx := by
    obtain ⟨y, hy, like⟩ := h.path x hx
    obtain ⟨z, hz, like'⟩ := k.path y hy
    exact ⟨z, hz, like'.trans like⟩

theorem foldl {α : Type} {f : State → α → State} : ∀ {l : List α}, (∀ a ∈ l, ∀ s, KeepsPath id s (f s a)) → ∀ s, KeepsPath id s (l.foldl f s)
  | [], _, s => refl id s
  | a :: _, h, s => (h a List.mem_cons_self s).trans (foldl (fun b hb => h b (List.mem_cons_of_mem a hb)) (f s a))

/-- A change of the coil that leaves its counts and the strand's paths and registers. -/
theorem updCoil {f : Coil → Coil} (hf : ∀ c, (f c).bolt = c.bolt ∧ (f c).insnUsed = c.insnUsed ∧ (f c).tlIssued = c.tlIssued)
    (hs : ∀ c st, c.strands[id.strand]? = some st →
      ∃ st', (f c).strands[id.strand]? = some st' ∧ st'.path? id.path = st.path? id.path ∧ st'.sregs = st.sregs) :
    KeepsPath id s (s.updCoil id.coil f) where
  rest := rfl
  path x hx := by
    obtain ⟨rfl, -, hst, -, hp⟩ := State.issuerAt_some.mp hx
    obtain ⟨hbolt, hused, hissued⟩ := hf x.coil
    obtain ⟨st', hst', hpath, hsregs⟩ := hs x.coil x.strand hst
    have hat := State.issuerAt_updCoil hx f st' x.path hbolt hst' (hpath.trans hp) []
    rw [State.push_nil] at hat
    exact ⟨_, hat, rfl, hsregs, hused, hissued⟩

/-- A change of a strand that leaves the strand's paths and registers. -/
theorem updStrand {g : Strand → Strand} (hg : ∀ st, (g st).path? id.path = st.path? id.path ∧ (g st).sregs = st.sregs) (i : Nat) :
    KeepsPath id s (s.updStrand id.coil i g) := by
  refine updCoil (fun _ => ⟨rfl, rfl, rfl⟩) fun c st hst => ?_
  by_cases hi : i = id.strand
  · subst hi
    exact ⟨g st, by rw [List.getElem?_modify_eq, hst]; rfl, hg st⟩
  · exact ⟨st, by rw [List.getElem?_modify_ne _ _ hi, hst], rfl, rfl⟩

/-- Any change of another strand. -/
theorem updStrand_other {i : Nat} (hi : i ≠ id.strand) (g : Strand → Strand) : KeepsPath id s (s.updStrand id.coil i g) :=
  updCoil (fun _ => ⟨rfl, rfl, rfl⟩) fun _ st hst => ⟨st, by rw [List.getElem?_modify_ne _ _ hi, hst], rfl, rfl⟩

theorem setMxp (v : Strand → W64) (i : Nat) : KeepsPath id s (s.updStrand id.coil i (fun st => { st with mxp := v st })) :=
  updStrand (g := fun st => { st with mxp := v st }) (fun _ => ⟨rfl, rfl⟩) i

/-- `mxprog` is no register of a path (R213). -/
theorem mxProg (i : Nat) : KeepsPath id s (s.mxProg id.coil i) := by
  unfold State.mxProg
  split
  · exact setMxp _ i
  · exact setMxp _ i

theorem mxProgAll {o : EngineOp} (ho : o.coil = id.coil) : KeepsPath id s (s.mxProgAll o) := by
  unfold State.mxProgAll
  rw [ho]
  split
  · exact foldl (fun m _ _ => mxProg m.1) s
  · exact refl id s

end KeepsPath

/-- From `s` to `t` an engine has taken an operation of a path; the path itself stands as it stood. -/
structure EngineTakes (s t : State) (x : Issuer) (ctx : Nat) (kind : OpKind) : Prop where
  op : ∃ o, Dict.find? t.ops s.nextOp = some o ∧ o.coil = x.id.coil ∧ o.ctx = ctx ∧ o.kind = kind ∧ o.half = x.half ∧
    o.number = Tab.get 0 x.coil.tlIssued ctx + 1 ∧ o.event s.nextOp ∈ t.agenda
  path : ∃ y, t.issuerAt x.id = some y ∧ y.path = x.path ∧ y.strand.sregs = x.strand.sregs ∧ y.coil.insnUsed = x.coil.insnUsed ∧
    Tab.get 0 y.coil.tlIssued ctx = Tab.get 0 x.coil.tlIssued ctx + 1
  memory : t.mem = (s.releaseAt x 1).mem ∧ t.l1 = (s.releaseAt x 1).l1

section
variable {s t u : State} {x : Issuer} {ctx : Nat} {kind : OpKind}

/-- What happens beside the path afterwards does not matter. -/
theorem EngineTakes.after (h : EngineTakes s t x ctx kind) (k : KeepsPath x.id t u) : EngineTakes s u x ctx kind := by
  obtain ⟨y, hy, hpath, hsregs, hused, hissued⟩ := h.path
  obtain ⟨z, hz, like⟩ := k.path y hy
  refine ⟨?_, ⟨z, hz, like.path.trans hpath, like.sregs.trans hsregs, like.used.trans hused, like.issued ▸ hissued⟩, ?_⟩
  · rw [k.rest]
    exact h.op
  · rw [k.rest]
    exact h.memory

/-- The state in which an operation stands in its engine, and its context has given out its number, after a .coil release (R178, R180). -/
def State.engineHolds (s : State) (x : Issuer) (o : EngineOp) : State :=
  { (s.releaseAt x 1).updCoil x.id.coil (fun c => c.tlIssue o.ctx) with
    nextOp := (s.releaseAt x 1).nextOp + 1
    ops := Dict.put (s.releaseAt x 1).ops (s.releaseAt x 1).nextOp o }

theorem State.accept_eq {c : Coil} (hc : s.coil? x.id.coil = some c) (hctx : ctx ≤ 2) (strand path : Nat) (pc : W64) (word : W96) (kind : OpKind)
    (regs : List W64) (gang : W64) (froms : List (Nat × W64 × W96)) :
    ∃ o : EngineOp, (o.coil = x.id.coil ∧ o.ctx = ctx ∧ o.kind = kind ∧ o.half = x.half ∧ o.number = c.tlNext ctx) ∧
      s.accept x ctx strand path pc word kind regs gang froms =
        (c.tlNext ctx, ((s.engineHolds x o).mxProgAll o).push [o.event (s.releaseAt x 1).nextOp]) := by
  unfold State.accept
  simp only [if_pos hctx, hc]
  exact ⟨_, ⟨rfl, rfl, rfl, rfl, rfl⟩, rfl⟩

/-- The path of the operation stands as it stood, its coil's context one number on. -/
theorem State.issuerAt_engineHolds {y : Issuer} (hy : s.issuerAt x.id = some y) (o : EngineOp) :
    (s.engineHolds x o).issuerAt x.id = some { y with coil := y.coil.tlIssue o.ctx } := by
  have released := State.releaseAt_byL1 s x 1
  have hrel : (s.releaseAt x 1).issuerAt x.id = some y := (State.issuerAt_congr released.coils released.bolts x.id).trans hy
  obtain ⟨hid, -, hst, -, hp⟩ := State.issuerAt_some.mp hrel
  rw [← hid] at hrel hst hp
  rw [State.engineHolds, ← hid]
  exact (State.issuerAt_congr rfl rfl _).trans (State.issuerAt_updCoil hrel (fun c => c.tlIssue o.ctx) y.strand y.path rfl hst hp [])

/-- An acceptance for a matrix, traversal or coverage context, in a state in which the path stands as in `s`: the next number, and the operation in its
engine (R178, R180). -/
theorem State.accept_takes (hx : s.issuerAt x.id = some x) (k : KeepsPath x.id s t) (hctx : ctx ≤ 2) (strand path : Nat) (pc : W64) (word : W96)
    (kind : OpKind) (regs : List W64) (gang : W64) (froms : List (Nat × W64 × W96)) :
    (t.accept x ctx strand path pc word kind regs gang froms).1 = Tab.get 0 x.coil.tlIssued ctx + 1 ∧
      EngineTakes s (t.accept x ctx strand path pc word kind regs gang froms).2 x ctx kind := by
  obtain ⟨y, hy, like⟩ := k.path x hx
  obtain ⟨-, hcoil, -⟩ := State.issuerAt_some.mp hy
  have hn : y.coil.tlNext ctx = Tab.get 0 x.coil.tlIssued ctx + 1 := by rw [Coil.tlNext, like.issued]
  obtain ⟨o, ⟨ho, rfl, hkind, hhalf, hnumber⟩, haccept⟩ := State.accept_eq hcoil hctx strand path pc word kind regs gang froms
  rw [haccept]
  have prog : KeepsPath x.id (t.engineHolds x o) ((t.engineHolds x o).mxProgAll o) := .mxProgAll ho
  obtain ⟨z, hz, like'⟩ := prog.path _ (State.issuerAt_engineHolds hy o)
  have hnext : (t.releaseAt x 1).nextOp = s.nextOp := (State.releaseAt_byL1 t x 1).nextOp.trans (k.rest ▸ rfl)
  have hrel : t.releaseAt x 1 = (s.releaseAt x 1).withCoils t.coils := by rw [k.rest]; exact State.releaseAt_withCoils ..
  refine ⟨hn, ⟨o, ?_, ho, rfl, hkind, hhalf, hnumber.trans hn, ?_⟩, ⟨z, (State.issuerAt_congr rfl rfl _).trans hz, ?_⟩, ?_⟩
  · rw [← hnext, State.push_ops, prog.rest]
    exact Dict.find_put_same _ _ _
  · rw [← hnext, State.push_agenda]
    exact List.mem_append_right _ List.mem_cons_self
  · refine ⟨like'.path.trans like.path, like'.sregs.trans like.sregs, like'.used.trans like.used, ?_⟩
    rw [like'.issued]
    exact (Tab.get_set_same 0 y.coil.tlIssued o.ctx _).trans hn
  · rw [State.push_mem, State.push_l1, prog.rest]
    exact ⟨(congrArg State.mem hrel :), (congrArg State.l1 hrel :)⟩

/-- Register numbers of one path have different keys (R123). -/
theorem sKey_inj {p r q : Nat} (hr : r < 64) (hq : q < 64) : sKey p r = sKey p q ↔ r = q := by
  unfold sKey
  split <;> split <;> omega

/-- What a register reads after a write to one (R290). -/
theorem Strand.getS_setS (st : Strand) (p : Nat) {d r : Nat} (hd : d < 64) (hr : r < 64) (v : W64) (bad : Bool) :
    (st.setS p d v bad).getS p r = if r ≠ 0 ∧ r = d then v else st.getS p r := by
  unfold Strand.getS Strand.setS
  by_cases h0 : r = 0
  · simp [h0]
  · by_cases hd0 : d = 0
    · have hrd : ¬ r = d := fun e => h0 (e.trans hd0)
      simp only [hd0, if_true, hd0 ▸ hrd, and_false, if_false]
    · simp only [if_neg hd0, Strand.putS, Tab.get_set, sKey_inj hr hd, ne_eq, h0, not_false_eq_true, true_and, if_false]

/-- A scalar instruction that writes one register goes on behind itself; its coil counts it (R137). -/
theorem settle_setS {y : Issuer} (hy : t.issuerAt x.id = some y) (i : Instr) (d : BitVec 6) (v : W64) (bad : Bool) :
    ∃ z, (settleScalar x i (.go (t.setS x.id d.toNat v bad))).issuerAt x.id = some z ∧
      z.path = { y.path with bpPass := false, pc := x.path.pc + BitVec.ofNat 64 (insnBytes i) } ∧
      z.coil.insnUsed = y.coil.insnUsed + 1 ∧ z.coil.tlIssued = y.coil.tlIssued ∧
      ∀ r, r < 64 → z.sAt r = if r ≠ 0 ∧ r = d.toNat then v else y.sAt r := by
  obtain ⟨hid, -, hst, -, hp⟩ := State.issuerAt_some.mp hy
  rw [settle_go, State.setS, State.updStrand, State.updCoil_updCoil, ← hid]
  rw [← hid] at hy hst hp
  have hstrand := (List.getElem?_modify_eq (fun st : Strand => st.setS y.id.path d.toNat v bad) y.id.strand y.coil.strands).trans (congrArg _ hst)
  refine ⟨_, State.issuerAt_updCoil hy _ _ { y.path with bpPass := false, pc := x.path.pc + BitVec.ofNat 64 (insnBytes i) } rfl
    ((List.getElem?_modify_eq _ _ _).trans (congrArg _ hstrand)) ?_ _, rfl, rfl, rfl, fun r hr => ?_⟩
  · rw [Strand.path_updPath_same, Strand.setS_path, hp]
    rfl
  · refine Eq.trans ?_ (Strand.getS_setS y.strand y.id.path d.isLt hr v bad)
    unfold Issuer.sAt Strand.getS
    rw [Strand.updPath_sregs]

/-- With the number in sd, the path goes on behind its word (R390). -/
theorem EngineTakes.accepts (h : EngineTakes s t x ctx kind) (i : Instr) (hi : insnBytes i = 4) (d : BitVec 6) :
    Accepts s (settleScalar x i (.go (t.setS x.id d.toNat (BitVec.ofNat 64 (Tab.get 0 x.coil.tlIssued ctx + 1)) false))) x ctx d kind := by
  obtain ⟨y, hy, hpath, hsregs, hused, hissued⟩ := h.path
  have hid : y.id = x.id := (State.issuerAt_some.mp hy).1
  obtain ⟨z, hz, hzpath, hzused, hzissued, hzregs⟩ := settle_setS hy i d (BitVec.ofNat 64 (Tab.get 0 x.coil.tlIssued ctx + 1)) false
  refine ⟨?_, ⟨z, hz, ?_, hzused.trans (congrArg (· + 1) hused), ?_, fun r hr => ?_⟩, ?_⟩
  · obtain ⟨o, hop, hcoil, hctx, hkind, hhalf, hnumber, hevent⟩ := h.op
    rw [settle_go]
    exact ⟨o, hop, hcoil, hctx, hkind, hhalf, hnumber, List.mem_append_left _ hevent⟩
  · rw [hzpath, hi]
    rfl
  · rw [hzissued, hissued]
  · rw [hzregs r hr, show y.sAt r = x.sAt r by unfold Issuer.sAt Strand.getS; rw [hsregs, hid]]
  · rw [settle_go]
    exact h.memory

end

/-- The member set that the issuer's `gang` names (R109). -/
abbrev Issuer.gangSet (x : Issuer) : Mask := maskOf (gangMembers x.strand.gang)

/-- What a member brings to its gang's latch (R397). -/
def Issuer.arrival (x : Issuer) (d a b : BitVec 6) (l : Bool) (f : BitVec 4) : GangArrival :=
  { strand := x.id.strand, d := d, gang := x.strand.gang, fmt := f.toNat, scl := l, a := x.s a, sa := x.sAt (a.toNat + 1), b := x.sAt (a.toNat + 2)
    sb := x.sAt (a.toNat + 3), shape := x.s b, word := (insnWords (.mxGang d a b l f)).setWidth 32, pc := x.path.pc }

/-- One more gang instruction of a member set that a strand has executed, or parked in (R133). -/
def Strand.ranGang (set : Mask) (st : Strand) : Strand :=
  { st with gangRuns := Tab.set 0 st.gangRuns set.toNat (Tab.get 0 st.gangRuns set.toNat + 1) }

/-- What a member's coming does to its coil: the member counts it, and the latches stand as `latches`. -/
def Coil.gangMet (i : Nat) (set : Mask) (latches : List (Mask × List GangArrival)) (c : Coil) : Coil :=
  { c with strands := c.strands.modify i (Strand.ranGang set), latches := latches }

/-- A path stands as it stood when a member of its coil has come. -/
theorem KeepsPath.gangMet {id : PathId} {s : State} (i : Nat) (set : Mask) (latches : List (Mask × List GangArrival)) :
    KeepsPath id s (s.updCoil id.coil (Coil.gangMet i set latches)) := by
  have counted := KeepsPath.updStrand (id := id) (s := s) (g := Strand.ranGang set) (fun _ => ⟨rfl, rfl⟩) i
  have both := counted.trans (.updCoil (f := fun c => { c with latches := latches }) (fun _ => ⟨rfl, rfl, rfl⟩)
    fun _ st hst => ⟨st, hst, rfl, rfl⟩)
  rwa [State.updStrand, State.updCoil_updCoil] at both

/-- A parked member goes on behind its word with the number of the joint operation (R398). -/
def State.memberGoes (k n : Nat) (s : State) (o : GangArrival) : State :=
  (s.setS { coil := k, strand := o.strand, path := 15 } o.d.toNat (BitVec.ofNat 64 n) false).resumeAfter { coil := k, strand := o.strand, path := 15 } 4

theorem KeepsPath.memberGoes {id : PathId} {s : State} {o : GangArrival} (ho : o.strand ≠ id.strand) (n : Nat) :
    KeepsPath id s (s.memberGoes id.coil n o) :=
  (KeepsPath.updStrand_other ho _).trans (KeepsPath.updStrand_other ho _)

/-- The latches but that of the issuer's gang. -/
def Issuer.otherLatches (x : Issuer) : List (Mask × List GangArrival) := x.coil.latches.filter (fun e => e.1 != x.gangSet)

/-- The engine takes the joint operation of a gang whose last member `me` has come after the `others`; their latch is empty again (R398). -/
def State.acceptGang (s : State) (x : Issuer) (i : Instr) (others : List GangArrival) (me : GangArrival) : Nat × State :=
  let all := others ++ [me]
  (s.updCoil x.id.coil (Coil.gangMet x.id.strand x.gangSet x.otherLatches)).accept x 0 ((gangMembers me.gang).headD 0) 15 me.pc (insnWords i)
    (gangKind all me)
    (me.b :: me.sb :: (gangMembers me.gang).flatMap (fun m => match all.find? (fun a => a.strand == m) with
      | some a => [a.a, a.sa, a.shape]
      | none => []))
    me.gang (all.map (fun a => (a.strand, a.pc, BitVec.ofNat 96 a.word.toNat)))

theorem State.acceptGang_takes {s : State} {x : Issuer} (hx : s.issuerAt x.id = some x) (i : Instr) (others : List GangArrival) (me : GangArrival) :
    (s.acceptGang x i others me).1 = Tab.get 0 x.coil.tlIssued 0 + 1 ∧
      EngineTakes s (s.acceptGang x i others me).2 x 0 (gangKind (others ++ [me]) me) :=
  State.accept_takes hx (.gangMet x.id.strand x.gangSet x.otherLatches) (Nat.zero_le 2) _ _ _ _ _ _ _ _

/-- A path that parks is found with its parking (R115). -/
theorem State.issuerAt_settle_park {t : State} {x y : Issuer} (hy : t.issuerAt x.id = some y) (i : Instr) (k : Park) :
    (settleScalar x i (.park t k)).issuerAt x.id = some (y.issuedWith (fun p => { p with park := k })) := by
  have hid : y.id = x.id := (State.issuerAt_some.mp hy).1
  rw [← hid] at hy
  refine (congrArg (·.issuerAt x.id) (State.issuedS_updPath t x.id (fun p => { p with park := k }))).trans ?_
  rw [← hid]
  exact State.issuerAt_issuedWith hy _ _

/-- A member that has come is found in its coil with the latches as they now stand. -/
theorem State.issuerAt_gangMet {s : State} {x : Issuer} (hx : s.issuerAt x.id = some x) (latches : List (Mask × List GangArrival)) :
    ∃ y, (s.updCoil x.id.coil (Coil.gangMet x.id.strand x.gangSet latches)).issuerAt x.id = some y ∧ y.path = x.path ∧
      y.coil.latches = latches := by
  obtain ⟨y, hy, like⟩ := (KeepsPath.gangMet (id := x.id) (s := s) x.id.strand x.gangSet latches).path x hx
  obtain ⟨-, hcoil, -⟩ := State.issuerAt_some.mp hy
  obtain ⟨-, hcoil', -⟩ := State.issuerAt_some.mp hx
  refine ⟨y, hy, like.path, ?_⟩
  rw [State.coil?, State.updCoil_coils, Dict.find_upd_same, show Dict.find? s.coils x.id.coil = some x.coil from hcoil'] at hcoil
  rw [← Option.some.inj hcoil]
  rfl

section
variable {s : State} {x : Issuer} {d a b : BitVec 6} {l : Bool} {f : BitVec 4}

/-- No member of the issuer's gang is absent (R110). -/
theorem gang_present (h : ∀ m ∈ gangMembers x.strand.gang, ∀ st, x.coil.strands[m]? = some st → st.gangAbsent = false) :
    (gangMembers x.strand.gang).any (fun m => (x.coil.strands[m]?).any Strand.gangAbsent) = false := by
  rw [List.any_eq_false]
  intro m hm
  cases hst : x.coil.strands[m]? with
  | none => simp
  | some st => simp [h m hm st hst]

variable (ready : Ready s x { reads := upFrom a.toNat 4 ++ [b.toNat], writes := [d.toNat], courses := true, roles := 2 })
  (sound : mmaCause s x f.toNat l true (x.s a) (x.sAt (a.toNat + 1)) (x.sAt (a.toNat + 2)) (x.sAt (a.toNat + 3)) (x.s b) = none)
  (present : ∀ m ∈ gangMembers x.strand.gang, ∀ st, x.coil.strands[m]? = some st → st.gangAbsent = false)
include ready sound present

/-- The first member of several comes to an empty latch, and parks (R110). -/
theorem exec_mxGang_first (hlatch : x.coil.latches.find? (fun e => e.1 == x.gangSet) = none)
    (hseveral : 1 < (gangMembers x.strand.gang).length) :
    exec (.mxGang d a b l f) s = .next (settleScalar x (.mxGang d a b l f) (.park
      (s.updCoil x.id.coil (Coil.gangMet x.id.strand x.gangSet ((x.gangSet, [x.arrival d a b l f]) :: x.otherLatches))) (.gang x.gangSet))) := by
  refine (scalar_ready ready (.mxGang d a b l f) _).trans ?_
  simp only [sound, gang_present present, hlatch, List.nil_append, List.length_singleton, if_pos hseveral, Bool.false_eq_true, if_false,
    State.updStrand, State.updCoil_updCoil]
  rfl

/-- The last member comes: the engine takes the joint operation, and every member goes on with its number (R110, R398). -/
theorem exec_mxGang_last {others : List GangArrival}
    (hlatch : x.coil.latches.find? (fun e => e.1 == x.gangSet) = some (x.gangSet, others))
    (hlast : others.length + 1 = (gangMembers x.strand.gang).length) (hagree : gangDiffers x.desc (others ++ [x.arrival d a b l f]) = false)
    (hroom : s.intakeFull x.hamper = false) :
    let r := s.acceptGang x (.mxGang d a b l f) others (x.arrival d a b l f)
    exec (.mxGang d a b l f) s = .next (settleScalar x (.mxGang d a b l f) (.go
      ((others.foldl (State.memberGoes x.id.coil r.1) r.2).setS x.id d.toNat (BitVec.ofNat 64 r.1) false))) := by
  refine (scalar_ready ready (.mxGang d a b l f) _).trans ?_
  have hfull : ¬ (others ++ [x.arrival d a b l f]).length < (gangMembers x.strand.gang).length := by
    simp only [List.length_append, List.length_singleton]
    omega
  rw [Issuer.arrival] at hagree hfull
  simp only [sound, gang_present present, hlatch, hagree, hroom, if_neg hfull, Bool.false_eq_true, if_false, State.updStrand, State.updCoil_updCoil]
  rfl

end

/-- Settles O18: a first member's coming changes its strand and its coil's latches, then it parks; at the last one's the path stands as it stood but
for the acceptance, since the release and the other members' going on are beside it. -/
theorem gangs : Obligations.Gangs := by
  unfold Obligations.Gangs
  intro s x d a b l f
  dsimp only
  intro ready sound present
  have hx := State.issuer_at ready.turn
  refine ⟨fun hlatch hseveral => ?_, fun others hlatch hlast hothers hagree hroom => ?_⟩
  · obtain ⟨y, hy, hpath, hlatches⟩ := State.issuerAt_gangMet hx ((x.gangSet, [x.arrival d a b l f]) :: x.otherLatches)
    refine ⟨_, _, exec_mxGang_first ready sound present hlatch hseveral, State.issuerAt_settle_park hy _ _, rfl, ?_, ?_⟩
    · exact (congrArg PathState.pc hpath :)
    · exact (congrArg (_ ∈ ·) hlatches).mpr List.mem_cons_self
  · obtain ⟨hnumber, taken⟩ := State.acceptGang_takes hx (.mxGang d a b l f) others (x.arrival d a b l f)
    have hexec := exec_mxGang_last ready sound present hlatch hlast hagree hroom
    simp only [hnumber] at hexec
    exact ⟨_, hexec, (taken.after (.foldl (fun o ho _ => .memberGoes (hothers o ho) _) _)).accepts _ rfl d⟩

end Sys2Proof.Machine
end
